-- ==== Sys2Proof/Word.lean ====
section
/-! DEFINITION. The two bit-vector types of the part: a byte of the host port or of a link payload, and the 32 data
bits of a totals-store word. Everything else the manual counts, weighs or prices is a `Nat` or an `Int`. -/

namespace Sys2Proof

/-- One byte of a host-port block, of an event record or of a link payload. -/
abbrev Byte := BitVec 8

/-- The 32 data bits of one totals-store word (R141). -/
abbrev Word := BitVec 32

end Sys2Proof
end

