-- ==== Sys2Proof/Config.lean ====
section
/-! DEFINITION. The free values: what the manual leaves open although the part goes on. An `opaque` constant has no
body that a proof can see, so a claim that mentions one holds for every value of it. -/

namespace Sys2Proof

/-- How a read judges a store word (R141). -/
inductive Judgement where
  | sound
  | corrected
  | uncorrectable
  deriving DecidableEq, Repr, Inhabited

/-- FREE VALUE (assumption 1). R141: "A word with three or more wrong bits may be judged any of the three." The
judgement of a word whose data as last written is the first argument and whose wrong bits are the second. -/
opaque Config.multiBitJudgement : Word → BitVec 39 → Judgement

/-- FREE VALUE (assumption 1). The data that a read returns for a word of three or more wrong bits that it judges
CORRECTED. R141 states the returned data only for one wrong bit. -/
opaque Config.multiBitData : Word → BitVec 39 → Word

end Sys2Proof
end

