-- ==== Sys2Proof/Syntax.lean ====
section
/-! DEFINITION. The commands of the part: one constructor of `Instr` for each row of the operation table, with the
operands that the row's rule gives it. A request's operands are the parameter bytes of its block, field by field; an
accepted frame's operands are its origin and its payload fields, each as wide as the layout of chapter 3 makes it. -/

namespace Sys2Proof

/-- The strap pins STN3..0, CAP1..0 and ISSUER (R191, Table 11-7). -/
structure Straps where
  station : BitVec 4
  cap     : BitVec 2
  issuer  : Bool
  deriving DecidableEq, Repr, Inhabited

/-- A request block: its code and its parameter bytes (Table 11-1). -/
structure RequestBlock where
  code   : Byte
  params : List Byte
  deriving DecidableEq, Repr, Inhabited

/-- The CONFIGURE fields, in the order and with the widths of Table 11-6. -/
structure ConfigBlock where
  rate          : Byte
  filterLength  : Byte
  window        : Byte
  timeout       : Byte
  tracking      : Byte
  zcal          : BitVec 24
  span          : BitVec 24
  rounding      : Byte
  ticketMode    : Byte
  wrap          : BitVec 16
  expiry        : Byte
  lowZeroUse    : Byte
  lowOverloads  : Byte
  lowMotion     : Byte
  lowStore      : Byte
  lowRetries    : Byte
  lowMismatch   : Byte
  deriving DecidableEq, Repr, Inhabited

/-- DAYCLOSE payload (Table 3-10). -/
structure DayClosePayload where
  day    : BitVec 16
  forced : Bool
  deriving DecidableEq, Repr, Inhabited

/-- CALL and PASS payload (Table 3-10). -/
structure TicketPayload where
  tag    : BitVec 8
  ticket : BitVec 16
  clerk  : BitVec 8
  deriving DecidableEq, Repr, Inhabited

/-- ISSUE payload (Table 3-10). -/
structure IssuePayload where
  tag    : BitVec 8
  ticket : BitVec 16
  deriving DecidableEq, Repr, Inhabited

/-- TXCLOSE payload (Table 3-10); ticket 0 is "none". -/
structure TxClosePayload where
  tag    : BitVec 8
  clerk  : BitVec 8
  ticket : BitVec 16
  items  : BitVec 8
  amount : BitVec 32
  deriving DecidableEq, Repr, Inhabited

/-- TXCANCEL payload (Table 3-10); reason 0 HOST, 1 EXPIRY. -/
structure TxCancelPayload where
  tag    : BitVec 8
  clerk  : BitVec 8
  reason : BitVec 8
  deriving DecidableEq, Repr, Inhabited

/-- VOID payload (Table 3-10). -/
structure VoidPayload where
  tag   : BitVec 8
  clerk : BitVec 8
  line  : BitVec 8
  price : BitVec 24
  deriving DecidableEq, Repr, Inhabited

/-- ITEM payload (Table 3-3). -/
structure ItemPayload where
  tag     : BitVec 8
  byCount : Bool
  clerk   : BitVec 5
  line    : BitVec 8
  plu     : BitVec 24
  dept    : BitVec 8
  price   : BitVec 24
  measure : BitVec 16
  serial  : BitVec 24
  deriving DecidableEq, Repr, Inhabited

/-- DAYSUM payload (Table 3-4). -/
structure DaysumPayload where
  day        : BitVec 16
  itemAmount : BitVec 32
  itemCount  : BitVec 24
  customers  : BitVec 16
  voidAmount : BitVec 32
  deriving DecidableEq, Repr, Inhabited

/-- CENSUS_REPLY payload (Table 3-10). -/
structure CensusReplyPayload where
  day        : BitVec 16
  wrap999    : Bool
  untracked  : Bool
  issued     : BitVec 16
  called     : BitVec 16
  openOrders : BitVec 8
  deriving DecidableEq, Repr, Inhabited

/-- CENSUS_TX payload (Table 3-10); ticket 0 is "none". -/
structure CensusTxPayload where
  clerk  : BitVec 8
  ticket : BitVec 16
  items  : BitVec 8
  amount : BitVec 32
  holder : BitVec 4
  deriving DecidableEq, Repr, Inhabited

/-- BEACON payload (Table 3-10). -/
structure BeaconPayload where
  day       : BitVec 16
  wrap999   : Bool
  untracked : Bool
  lockedOut : Bool
  issued    : BitVec 16
  called    : BitVec 16
  deriving DecidableEq, Repr, Inhabited

/-- A payload of each of the fourteen frame classes (Table 3-2). -/
inductive Payload where
  | dayClose    (p : DayClosePayload)
  | call        (p : TicketPayload)
  | issue       (p : IssuePayload)
  | pass        (p : TicketPayload)
  | txClose     (p : TxClosePayload)
  | txCancel    (p : TxCancelPayload)
  | voidLine    (p : VoidPayload)
  | item        (p : ItemPayload)
  | daysum      (p : DaysumPayload)
  | daysumAsk   (day : BitVec 16)
  | censusAsk
  | censusReply (p : CensusReplyPayload)
  | censusTx    (p : CensusTxPayload)
  | beacon      (p : BeaconPayload)
  deriving DecidableEq, Repr, Inhabited

/-- A frame: the origin station of its arbitration field and its payload. -/
structure Frame where
  origin  : BitVec 4
  payload : Payload
  deriving DecidableEq, Repr, Inhabited

/-- A frame as the line carries it, before any judgement: the fields 2 to 5 of Table 3-1, and whether a bit time
before the end of the check word lacked its coding mark (R58). -/
structure RawFrame where
  arbitration : BitVec 8
  length      : BitVec 4
  bytes       : List Byte
  check       : BitVec 16
  truncated   : Bool
  deriving DecidableEq, Repr, Inhabited

/-- The commands: one constructor for each row of the operation table, in the table's order. -/
inductive Instr where
  | powerOn (straps : Straps) (retainOk : Bool)
  | mainPowerFail
  | resetAssert
  | resetRelease (straps : Straps)
  | verificationWalkEnd
  | initializationWalkEnd
  | selectionEnd (mosi : List Byte)
  | configure (fields : ConfigBlock)
  | start
  | restart
  | setTime (time : BitVec 24)
  | readStatus
  | takeEvent
  | zero
  | tareWeigh
  | tareSet (grams : BitVec 16)
  | tareClear
  | readWeight
  | weighItem (clerk : Byte) (plu : BitVec 24) (dept : Byte) (price : BitVec 24) (tareGiven : Byte) (tare : BitVec 16)
  | countItem (clerk : Byte) (plu : BitVec 24) (dept : Byte) (price : BitVec 24) (quantity : Byte)
  | abortCapture
  | releaseHeld
  | discardHeld
  | setWatch (slot form kind : Byte) (value : BitVec 24) (action enable : Byte)
  | clearWatchStatus (slots : Byte)
  | readWatches
  | takeLabel
  | readJournal (index : Byte)
  | issueTicket
  | callNext (clerk : Byte)
  | passTicket (clerk : Byte)
  | readTickets
  | totalOrder (clerk : Byte)
  | cancelOrder (clerk : Byte)
  | voidLine (clerk line : Byte)
  | readOrder (clerk : Byte)
  | closeDay (forced : Byte)
  | joinDay
  | askDaysum (day : BitVec 16)
  | readDayRecord (index : Byte)
  | readTotals (group : Byte)
  | readHealth
  | readFaults (index : Byte)
  | clearStoreLatch
  | readRoster
  | sampleArrival (bits : Nat) (value : BitVec 24)
  | sampleWatchdogExpiry
  | captureTimerExpiry
  | holdTimerExpiry
  | beaconTimerExpiry
  | censusTimerExpiry
  | rosterAgeExpiry (station : BitVec 4)
  | orderExpiry (clerk : Byte)
  | timeOfDayTick
  | scrubRequest
  | storeRead
  | storeUpdate
  | itemPosting
  | journalAppend
  | takenFlagUpdate
  | counterUpdate
  | recordWrite
  | closeCopy
  | linkAttemptStart
  | arbitrationLost
  | attemptBitError
  | attemptObjected
  | frameDamaged (frame : RawFrame)
  | dayCloseAccepted (origin : BitVec 4) (p : DayClosePayload)
  | callAccepted (origin : BitVec 4) (p : TicketPayload)
  | issueAccepted (origin : BitVec 4) (p : IssuePayload)
  | passAccepted (origin : BitVec 4) (p : TicketPayload)
  | txCloseAccepted (origin : BitVec 4) (p : TxClosePayload)
  | txCancelAccepted (origin : BitVec 4) (p : TxCancelPayload)
  | voidAccepted (origin : BitVec 4) (p : VoidPayload)
  | itemAccepted (origin : BitVec 4) (p : ItemPayload)
  | daysumAccepted (origin : BitVec 4) (p : DaysumPayload)
  | daysumAskAccepted (origin : BitVec 4) (day : BitVec 16)
  | censusAskAccepted (origin : BitVec 4)
  | censusReplyAccepted (origin : BitVec 4) (p : CensusReplyPayload)
  | censusTxAccepted (origin : BitVec 4) (p : CensusTxPayload)
  | beaconAccepted (origin : BitVec 4) (p : BeaconPayload)
  | closeStart
  | vretDisturbance (address : BitVec 11) (flips : BitVec 39)
  deriving DecidableEq, Repr, Inhabited

end Sys2Proof
end

