-- ==== Sys2Proof/Decode.lean ====
section
/-! DEFINITION. Reading a command. The operation table gives no row any bits, so no word spells a command; a host request
is spelled by its block (Tables 11-1 and 11-2), and `requestCommand` reads the command that a block calls for. -/

namespace Sys2Proof

/-- The command that a word spells by the table's bits: the table gives none. -/
def decodeTableWord (_nbits _w : Nat) : Option Instr := none

/-- The CONFIGURE that 22 parameter bytes spell (Table 11-6). -/
def configureOf (params : List (BitVec 8)) : Option Instr :=
  match params with
  | [s, n, m, t, z, a, b, c, d, e, f, r, k, w, v, x, l1, l2, l3, l4, l5, l6] =>
    some (.configure
      { rate := s, filterLength := n, window := m, timeout := t, tracking := z, zcal := a ++ b ++ c, span := d ++ e ++ f,
        rounding := r, ticketMode := k, wrap := w ++ v, expiry := x, lowZeroUse := l1, lowOverloads := l2,
        lowMotion := l3, lowStore := l4, lowRetries := l5, lowMismatch := l6 })
  | _ => none

/-- The request that a code and parameter bytes spell; none when the code is not one of Table 11-2 or the number of
bytes is not the one it takes (R187). -/
def requestOf (code : Nat) (params : List (BitVec 8)) : Option Instr :=
  match code, params with
  | 1, ps => configureOf ps
  | 2, [] => some .start
  | 3, [] => some .restart
  | 4, [a, b, c] => some (.setTime (a ++ b ++ c))
  | 5, [] => some .readStatus
  | 6, [] => some .takeEvent
  | 7, [] => some .zero
  | 8, [] => some .tareWeigh
  | 9, [a, b] => some (.tareSet (a ++ b))
  | 10, [] => some .tareClear
  | 11, [] => some .readWeight
  | 12, [c, p, q, r, d, x, y, z, g, a, b] => some (.weighItem c (p ++ q ++ r) d (x ++ y ++ z) g (a ++ b))
  | 13, [c, p, q, r, d, x, y, z, n] => some (.countItem c (p ++ q ++ r) d (x ++ y ++ z) n)
  | 14, [] => some .abortCapture
  | 15, [] => some .releaseHeld
  | 16, [] => some .discardHeld
  | 17, [s, f, k, a, b, c, t, e] => some (.setWatch s f k (a ++ b ++ c) t e)
  | 18, [s] => some (.clearWatchStatus s)
  | 19, [] => some .readWatches
  | 20, [] => some .takeLabel
  | 21, [n] => some (.readJournal n)
  | 22, [] => some .issueTicket
  | 23, [c] => some (.callNext c)
  | 24, [c] => some (.passTicket c)
  | 25, [] => some .readTickets
  | 26, [c] => some (.totalOrder c)
  | 27, [c] => some (.cancelOrder c)
  | 28, [c, l] => some (.voidLine c l)
  | 29, [c] => some (.readOrder c)
  | 30, [f] => some (.closeDay f)
  | 31, [] => some .joinDay
  | 32, [a, b] => some (.askDaysum (a ++ b))
  | 33, [n] => some (.readDayRecord n)
  | 34, [g] => some (.readTotals g)
  | 35, [] => some .readHealth
  | 36, [n] => some (.readFaults n)
  | 37, [] => some .clearStoreLatch
  | 38, [] => some .readRoster
  | _, _ => none

/-- The command that a request block calls for. -/
def requestCommand (b : RequestBlock) : Option Instr := requestOf b.code.toNat b.params

end Sys2Proof
end

