-- ==== Sys2Proof/Machine/Arith.lean ====
section
/-! DEFINITION. The arithmetic of the manual: rounding (section 0.6), the figures of a capacity class (Table 1-2), the
order of ticket numbers (R71) and the order of business days (R159). -/

namespace Sys2Proof.Machine

/-- rha(a / b): the quotient rounded to the nearest whole number, halves away from zero (section 0.6). -/
def rhaDiv (a : Int) (b : Nat) : Int :=
  a.sign * ((2 * a.natAbs + b) / (2 * b) : Nat)

/-- The 2^20 that K is scaled by (Table 0-3). -/
def spanScale : Nat := 1048576

/-- An addition that stays at 4,294,967,295 (R143). -/
def bucketMax : Nat := 4294967295

/-- Bucket addition with the limit of R143. -/
def satAdd (a b : Nat) : Nat := min (a + b) bucketMax

/-! ### Capacity classes -/

/-- Capacity classes of Table 0-4. -/
inductive CapacityClass where
  | a
  | b
  | c
  deriving DecidableEq, Repr, Inhabited

/-- The class that CAP1..0 selects; 11 is the strap fault (Table 0-4). -/
def capacityClass (cap : BitVec 2) : Option CapacityClass :=
  match cap.toNat with
  | 0 => some .a
  | 1 => some .b
  | 2 => some .c
  | _ => none

/-- Max, cap1, e1 and e2 in grams (Table 0-4). -/
structure Figures where
  max  : Nat
  cap1 : Nat
  e1   : Nat
  e2   : Nat
  deriving DecidableEq, Repr, Inhabited

/-- The figures of the straps (R2). With the strap fault no weighing figures exist (R191): all are 0. No rule that weighs
is reached, and the range of a PLU tare is judged with them (assumption 11). -/
def figures (cap : BitVec 2) : Figures :=
  match capacityClass cap with
  | some .a => { max := 6000, cap1 := 3000, e1 := 1, e2 := 2 }
  | some .b => { max := 15000, cap1 := 6000, e1 := 2, e2 := 5 }
  | some .c => { max := 30000, cap1 := 15000, e1 := 5, e2 := 10 }
  | none => { max := 0, cap1 := 0, e1 := 0, e2 := 0 }

/-- Overload limit, fine units (R2). -/
def Figures.overload (f : Figures) : Int := 10 * (f.max + 9 * f.e2)
/-- Underload limit, fine units (R2). -/
def Figures.underload (f : Figures) : Int := -200 * (f.e1 : Int)
/-- Interval change point, fine units (R2). -/
def Figures.changePoint (f : Figures) : Nat := 10 * f.cap1
/-- Zero band Bz, fine units (R2). -/
def Figures.zeroBand (f : Figures) : Nat := f.max / 5
/-- Initial zero band: Max in grams taken as fine units (R2). -/
def Figures.initialBand (f : Figures) : Nat := f.max
/-- Stability spread, fine units (R2). -/
def Figures.spread (f : Figures) : Int := 10 * f.e1
/-- Tracking window, fine units (R2). -/
def Figures.trackingWindow (f : Figures) : Nat := 5 * f.e1
/-- Minimum weighing, grams (R2). -/
def Figures.minimum (f : Figures) : Int := 20 * f.e1

/-- The interval in force for a net weight (R10). -/
def Figures.interval (f : Figures) (net : Int) : Nat :=
  if net.natAbs ≤ f.changePoint then f.e1 else f.e2

/-- The display weight W in grams (R10). -/
def Figures.display (f : Figures) (net : Int) : Int :=
  f.interval net * rhaDiv net (10 * f.interval net)

/-- Whether a tare in grams lies in 0..cap1 and is a whole multiple of e1 (R27). -/
def Figures.tareInRange (f : Figures) (grams : Nat) : Bool :=
  decide (grams ≤ f.cap1 ∧ grams % f.e1 = 0)

/-! ### Prices -/

/-- Base price of a weighed item (R37). -/
def weighedPrice (weight : Int) (unitPrice : Nat) : Nat :=
  ((weight * unitPrice + 500) / 1000).toNat

/-- The price P' rounded to the rounding unit r, halves up (R38). -/
def roundPrice (p r : Nat) : Nat := r * ((2 * p + r) / (2 * r))

/-- The price limit (R39). -/
def priceLimit : Nat := 999999

/-! ### Tickets -/

/-- The successor of a ticket: W is followed by 1, and 0 by 1 (R71). A number above W, stored from a station with another
wrap, is followed by the number after it (assumption 34). -/
def nextTicket (wrap n : Nat) : Nat := if n = wrap then 1 else n + 1

/-- The newer relation of R71; every ticket is newer than 0, "none this day". R71 speaks of tickets 1..W; a number above W,
heard from a station with another wrap, is compared by the same words (assumption 34). -/
def newer (wrap n c : Nat) : Bool :=
  if n = 0 then false
  else if c = 0 then true
  else decide (1 ≤ (n + wrap - c % wrap) % wrap ∧ (n + wrap - c % wrap) % wrap ≤ wrap / 2)

/-- The first `fuel` successors of a ticket, one after another. -/
def ticketsFrom (wrap : Nat) : Nat → Nat → List Nat
  | _, 0 => []
  | n, fuel + 1 => nextTicket wrap n :: ticketsFrom wrap (nextTicket wrap n) fuel

/-- How many successors lead from highest called to highest issued (R87): none when highest issued is 0 or not newer
than highest called. With a figure above the own W it is still the difference mod W, or highest issued itself when highest
called is 0, and the successors of that number need not reach highest issued (assumption 34). -/
def waitingSpan (wrap issued called : Nat) : Nat :=
  if newer wrap issued called then
    (if called = 0 then issued else (issued + wrap - called % wrap) % wrap)
  else 0

/-! ### Business days -/

/-- The successor of a business day: 65,535 is followed by 1 (R159). -/
def nextDay (d : Nat) : Nat := if d = 65535 then 1 else d + 1

/-- X is later than D when (X − D) mod 65,536 lies in 1..32,767 (R159). -/
def laterDay (x d : Nat) : Bool :=
  decide (1 ≤ (x + 65536 - d) % 65536 ∧ (x + 65536 - d) % 65536 ≤ 32767)

/-- The day tag of a business day (R159). -/
def dayTag (d : Nat) : Nat := d % 256

/-! ### Rings -/

/-- The slot after the newest in a ring of `size` slots numbered from 1; 0 stands for no slot yet (R135, R147, R181). -/
def ringNext (size newest : Nat) : Nat := if newest = 0 ∨ size ≤ newest then 1 else newest + 1

/-- The slot `index` places back from the newest: ((h − 1 − index) mod size) + 1 (R138, R171, R184). -/
def ringBack (size newest index : Nat) : Nat := (newest + size - 1 - index) % size + 1

/-! ### Time -/

/-- The unit in which the model lets time pass: 250 µs, the period of one word of a store walk (assumption 3). -/
def unitsPerMilli : Nat := 4
/-- Time units in one second. -/
def unitsPerSecond : Nat := 4000
/-- Time units in one minute. -/
def unitsPerMinute : Nat := 240000

end Sys2Proof.Machine
end

