-- ==== Sys2Proof/Machine/Table.lean ====
section
/-! DEFINITION. Sorted tables: lists of key and value pairs with keys strictly rising. The words of the totals store, the
roster, the clerk orders, the pass records and the held days are tables. -/

namespace Sys2Proof.Machine

/-- A table: entries by key. -/
abbrev Table (α : Type) := List (Nat × α)

/-- The entry of a key. -/
def Table.get {α : Type} (t : Table α) (k : Nat) : Option α :=
  match t with
  | [] => none
  | (k', v) :: rest => if k' = k then some v else Table.get rest k

/-- The table with the entry of a key set, at its place in key order. -/
def Table.put {α : Type} (t : Table α) (k : Nat) (v : α) : Table α :=
  match t with
  | [] => [(k, v)]
  | (k', v') :: rest =>
    if k < k' then (k, v) :: (k', v') :: rest
    else if k = k' then (k, v) :: rest
    else (k', v') :: Table.put rest k v

/-- The table without the entry of a key. -/
def Table.del {α : Type} (t : Table α) (k : Nat) : Table α :=
  match t with
  | [] => []
  | (k', v') :: rest => if k' = k then Table.del rest k else (k', v') :: Table.del rest k

/-- Keys strictly rising. -/
def Table.sorted {α : Type} (t : Table α) : Bool :=
  match t with
  | [] => true
  | (k, _) :: rest =>
    (match rest with
     | [] => true
     | (k', _) :: _ => decide (k < k')) && Table.sorted rest

/-- Every value changed by the same function. -/
def Table.mapValues {α : Type} (t : Table α) (f : α → α) : Table α := t.map fun e => (e.1, f e.2)

/-- A set of small numbers kept in rising order without duplicates, with one added. -/
def insertSorted (l : List Nat) (n : Nat) : List Nat :=
  match l with
  | [] => [n]
  | m :: rest => if n < m then n :: m :: rest else if n = m then m :: rest else m :: insertSorted rest n

end Sys2Proof.Machine
end

