-- ==== Sys2Proof/Machine/State.lean ====
section
/-! DEFINITION. The state of the part: every piece of state the manual gives its ten blocks (Table 0-2), the pins and
the supply, and the queue of waiting commands. All of it is plain data. -/

namespace Sys2Proof.Machine

/-! ### Host port (chapter 11) -/

/-- Main power and the RESET pin (R144, R197): without main power with the pin high (`off`) or low (`offLow`), held by
the pin (`resetLow`), or working (`on`). -/
inductive Power where
  | off
  | offLow
  | resetLow
  | on
  deriving DecidableEq, Repr, Inhabited

/-- Station run states, in the order of Table 11-5. -/
inductive RunState where
  | storePrep
  | config
  | joining
  | running
  deriving DecidableEq, Repr, Inhabited

/-- Result codes in the number order of Table 11-3 (OK is 0, DROPPED is 32). -/
inductive ResultCode where
  | ok | accepted | busy | wrongState | param | notZeroed | over | underMin
  | motion | sampleLost | priceRange | labelFull | linesFull | locked | dayBehind | dayClosing
  | dayClosed | linkFull | linkSilent | clerkBusy | noOrder | empty | noWaiting | waitingFull
  | notIssuer | notHeld | tarePresent | zeroRange | linesAbsent | openOrders | ticketConflict | aborted | dropped
  deriving DecidableEq, Repr, Inhabited

/-- One data field of a response (R187): a number of a given width in bytes, or an optional field, which a presence
byte precedes and which may have several parts. -/
inductive Field where
  | num (width : Nat) (value : Int)
  | opt (present : Bool) (parts : List (Nat × Int))
  deriving DecidableEq, Repr, Inhabited

/-- A response block with status READY (Table 11-1). -/
structure Response where
  result : ResultCode
  data   : List Field
  deriving DecidableEq, Repr, Inhabited

/-- The response slot (section 11.1). PENDING is `taken` while the owner has not begun and `awaiting` while the
request waits for its read of the totals store. -/
inductive Slot where
  | empty
  | taken (block : RequestBlock)
  | awaiting
  | ready (r : Response)
  deriving DecidableEq, Repr, Inhabited

/-- One entry of the recent-request ring: the code and the first four parameter bytes (R188). -/
structure RingEntry where
  code   : Byte
  params : List Byte
  deriving DecidableEq, Repr, Inhabited

/-- VIEW_MISMATCH kinds in the number order of Table 11-4 (ISSUE_DUPLICATE is 1, PASS_BOUND is 17). -/
inductive MismatchKind where
  | issueDuplicate | issueBound | listFull | callAbsent | passDuplicate | mode
  | callBusy | passBusy | ticketDiffers | orderUnknown | lineConflict | voidRepeat | voidAbsent | totalFigures
  | censusShort | deferredFull | passBound
  deriving DecidableEq, Repr, Inhabited

/-- Reasons of LATE_ITEM in number order (Table 11-4, R108). -/
inductive LateReason where
  | closed
  | linesFull
  | linkFull
  | dropped
  deriving DecidableEq, Repr, Inhabited

/-- Kinds of a store find, numbered as STORE_ERROR numbers them (Table 11-4). -/
inductive FindKind where
  | read
  | update
  | copy
  | scrub
  | walk
  deriving DecidableEq, Repr, Inhabited

/-- The six attributes of Table 10-1. -/
inductive Attribute where
  | zeroUse
  | overloads
  | motionTimeouts
  | storeErrors
  | linkRetries
  | viewMismatch
  deriving DecidableEq, Repr, Inhabited

/-- The events of Table 11-4. -/
inductive Event where
  | captureDone (tag : Nat) (result : ResultCode) (serial : Nat)
  | requestDone (tag : Nat) (result : ResultCode) (ticket : Option Nat)
  | nowServing (ticket clerk station : Nat)
  | ticketIssued (ticket station : Nat)
  | watchNote (slot serial : Nat)
  | itemHeld (tag : Nat) (slots : List Nat)
  | holdExpired
  | lateItem (serial clerk : Nat) (reason : LateReason)
  | orderExpired (clerk : Nat)
  | dayClosed (day : Nat) (late : Bool)
  | counterComplete (day : Nat)
  | dayBehind (day : Nat)
  | stationClash
  | linkDrop (cls : Nat)
  | storeError (address : Nat) (kind : FindKind)
  | attributeLow (attr : Attribute) (normalized : Nat)
  | samplesLost
  | samplesRestored
  | viewMismatch (kind : MismatchKind) (clerk ticket : Option Nat)
  deriving DecidableEq, Repr, Inhabited

/-- An event record: the event and the time of day at its queuing (Table 11-4). -/
structure EventRecord where
  event : Event
  time  : Nat
  deriving DecidableEq, Repr, Inhabited

/-- HPT: the host port (R186 to R191, Table 11-8). -/
structure HostPort where
  runState   : RunState
  straps     : Straps
  configured : Bool
  slot       : Slot
  /-- The bytes last driven on MISO, one for each byte the host clocked. -/
  miso       : List Byte
  nextTag    : Nat
  /-- Oldest first, at most three. -/
  ring       : List RingEntry
  /-- Oldest first, at most 32. -/
  events     : List EventRecord
  overflow   : Nat
  timeOfDay  : Nat
  /-- Units of 250 µs left to the next advance of the time of day (R190; assumption 3). -/
  second     : Nat
  deriving DecidableEq, Repr, Inhabited

/-! ### Weighing channel (chapter 1) -/

/-- Weighing states in the order of Table 1-10. -/
inductive WeighState where
  | filling
  | sampleLost
  | zeroWait
  | over
  | under
  | live
  deriving DecidableEq, Repr, Inhabited

/-- WCH: the weighing channel (Table 1-11). Counts and fine units are integers. -/
structure Weighing where
  rate           : Nat
  filterLength   : Nat
  windowLength   : Nat
  tracking       : Bool
  zcal           : Int
  span           : Nat
  /-- The tracking clamp Cz (R17). -/
  clamp          : Int
  /-- Converter counts, oldest first (R3). -/
  filter         : List Int
  /-- Gross values, oldest first (R4). -/
  window         : List Int
  gross          : Option Int
  state          : WeighState
  zadj           : Int
  zref           : Int
  zeroTaken      : Bool
  /-- The station tare in fine units. -/
  tare           : Option Nat
  trackCount     : Nat
  /-- Time left on the sample watchdog; absent when it is stopped (R12). -/
  watchdog       : Option Nat
  restorePending : Bool
  deriving DecidableEq, Repr, Inhabited

/-! ### Capture unit (chapters 2 and 6) -/

/-- Last stable judgement (Table 2-1). -/
inductive StableJudgement where
  | none
  | belowMin
  | aboveMax
  deriving DecidableEq, Repr, Inhabited

/-- Source of the tare used (Table 2-2). -/
inductive TareSource where
  | plu
  | station
  | none
  deriving DecidableEq, Repr, Inhabited

/-- The figures of an item that depend on its kind (Table 2-2). -/
inductive Measure where
  | weight (gross : Int) (tare : Option Nat) (source : TareSource) (net : Int) (display : Int) (division : Nat)
  | count (quantity : Nat)
  deriving DecidableEq, Repr, Inhabited

/-- The fields of an accepted capture request (Table 2-1). -/
structure CaptureRequest where
  tag       : Nat
  clerk     : Nat
  plu       : Nat
  dept      : Nat
  unitPrice : Nat
  pluTare   : Option Nat
  deriving DecidableEq, Repr, Inhabited

/-- A completed item: the request and the captured figures (Table 2-2). -/
structure Item where
  request       : CaptureRequest
  measure       : Measure
  basePrice     : Nat
  price         : Nat
  openAtCapture : Bool
  ticket        : Option Nat
  deriving DecidableEq, Repr, Inhabited

/-- Action of a watch (R116). -/
inductive WatchAction where
  | note
  | hold
  deriving DecidableEq, Repr, Inhabited

/-- Watch kinds in the order of Table 6-1. -/
inductive WatchKind where
  | pluEqual
  | deptEqual
  | clerkEqual
  | priceAtLeast
  | weightAtLeast
  deriving DecidableEq, Repr, Inhabited

/-- The contents of a PROGRAMMED slot (R116). -/
structure Watch where
  kind   : WatchKind
  value  : Nat
  action : WatchAction
  enable : Bool
  deriving DecidableEq, Repr, Inhabited

/-- A watch slot: EMPTY when `watch` is absent; it holds its match status either way (R116). -/
structure WatchSlot where
  watch   : Option Watch
  matched : Bool
  serial  : Nat
  deriving DecidableEq, Repr, Inhabited

/-- The four watch slots. -/
structure WatchSlots where
  s0 : WatchSlot
  s1 : WatchSlot
  s2 : WatchSlot
  s3 : WatchSlot
  deriving DecidableEq, Repr, Inhabited

/-- A member of a matching set: the slot with the action and enable flag it held at completion (R118). -/
structure Match where
  slot   : Nat
  action : WatchAction
  enable : Bool
  deriving DecidableEq, Repr, Inhabited

/-- The capture state with its context (R25, R122). Timers hold the time left. -/
inductive Capture where
  | idle
  | waiting (request : CaptureRequest) (judgement : StableJudgement) (timer : Nat)
  | held (item : Item) (matching : List Match) (timer : Nat)
  deriving DecidableEq, Repr, Inhabited

/-- CAP: the capture unit. -/
structure CaptureUnit where
  capture  : Capture
  slots    : WatchSlots
  /-- Capture timeout in seconds; 0 before CONFIGURE. -/
  timeout  : Nat
  /-- Rounding unit r; 0 before CONFIGURE. -/
  rounding : Nat
  deriving DecidableEq, Repr, Inhabited

/-! ### Label unit (chapter 7) -/

/-- A line summary of a TOTAL listing (R133). -/
structure LineSummary where
  line    : Nat
  station : Nat
  plu     : Nat
  price   : Nat
  voided  : Bool
  deriving DecidableEq, Repr, Inhabited

/-- The fields of a label record's kind (Table 7-1). A listing of `none` is PARTIAL. -/
inductive LabelBody where
  | item (item : Item)
  | total (ticket : Option Nat) (items amount : Nat) (listing : Option (List LineSummary))
  | void (line price : Nat)
  deriving DecidableEq, Repr, Inhabited

/-- A label record (R133); `slot` is the journal slot written for it, which the host does not see (R129). -/
structure LabelRecord where
  serial  : Nat
  station : Nat
  day     : Nat
  time    : Nat
  clerk   : Nat
  body    : LabelBody
  slot    : Nat
  deriving DecidableEq, Repr, Inhabited

/-- LBL: the label unit (Table 7-3). -/
structure LabelUnit where
  records      : List LabelRecord
  reservations : Nat
  nextSerial   : Nat
  newest       : Nat
  deriving DecidableEq, Repr, Inhabited

/-! ### Link controller (chapter 3) -/

/-- Link states in the order of R64. -/
inductive LinkState where
  | off
  | joining
  | live
  | silent
  deriving DecidableEq, Repr, Inhabited

/-- The four station figures a DAYSUM carries (R172). -/
structure DayFigures where
  itemAmount : Nat
  itemCount  : Nat
  customers  : Nat
  voidAmount : Nat
  deriving DecidableEq, Repr, Inhabited

/-- The fixed fields of a posted item's ITEM frame (R43). -/
structure ItemFrame where
  clerk         : Nat
  plu           : Nat
  dept          : Nat
  byCount       : Bool
  price         : Nat
  measure       : Nat
  serial        : Nat
  openAtCapture : Bool
  deriving DecidableEq, Repr, Inhabited

/-- A frame of the transmit queue: its fixed fields, and the tag of the request that placed it (R49). A DAYSUM bears the
number of its own read, 0 without one (assumption 50), and holds its figures once that read has ended (R172). -/
inductive TxFrame where
  | dayClose (tag day : Nat) (forced : Bool)
  | call (tag clerk : Nat)
  | issue (tag : Nat)
  | pass (tag clerk : Nat)
  | txClose (tag clerk : Nat)
  | cancelHost (tag clerk : Nat)
  | cancelExpiry (clerk : Nat)
  | voidLine (tag clerk line : Nat)
  | item (f : ItemFrame)
  | daysum (day read : Nat) (figures : Option DayFigures)
  | daysumAsk (tag day : Nat)
  | censusAsk
  | censusReply
  | censusTx (clerk : Nat)
  | beacon
  deriving DecidableEq, Repr, Inhabited

/-- The station-frame backlog (R50). -/
structure Backlog where
  replyDue : Bool
  /-- Clerks due for CENSUS_TX, rising. -/
  clerks   : List Nat
  /-- Days due for DAYSUM, in the order they were made due. -/
  days     : List Nat
  deriving DecidableEq, Repr, Inhabited

/-- A roster entry of another station (R60); its age is in time units. -/
structure RosterEntry where
  day     : Option Nat
  lockout : Option Bool
  age     : Nat
  deriving DecidableEq, Repr, Inhabited

/-- What the station drives on the link through LTX and LEN: nothing, the frame it is sending, or an objection
(R58). -/
inductive LinkDrive where
  | recessive
  | sending
  | objectionSlot
  | objectionTruncated
  deriving DecidableEq, Repr, Inhabited

/-- LNK: the link controller (Table 3-9). -/
structure Link where
  state        : LinkState
  queue        : List TxFrame
  /-- The head frame as formed, while its attempt is under way (R51). -/
  attempt      : Option Frame
  attemptCount : Nat
  /-- An idle line found a DAYSUM at the head whose read has not ended (R172). It stands until the end of another frame:
  so long the line is taken as idle (assumption 53). -/
  formWaiting  : Bool
  backlog      : Backlog
  /-- The entries of other stations, by station number; the own entry is formed when read (R60). -/
  roster       : Table RosterEntry
  clash        : Nat
  censusTimer  : Option Nat
  beaconTimer  : Option Nat
  drive        : LinkDrive
  deriving DecidableEq, Repr, Inhabited

/-! ### Ticket unit (chapter 4) -/

/-- Ticket mode and wrap (R70). -/
structure TicketConfig where
  untracked : Bool
  wrap      : Nat
  deriving DecidableEq, Repr, Inhabited

/-- An entry of the waiting list (R73). -/
structure WaitEntry where
  ticket  : Nat
  time    : Option Nat
  station : Option Nat
  passes  : Nat
  deriving DecidableEq, Repr, Inhabited

/-- The now-serving record (Table 4-2). -/
structure NowServing where
  ticket  : Nat
  clerk   : Nat
  station : Nat
  deriving DecidableEq, Repr, Inhabited

/-- A pass record (R74). -/
structure PassRecord where
  ticket : Nat
  passes : Nat
  deriving DecidableEq, Repr, Inhabited

/-- TKT: the ticket unit (Tables 4-2 and 4-8). -/
structure TicketUnit where
  config     : Option TicketConfig
  issued     : Nat
  called     : Nat
  nowServing : Option NowServing
  /-- Oldest first, at most 48. -/
  waiting    : List WaitEntry
  /-- Pass records by clerk; a clerk without an entry has none. -/
  passes     : Table PassRecord
  conflict   : Bool
  deriving DecidableEq, Repr, Inhabited

/-! ### Clerk table (chapter 5) -/

/-- A line of an order (Table 5-2); `measure` is the weight in grams or the quantity, by `byCount`. -/
structure Line where
  number  : Nat
  station : Nat
  serial  : Nat
  plu     : Nat
  dept    : Nat
  byCount : Bool
  measure : Nat
  price   : Nat
  voided  : Bool
  deriving DecidableEq, Repr, Inhabited

/-- An OPEN order (Table 5-1). The stub flag is set exactly when the line list is absent. -/
structure Order where
  ticket       : Option Nat
  opened       : Option Nat
  holder       : Nat
  lineCount    : Nat
  itemCount    : Nat
  amount       : Nat
  lines        : Option (List Line)
  lastActivity : Nat
  /-- Time left on the expiry timer; absent when it is stopped. -/
  timer        : Option Nat
  expiryMark   : Bool
  deriving DecidableEq, Repr, Inhabited

/-- CLT: the clerk table (Table 5-7). -/
structure ClerkTable where
  /-- OPEN orders by clerk; a clerk without an entry is FREE. -/
  orders        : Table Order
  /-- Expiry minutes; 0 before CONFIGURE. -/
  expiryMinutes : Nat
  /-- The largest open order count of the CENSUS_REPLY frames applied in the census window (R110). -/
  censusOpen    : Nat
  deriving DecidableEq, Repr, Inhabited

/-! ### Day unit (chapter 9) -/

/-- The close held by the latch (R165); the day to close is the business day. -/
structure LatchedClose where
  newDay : Nat
  late   : Bool
  forced : Bool
  deriving DecidableEq, Repr, Inhabited

/-- DAY: the day unit (Table 9-3). -/
structure DayUnit where
  day           : Nat
  highest       : Nat
  behind        : Bool
  latch         : Option LatchedClose
  deferred      : List Frame
  copiesPending : Nat
  newestSlot    : Nat
  /-- The business days held in the record slots, by slot number. -/
  held          : Table Nat
  deriving DecidableEq, Repr, Inhabited

/-! ### Totals store (chapter 8) -/

/-- A word of the store: the data last written to it, and which of its 39 bits (32 data bits, then 7 check bits) now
differ from what was written (R141). -/
structure StoreWord where
  written : Word
  flips   : BitVec 39
  deriving DecidableEq, Repr, Inhabited

/-- The 2048 words of the store, by address: those that are not a sound zero. -/
abbrev Memory := Table StoreWord

/-- The error latch (R148). -/
inductive ErrorLatch where
  | empty
  | corrected (address : Nat)
  | uncorrectable (address : Nat)
  deriving DecidableEq, Repr, Inhabited

/-- The two walks of store preparation (R153). -/
inductive WalkKind where
  | verify
  | fresh
  deriving DecidableEq, Repr, Inhabited

/-- A walk under way: the words done, the counts and the first uncorrectable address (R154). -/
structure Walk where
  kind          : WalkKind
  done          : Nat
  corrected     : Nat
  uncorrectable : Nat
  firstBad      : Option Nat
  deriving DecidableEq, Repr, Inhabited

/-- The walk result kept for READ_TOTALS (R155, R156). -/
structure WalkResult where
  kind          : WalkKind
  corrected     : Nat
  uncorrectable : Nat
  deriving DecidableEq, Repr, Inhabited

/-- Groups of READ_TOTALS, in the order R157 lists them. -/
inductive TotalsGroup where
  | departments
  | clerks
  | station
  | store
  deriving DecidableEq, Repr, Inhabited

/-- What a read operation is for: the request it answers, or the DAYSUM it fills, by the number of the read. -/
inductive ReadPurpose where
  | journal (newest slot : Nat)
  | totals (group : TotalsGroup)
  | dayRecord (slot : Nat)
  | fault (count newest slot : Nat)
  | daysum (read : Nat)
  deriving DecidableEq, Repr, Inhabited

/-- What a close copy carries (R147). -/
structure CopyOrder where
  slot     : Nat
  day      : Nat
  time     : Nat
  late     : Bool
  forced   : Bool
  snapshot : BitVec 16
  deriving DecidableEq, Repr, Inhabited

/-- An operation of the operation list (Table 8-4). An update names addresses and the addition to each. -/
inductive Op where
  | read (addresses : List Nat) (purpose : ReadPurpose)
  | update (additions : List (Nat × Nat))
  | itemPosting (dept price : Nat) (weight : Option Nat)
  | journalAppend (slot : Nat) (entry : List Word) (labelWord : Word)
  | takenFlag (slot serial day : Nat)
  | counterUpdate (slot day station : Nat) (figures : DayFigures)
  | recordWrite (words : List (Nat × Word))
  | closeCopy (order : CopyOrder)
  deriving DecidableEq, Repr, Inhabited

/-- TST: the totals store (Table 8-8). -/
structure Store where
  mem          : Memory
  ops          : List Op
  latch        : ErrorLatch
  scrubPointer : Nat
  scrubPending : Nat
  /-- An operation or a scrub step was performed since the last scrub request (R151). -/
  activity     : Bool
  walk         : Option Walk
  walkResult   : WalkResult
  deriving DecidableEq, Repr, Inhabited

/-! ### Health monitor (chapter 10) -/

/-- The working copy of an attribute record (R176); its class is fixed by the attribute. -/
structure AttributeRecord where
  raw        : Nat
  normalized : Nat
  worst      : Nat
  threshold  : Option Nat
  low        : Bool
  deriving DecidableEq, Repr, Inhabited

/-- The six attribute records. -/
structure Attributes where
  zeroUse        : AttributeRecord
  overloads      : AttributeRecord
  motionTimeouts : AttributeRecord
  storeErrors    : AttributeRecord
  linkRetries    : AttributeRecord
  viewMismatch   : AttributeRecord
  deriving DecidableEq, Repr, Inhabited

/-- Fault kinds in the order of Table 10-4; a stored kind is its place counted from 1. -/
inductive FaultKind where
  | samplesLost
  | store
  | linkDrop
  | stationClash
  | dayBehind
  | lateItem
  | eventOverflow
  deriving DecidableEq, Repr, Inhabited

/-- HLM: the health monitor (Table 10-7). -/
structure Health where
  attributes  : Attributes
  newestFault : Nat
  faultCount  : Nat
  deriving DecidableEq, Repr, Inhabited

/-! ### The part -/

/-- The state of the part. `pending` is the queue of commands that wait, first in, first out. -/
structure State where
  pending : List Instr
  power   : Power
  hpt     : HostPort
  wch     : Weighing
  cap     : CaptureUnit
  lbl     : LabelUnit
  lnk     : Link
  tkt     : TicketUnit
  clt     : ClerkTable
  day     : DayUnit
  tst     : Store
  hlm     : Health
  deriving DecidableEq, Repr, Inhabited

/-- No command of the part stops the machine: the manual gives every command an effect, or the plain absence of one,
in every state. The one constructor is raised by nothing and stands so that the type is inhabited; safe. -/
inductive Fault where
  /-- Raised by no command of this model. Safe. -/
  | none
  deriving DecidableEq, Repr, Inhabited

/-- Why a command has no meaning. -/
inductive Refusal where
  /-- Raised by `exec` for a command that has no meaning yet; no arm uses it in this model. Safe. -/
  | notModelled (mnemonic : String)
  deriving DecidableEq, Repr, Inhabited

/-! ### Reset values -/

/-- HPT after power-on or hard reset (Table 11-8). -/
def HostPort.atReset (straps : Straps) : HostPort :=
  { runState := .storePrep, straps := straps, configured := false, slot := .empty, miso := [], nextTag := 1,
    ring := [], events := [], overflow := 0, timeOfDay := 0, second := unitsPerSecond }

/-- WCH after power-on or hard reset (Table 1-11). -/
def Weighing.atReset : Weighing :=
  { rate := 0, filterLength := 0, windowLength := 0, tracking := false, zcal := 0, span := 0, clamp := 0,
    filter := [], window := [], gross := none, state := .filling, zadj := 0, zref := 0, zeroTaken := false,
    tare := none, trackCount := 0, watchdog := none, restorePending := false }

/-- An EMPTY slot with its match flag clear (R116). -/
def WatchSlot.atReset : WatchSlot := { watch := none, matched := false, serial := 0 }

/-- CAP after power-on or hard reset (R26, R116, R127). -/
def CaptureUnit.atReset : CaptureUnit :=
  { capture := .idle, slots := ⟨.atReset, .atReset, .atReset, .atReset⟩, timeout := 0, rounding := 0 }

/-- LBL before store preparation ends; the label word of an initialized store gives the same values (R139). -/
def LabelUnit.atReset : LabelUnit := { records := [], reservations := 0, nextSerial := 1, newest := 0 }

/-- LNK after power-on or hard reset (Table 3-9). -/
def Link.atReset : Link :=
  { state := .off, queue := [], attempt := none, attemptCount := 0, formWaiting := false,
    backlog := { replyDue := false, clerks := [], days := [] }, roster := [], clash := 0, censusTimer := none,
    beaconTimer := none, drive := .recessive }

/-- TKT after power-on or hard reset (Table 4-8). -/
def TicketUnit.atReset : TicketUnit :=
  { config := none, issued := 0, called := 0, nowServing := none, waiting := [], passes := [], conflict := false }

/-- CLT after power-on or hard reset (Table 5-7). -/
def ClerkTable.atReset : ClerkTable := { orders := [], expiryMinutes := 0, censusOpen := 0 }

/-- DAY before store preparation ends; an initialized store loads the same values (R160). -/
def DayUnit.atReset : DayUnit :=
  { day := 1, highest := 1, behind := false, latch := none, deferred := [], copiesPending := 0, newestSlot := 0,
    held := [] }

/-- An attribute record before store preparation ends; an initialized store loads the same values (R180). -/
def AttributeRecord.atReset : AttributeRecord :=
  { raw := 0, normalized := 100, worst := 100, threshold := none, low := false }

/-- HLM before store preparation ends (Table 10-7). -/
def Health.atReset : Health :=
  { attributes := ⟨.atReset, .atReset, .atReset, .atReset, .atReset, .atReset⟩, newestFault := 0, faultCount := 0 }

/-- The walk result before a walk has ended: that of an initialization walk (assumption 24). -/
def WalkResult.atReset : WalkResult := { kind := .fresh, corrected := 0, uncorrectable := 0 }

/-- TST as a reset leaves it: its words, no operation listed, the latch empty and a walk begun (Table 8-8). -/
def Store.atReset (mem : Memory) (walk : Option Walk) : Store :=
  { mem := mem, ops := [], latch := .empty, scrubPointer := 0, scrubPending := 0, activity := false, walk := walk,
    walkResult := .atReset }

/-- The part after power-on or hard reset: every volatile block at its reset value, the words of the store as given. -/
def State.fresh (power : Power) (straps : Straps) (mem : Memory) (walk : Option Walk) (pending : List Instr) : State :=
  { pending := pending, power := power, hpt := .atReset straps, wch := .atReset, cap := .atReset, lbl := .atReset,
    lnk := .atReset, tkt := .atReset, clt := .atReset, day := .atReset, tst := .atReset mem walk, hlm := .atReset }

/-- A walk that has done no word yet. -/
def Walk.begun (kind : WalkKind) : Walk :=
  { kind := kind, done := 0, corrected := 0, uncorrectable := 0, firstBad := none }

/-- The straps that `State.reset` names: station 0, class A, no dispenser (assumption 4). -/
def Straps.zero : Straps := { station := 0, cap := 0, issuer := false }

/-- The store state word with the initialization mark, at address 4 (Table 8-2). -/
def markedStateWord : Nat × StoreWord := (4, { written := 1, flips := 0 })

/-- The part right after power-on reset with RETAIN_OK negated: store preparation has begun and the initialization
walk runs, the initialization mark already written (R153, R156). -/
def State.reset : State :=
  State.fresh .on Straps.zero [markedStateWord] (some (Walk.begun .fresh)) []

end Sys2Proof.Machine
end

