-- ==== Sys2Proof/Machine/Operands.lean ====
section
/-! DEFINITION. The forms of operands: request blocks and the numbers that name values in them (R186, R187, Tables 11-2
to 11-4), the data fields of responses, event records, and the frame layouts of chapter 3 with their check word and
ranges (R47, R48). -/

namespace Sys2Proof.Machine

/-! ### Bytes and bits -/

/-- The bytes of a 16-bit field, most significant first (R48, R187). -/
def bytes16 (v : BitVec 16) : List Byte := [v.extractLsb' 8 8, v.extractLsb' 0 8]
/-- The bytes of a 24-bit field, most significant first. -/
def bytes24 (v : BitVec 24) : List Byte := [v.extractLsb' 16 8, v.extractLsb' 8 8, v.extractLsb' 0 8]
/-- The bytes of a 32-bit field, most significant first. -/
def bytes32 (v : BitVec 32) : List Byte :=
  [v.extractLsb' 24 8, v.extractLsb' 16 8, v.extractLsb' 8 8, v.extractLsb' 0 8]

/-- One bit as a byte's lowest bit. -/
def flagByte (b : Bool) : Byte := if b then 1 else 0

/-- A number in a field of `w` bits; one too large is sent as the largest value that the field holds (R48). -/
def saturated (w n : Nat) : BitVec w := BitVec.ofNat w (min n (2 ^ w - 1))

/-! ### Request blocks -/

/-- The parameter bytes that the request of a code takes, by R187; no entry for a code that is not one of
Table 11-2. -/
def requestLength (code : Nat) : Option Nat :=
  match code with
  | 1 => some 22   -- CONFIGURE
  | 2 => some 0    -- START
  | 3 => some 0    -- RESTART
  | 4 => some 3    -- SET_TIME
  | 5 => some 0    -- READ_STATUS
  | 6 => some 0    -- TAKE_EVENT
  | 7 => some 0    -- ZERO
  | 8 => some 0    -- TARE_WEIGH
  | 9 => some 2    -- TARE_SET
  | 10 => some 0   -- TARE_CLEAR
  | 11 => some 0   -- READ_WEIGHT
  | 12 => some 11  -- WEIGH_ITEM
  | 13 => some 9   -- COUNT_ITEM
  | 14 => some 0   -- ABORT_CAPTURE
  | 15 => some 0   -- RELEASE_HELD
  | 16 => some 0   -- DISCARD_HELD
  | 17 => some 8   -- SET_WATCH
  | 18 => some 1   -- CLEAR_WATCH_STATUS
  | 19 => some 0   -- READ_WATCHES
  | 20 => some 0   -- TAKE_LABEL
  | 21 => some 1   -- READ_JOURNAL
  | 22 => some 0   -- ISSUE_TICKET
  | 23 => some 1   -- CALL_NEXT
  | 24 => some 1   -- PASS_TICKET
  | 25 => some 0   -- READ_TICKETS
  | 26 => some 1   -- TOTAL_ORDER
  | 27 => some 1   -- CANCEL_ORDER
  | 28 => some 2   -- VOID_LINE
  | 29 => some 1   -- READ_ORDER
  | 30 => some 1   -- CLOSE_DAY
  | 31 => some 0   -- JOIN_DAY
  | 32 => some 2   -- ASK_DAYSUM
  | 33 => some 1   -- READ_DAY_RECORD
  | 34 => some 1   -- READ_TOTALS
  | 35 => some 0   -- READ_HEALTH
  | 36 => some 1   -- READ_FAULTS
  | 37 => some 0   -- CLEAR_STORE_LATCH
  | 38 => some 0   -- READ_ROSTER
  | _ => none

/-- The code of READ_STATUS (Table 11-2). -/
def readStatusCode : Byte := 5

/-- The parameter bytes of CONFIGURE, laid out as Table 11-6. -/
def configBytes (c : ConfigBlock) : List Byte :=
  [c.rate, c.filterLength, c.window, c.timeout, c.tracking] ++ bytes24 c.zcal ++ bytes24 c.span
    ++ [c.rounding, c.ticketMode] ++ bytes16 c.wrap
    ++ [c.expiry, c.lowZeroUse, c.lowOverloads, c.lowMotion, c.lowStore, c.lowRetries, c.lowMismatch]

/-- The request block of a command that is a host request (Table 11-2, R187). -/
def requestBlock (i : Instr) : Option RequestBlock :=
  match i with
  | .configure c => some ⟨1, configBytes c⟩
  | .start => some ⟨2, []⟩
  | .restart => some ⟨3, []⟩
  | .setTime t => some ⟨4, bytes24 t⟩
  | .readStatus => some ⟨5, []⟩
  | .takeEvent => some ⟨6, []⟩
  | .zero => some ⟨7, []⟩
  | .tareWeigh => some ⟨8, []⟩
  | .tareSet g => some ⟨9, bytes16 g⟩
  | .tareClear => some ⟨10, []⟩
  | .readWeight => some ⟨11, []⟩
  | .weighItem c p d u g t => some ⟨12, [c] ++ bytes24 p ++ [d] ++ bytes24 u ++ [g] ++ bytes16 t⟩
  | .countItem c p d u q => some ⟨13, [c] ++ bytes24 p ++ [d] ++ bytes24 u ++ [q]⟩
  | .abortCapture => some ⟨14, []⟩
  | .releaseHeld => some ⟨15, []⟩
  | .discardHeld => some ⟨16, []⟩
  | .setWatch s f k v a e => some ⟨17, [s, f, k] ++ bytes24 v ++ [a, e]⟩
  | .clearWatchStatus s => some ⟨18, [s]⟩
  | .readWatches => some ⟨19, []⟩
  | .takeLabel => some ⟨20, []⟩
  | .readJournal n => some ⟨21, [n]⟩
  | .issueTicket => some ⟨22, []⟩
  | .callNext c => some ⟨23, [c]⟩
  | .passTicket c => some ⟨24, [c]⟩
  | .readTickets => some ⟨25, []⟩
  | .totalOrder c => some ⟨26, [c]⟩
  | .cancelOrder c => some ⟨27, [c]⟩
  | .voidLine c l => some ⟨28, [c, l]⟩
  | .readOrder c => some ⟨29, [c]⟩
  | .closeDay f => some ⟨30, [f]⟩
  | .joinDay => some ⟨31, []⟩
  | .askDaysum d => some ⟨32, bytes16 d⟩
  | .readDayRecord n => some ⟨33, [n]⟩
  | .readTotals g => some ⟨34, [g]⟩
  | .readHealth => some ⟨35, []⟩
  | .readFaults n => some ⟨36, [n]⟩
  | .clearStoreLatch => some ⟨37, []⟩
  | .readRoster => some ⟨38, []⟩
  | .powerOn _ _ | .mainPowerFail | .resetAssert | .resetRelease _ | .verificationWalkEnd | .initializationWalkEnd
  | .selectionEnd _ | .sampleArrival _ _ | .sampleWatchdogExpiry | .captureTimerExpiry | .holdTimerExpiry
  | .beaconTimerExpiry | .censusTimerExpiry | .rosterAgeExpiry _ | .orderExpiry _ | .timeOfDayTick | .scrubRequest
  | .storeRead | .storeUpdate | .itemPosting | .journalAppend | .takenFlagUpdate | .counterUpdate | .recordWrite
  | .closeCopy | .linkAttemptStart | .arbitrationLost | .attemptBitError | .attemptObjected | .frameDamaged _
  | .dayCloseAccepted _ _ | .callAccepted _ _ | .issueAccepted _ _ | .passAccepted _ _ | .txCloseAccepted _ _
  | .txCancelAccepted _ _ | .voidAccepted _ _ | .itemAccepted _ _ | .daysumAccepted _ _ | .daysumAskAccepted _ _
  | .censusAskAccepted _ | .censusReplyAccepted _ _ | .censusTxAccepted _ _ | .beaconAccepted _ _ | .closeStart
  | .vretDisturbance _ _ => none

/-- The bytes of a request block as the host shifts them in (Table 11-1). -/
def blockBytes (b : RequestBlock) : List Byte :=
  b.code :: BitVec.ofNat 8 b.params.length :: b.params

/-! ### Numbers of named values -/

/-- Result code numbers (Table 11-3). -/
def ResultCode.number (r : ResultCode) : Nat :=
  match r with
  | .ok => 0 | .accepted => 1 | .busy => 2 | .wrongState => 3 | .param => 4 | .notZeroed => 5 | .over => 6
  | .underMin => 7 | .motion => 8 | .sampleLost => 9 | .priceRange => 10 | .labelFull => 11 | .linesFull => 12
  | .locked => 13 | .dayBehind => 14 | .dayClosing => 15 | .dayClosed => 16 | .linkFull => 17 | .linkSilent => 18
  | .clerkBusy => 19 | .noOrder => 20 | .empty => 21 | .noWaiting => 22 | .waitingFull => 23 | .notIssuer => 24
  | .notHeld => 25 | .tarePresent => 26 | .zeroRange => 27 | .linesAbsent => 28 | .openOrders => 29
  | .ticketConflict => 30 | .aborted => 31 | .dropped => 32

/-- Run state numbers (Table 11-5). -/
def RunState.number (r : RunState) : Nat :=
  match r with
  | .storePrep => 0 | .config => 1 | .joining => 2 | .running => 3

/-- Weighing state numbers (Table 1-10). -/
def WeighState.number (w : WeighState) : Nat :=
  match w with
  | .filling => 0 | .sampleLost => 1 | .zeroWait => 2 | .over => 3 | .under => 4 | .live => 5

/-- Capture state numbers (R25). -/
def Capture.number (c : Capture) : Nat :=
  match c with
  | .idle => 0 | .waiting .. => 1 | .held .. => 2

/-- Link state numbers (R64). -/
def LinkState.number (l : LinkState) : Nat :=
  match l with
  | .off => 0 | .joining => 1 | .live => 2 | .silent => 3

/-- Capacity class numbers, the strap fault last (Table 0-4). -/
def capNumber (cap : BitVec 2) : Nat := cap.toNat

/-- VIEW_MISMATCH kind numbers (Table 11-4). -/
def MismatchKind.number (k : MismatchKind) : Nat :=
  match k with
  | .issueDuplicate => 1 | .issueBound => 2 | .listFull => 3 | .callAbsent => 4 | .passDuplicate => 5 | .mode => 6
  | .callBusy => 7 | .passBusy => 8 | .ticketDiffers => 9 | .orderUnknown => 10 | .lineConflict => 11
  | .voidRepeat => 12 | .voidAbsent => 13 | .totalFigures => 14 | .censusShort => 15 | .deferredFull => 16
  | .passBound => 17

/-- Late reason numbers (Table 11-4). -/
def LateReason.number (r : LateReason) : Nat :=
  match r with
  | .closed => 0 | .linesFull => 1 | .linkFull => 2 | .dropped => 3

/-- STORE_ERROR kind numbers (Table 11-4). -/
def FindKind.number (k : FindKind) : Nat :=
  match k with
  | .read => 0 | .update => 1 | .copy => 2 | .scrub => 3 | .walk => 4

/-- Attribute numbers (Table 10-1). -/
def Attribute.number (a : Attribute) : Nat :=
  match a with
  | .zeroUse => 1 | .overloads => 2 | .motionTimeouts => 3 | .storeErrors => 4 | .linkRetries => 5 | .viewMismatch => 6

/-- Fault kind numbers: the place in Table 10-4 counted from 1, since 0 is an empty entry (Table 10-5). -/
def FaultKind.number (k : FaultKind) : Nat :=
  match k with
  | .samplesLost => 1 | .store => 2 | .linkDrop => 3 | .stationClash => 4 | .dayBehind => 5 | .lateItem => 6
  | .eventOverflow => 7

/-- Watch kind numbers (Table 6-1). -/
def WatchKind.number (k : WatchKind) : Nat :=
  match k with
  | .pluEqual => 0 | .deptEqual => 1 | .clerkEqual => 2 | .priceAtLeast => 3 | .weightAtLeast => 4

/-- Watch action numbers (R116). -/
def WatchAction.number (a : WatchAction) : Nat :=
  match a with
  | .note => 0 | .hold => 1

/-- Tare source numbers (Table 2-2). -/
def TareSource.number (t : TareSource) : Nat :=
  match t with
  | .plu => 0 | .station => 1 | .none => 2

/-- Walk kind numbers (R195). -/
def WalkKind.number (k : WalkKind) : Nat :=
  match k with
  | .verify => 0 | .fresh => 1

/-- The group of READ_TOTALS that a parameter byte names (R157). -/
def totalsGroup (g : Byte) : Option TotalsGroup :=
  match g.toNat with
  | 0 => some .departments
  | 1 => some .clerks
  | 2 => some .station
  | 3 => some .store
  | _ => none

/-- The watch kind that a parameter byte names (Table 6-1). -/
def watchKind (k : Byte) : Option WatchKind :=
  match k.toNat with
  | 0 => some .pluEqual
  | 1 => some .deptEqual
  | 2 => some .clerkEqual
  | 3 => some .priceAtLeast
  | 4 => some .weightAtLeast
  | _ => none

/-- Whether a watch value lies in the range of its kind (Table 6-1). -/
def WatchKind.valueInRange (k : WatchKind) (v : Nat) : Bool :=
  match k with
  | .pluEqual => decide (1 ≤ v ∧ v ≤ 99999)
  | .deptEqual => decide (1 ≤ v ∧ v ≤ 8)
  | .clerkEqual => decide (v ≤ 24)
  | .priceAtLeast => decide (v ≤ 999999)
  | .weightAtLeast => decide (1 ≤ v ∧ v ≤ 30000)

/-- The contents a SET_WATCH writes: the outer option is absent when a field is out of range (R117), the inner one
when the form is EMPTY. The bytes that follow the form EMPTY are not looked at (assumption 20). -/
def watchOperands (form kind : Byte) (value : BitVec 24) (action enable : Byte) : Option (Option Watch) :=
  if form.toNat = 0 then some none
  else if form.toNat = 1 then
    match watchKind kind with
    | none => none
    | some k =>
      if k.valueInRange value.toNat && decide (action.toNat ≤ 1) && decide (enable.toNat ≤ 1) then
        some (some ⟨k, value.toNat, if action.toNat = 0 then .note else .hold, decide (enable.toNat = 1)⟩)
      else none
  else none

/-- The slots of a set of slots, member k as bit k (R187). -/
def slotsOf (set : Byte) : List Nat := (List.range 4).filter fun k => set.getLsbD k

/-- A set of slots as a byte (R187). -/
def slotSet (slots : List Nat) : Nat := slots.foldl (fun acc k => acc + 2 ^ k) 0

/-! ### Response fields and event records -/

/-- A number in `width` bytes, most significant first, in two's complement (R187). -/
def numberBytes (width : Nat) (value : Int) : List Byte :=
  (List.range width).map fun k => BitVec.ofInt 8 (value / (2 ^ (8 * (width - 1 - k)) : Nat))

/-- The bytes of a data field: an optional field is preceded by its presence byte, and an absent one is sent as bytes
at 0 (R187). -/
def Field.bytes (f : Field) : List Byte :=
  match f with
  | .num w v => numberBytes w v
  | .opt present parts =>
    flagByte present :: parts.flatMap fun p => numberBytes p.1 (if present then p.2 else 0)

/-- The data bytes of a response. -/
def Response.dataBytes (r : Response) : List Byte := r.data.flatMap Field.bytes

/-- A response block with status READY (Table 11-1). -/
def Response.bytes (r : Response) : List Byte :=
  0xA5 :: BitVec.ofNat 8 r.result.number :: (bytes16 (BitVec.ofNat 16 r.dataBytes.length) ++ r.dataBytes)

/-- The block shifted out while a request is pending: status NOT_READY, result OK, length 0 (R186). -/
def notReadyBytes : List Byte := [0x3C, 0, 0, 0]
/-- The block shifted out while the slot is EMPTY: status READY, result OK, length 0 (R186). -/
def emptySlotBytes : List Byte := [0xA5, 0, 0, 0]

/-- The first `n` bytes shifted out of a block; bytes clocked beyond its end read 0 (R186). -/
def shiftedOut (block : List Byte) (n : Nat) : List Byte := (block ++ List.replicate n 0).take n

/-- A field that is a flag. -/
def Field.flag (b : Bool) : Field := .num 1 (if b then 1 else 0)
/-- An optional field of one number. -/
def Field.optional (width : Nat) (v : Option Nat) : Field := .opt v.isSome [(width, (v.getD 0 : Nat))]

/-- The kind byte and the parameter bytes of an event (Table 11-4). -/
def Event.bytes (e : Event) : List Byte :=
  match e with
  | .captureDone tag r serial => 1 :: (numberBytes 1 tag ++ numberBytes 1 r.number ++ numberBytes 3 serial)
  | .requestDone tag r ticket => 2 :: (numberBytes 1 tag ++ numberBytes 1 r.number ++ numberBytes 2 (ticket.getD 0 : Nat))
  | .nowServing t c st => 3 :: (numberBytes 2 t ++ numberBytes 1 c ++ numberBytes 1 st)
  | .ticketIssued t st => 4 :: (numberBytes 2 t ++ numberBytes 1 st)
  | .watchNote k serial => 5 :: (numberBytes 1 k ++ numberBytes 3 serial)
  | .itemHeld tag slots => 6 :: (numberBytes 1 tag ++ numberBytes 1 (slotSet slots))
  | .holdExpired => [7]
  | .lateItem serial c r => 8 :: (numberBytes 3 serial ++ numberBytes 1 c ++ numberBytes 1 r.number)
  | .orderExpired c => 9 :: numberBytes 1 c
  | .dayClosed d late => 10 :: (numberBytes 2 d ++ [flagByte late])
  | .counterComplete d => 11 :: numberBytes 2 d
  | .dayBehind d => 12 :: numberBytes 2 d
  | .stationClash => [13]
  | .linkDrop cls => 14 :: numberBytes 1 cls
  | .storeError a k => 15 :: (numberBytes 2 a ++ numberBytes 1 k.number)
  | .attributeLow a n => 16 :: (numberBytes 1 a.number ++ numberBytes 1 n)
  | .samplesLost => [17]
  | .samplesRestored => [18]
  | .viewMismatch k c t =>
    19 :: (numberBytes 1 k.number ++ numberBytes 1 (c.getD 0 : Nat) ++ numberBytes 2 (t.getD 0 : Nat))

/-- The 12 bytes of an event record (Table 11-4). -/
def EventRecord.bytes (r : EventRecord) : List Byte :=
  let e := r.event.bytes
  (e.take 1 ++ numberBytes 3 r.time ++ e.drop 1 ++ List.replicate 12 0).take 12

/-! ### Frame layouts -/

/-- Class codes (Table 3-2). -/
def payloadClass (p : Payload) : Nat :=
  match p with
  | .dayClose _ => 0 | .call _ => 1 | .issue _ => 2 | .pass _ => 3 | .txClose _ => 4 | .txCancel _ => 5
  | .voidLine _ => 6 | .item _ => 7 | .daysum _ => 8 | .daysumAsk _ => 9 | .censusAsk => 10 | .censusReply _ => 11
  | .censusTx _ => 12 | .beacon _ => 13

/-- Payload length of each defined class (Table 3-2). -/
def classLength (cls : Nat) : Option Nat :=
  match cls with
  | 0 => some 3 | 1 => some 4 | 2 => some 3 | 3 => some 4 | 4 => some 9 | 5 => some 3 | 6 => some 6 | 7 => some 15
  | 8 => some 15 | 9 => some 2 | 10 => some 0 | 11 => some 8 | 12 => some 9 | 13 => some 7
  | _ => none

/-- The arbitration field: class code times 16 plus origin (R47). -/
def arbitrationField (f : Frame) : BitVec 8 := BitVec.ofNat 4 (payloadClass f.payload) ++ f.origin

/-- The payload bytes of a frame (Tables 3-3, 3-4 and 3-10). -/
def payloadBytes (p : Payload) : List Byte :=
  match p with
  | .dayClose q => bytes16 q.day ++ [flagByte q.forced]
  | .call q => [q.tag] ++ bytes16 q.ticket ++ [q.clerk]
  | .issue q => [q.tag] ++ bytes16 q.ticket
  | .pass q => [q.tag] ++ bytes16 q.ticket ++ [q.clerk]
  | .txClose q => [q.tag, q.clerk] ++ bytes16 q.ticket ++ [q.items] ++ bytes32 q.amount
  | .txCancel q => [q.tag, q.clerk, q.reason]
  | .voidLine q => [q.tag, q.clerk, q.line] ++ bytes24 q.price
  | .item q =>
    [q.tag, BitVec.ofBool q.byCount ++ (0 : BitVec 2) ++ q.clerk, q.line] ++ bytes24 q.plu ++ [q.dept]
      ++ bytes24 q.price ++ bytes16 q.measure ++ bytes24 q.serial
  | .daysum q =>
    bytes16 q.day ++ bytes32 q.itemAmount ++ bytes24 q.itemCount ++ bytes16 q.customers ++ bytes32 q.voidAmount
  | .daysumAsk d => bytes16 d
  | .censusAsk => []
  | .censusReply q =>
    bytes16 q.day ++ [(0 : BitVec 6) ++ BitVec.ofBool q.wrap999 ++ BitVec.ofBool q.untracked] ++ bytes16 q.issued
      ++ bytes16 q.called ++ [q.openOrders]
  | .censusTx q => [q.clerk] ++ bytes16 q.ticket ++ [q.items] ++ bytes32 q.amount ++ [(0 : BitVec 4) ++ q.holder]
  | .beacon q =>
    bytes16 q.day
      ++ [(0 : BitVec 5) ++ BitVec.ofBool q.wrap999 ++ BitVec.ofBool q.untracked ++ BitVec.ofBool q.lockedOut]
      ++ bytes16 q.issued ++ bytes16 q.called

/-- The payload that bytes of a class spell; none when their number is not the class's or a bit shown as 0 is 1. -/
def payloadOf (cls : Nat) (bytes : List Byte) : Option Payload :=
  match cls, bytes with
  | 0, [a, b, f] => if f.extractLsb' 1 7 = 0 then some (.dayClose ⟨a ++ b, f.getLsbD 0⟩) else none
  | 1, [t, a, b, c] => some (.call ⟨t, a ++ b, c⟩)
  | 2, [t, a, b] => some (.issue ⟨t, a ++ b⟩)
  | 3, [t, a, b, c] => some (.pass ⟨t, a ++ b, c⟩)
  | 4, [t, c, a, b, n, w, x, y, z] => some (.txClose ⟨t, c, a ++ b, n, w ++ x ++ y ++ z⟩)
  | 5, [t, c, r] => some (.txCancel ⟨t, c, r⟩)
  | 6, [t, c, l, x, y, z] => some (.voidLine ⟨t, c, l, x ++ y ++ z⟩)
  | 7, [t, kc, l, p, q, r, d, x, y, z, a, b, u, v, w] =>
    if kc.extractLsb' 5 2 = 0 then
      some (.item ⟨t, kc.getLsbD 7, kc.extractLsb' 0 5, l, p ++ q ++ r, d, x ++ y ++ z, a ++ b, u ++ v ++ w⟩)
    else none
  | 8, [a, b, m, n, o, p, q, r, s, c, d, w, x, y, z] =>
    some (.daysum ⟨a ++ b, m ++ n ++ o ++ p, q ++ r ++ s, c ++ d, w ++ x ++ y ++ z⟩)
  | 9, [a, b] => some (.daysumAsk (a ++ b))
  | 10, [] => some .censusAsk
  | 11, [a, b, f, c, d, e, g, n] =>
    if f.extractLsb' 2 6 = 0 then
      some (.censusReply ⟨a ++ b, f.getLsbD 1, f.getLsbD 0, c ++ d, e ++ g, n⟩)
    else none
  | 12, [c, a, b, n, w, x, y, z, h] =>
    if h.extractLsb' 4 4 = 0 then some (.censusTx ⟨c, a ++ b, n, w ++ x ++ y ++ z, h.extractLsb' 0 4⟩) else none
  | 13, [a, b, f, c, d, e, g] =>
    if f.extractLsb' 3 5 = 0 then
      some (.beacon ⟨a ++ b, f.getLsbD 2, f.getLsbD 1, f.getLsbD 0, c ++ d, e ++ g⟩)
    else none
  | _, _ => none

/-- A number in a range, both ends included. -/
def within (lo n hi : Nat) : Bool := decide (lo ≤ n ∧ n ≤ hi)

/-- The largest amount of an order (Table 5-1). -/
def amountLimit : Nat := 39999960

/-- Whether every field lies in the range that chapter 3 gives it (Tables 3-3, 3-4 and 3-10). -/
def payloadInRange (p : Payload) : Bool :=
  match p with
  | .dayClose q => within 1 q.day.toNat 65535
  | .call q => within 1 q.ticket.toNat 999 && within 1 q.clerk.toNat 24
  | .issue q => within 1 q.ticket.toNat 999
  | .pass q => within 1 q.ticket.toNat 999 && within 1 q.clerk.toNat 24
  | .txClose q =>
    within 1 q.clerk.toNat 24 && within 0 q.ticket.toNat 999 && within 1 q.items.toNat 40
      && within 0 q.amount.toNat amountLimit
  | .txCancel q => within 1 q.clerk.toNat 24 && within 0 q.reason.toNat 1
  | .voidLine q => within 1 q.clerk.toNat 24 && within 1 q.line.toNat 40 && within 0 q.price.toNat 999999
  | .item q =>
    within 1 q.clerk.toNat 24 && within 1 q.line.toNat 40 && within 1 q.plu.toNat 99999 && within 1 q.dept.toNat 8
      && within 0 q.price.toNat 999999
      && (if q.byCount then within 1 q.measure.toNat 99 else within 20 q.measure.toNat 30000)
      && within 1 q.serial.toNat 999999
  | .daysum q => within 1 q.day.toNat 65535
  | .daysumAsk d => within 1 d.toNat 65535
  | .censusAsk => true
  | .censusReply q =>
    within 1 q.day.toNat 65535 && within 0 q.issued.toNat 999 && within 0 q.called.toNat 999
      && within 0 q.openOrders.toNat 24
  | .censusTx q =>
    within 1 q.clerk.toNat 24 && within 0 q.ticket.toNat 999 && within 0 q.items.toNat 40
      && within 0 q.amount.toNat amountLimit
  | .beacon q => within 1 q.day.toNat 65535 && within 0 q.issued.toNat 999 && within 0 q.called.toNat 999

/-- One step of the check register: generator x^16 + x^12 + x^5 + 1 (R47). -/
def crcStep (register : BitVec 16) (bit : Bool) : BitVec 16 :=
  if register.msb != bit then (register <<< 1) ^^^ 0x1021 else register <<< 1

/-- The bits of a field, most significant first. -/
def bitsOf {w : Nat} (v : BitVec w) : List Bool := (List.range w).map fun k => v.getMsbD k

/-- The check word over the arbitration field, the length field and the payload, preset to all ones (R47). -/
def checkWord (arbitration : BitVec 8) (length : BitVec 4) (bytes : List Byte) : BitVec 16 :=
  (bitsOf arbitration ++ bitsOf length ++ bytes.flatMap bitsOf).foldl crcStep 0xFFFF

/-- The envelope in which a frame is sent (Table 3-1). -/
def sentEnvelope (f : Frame) : RawFrame :=
  let bytes := payloadBytes f.payload
  let length := BitVec.ofNat 4 bytes.length
  { arbitration := (arbitrationField f), length := length, bytes := bytes,
    check := checkWord (arbitrationField f) length bytes, truncated := false }

/-- The class code of a received envelope: the high half of its arbitration field (R47). -/
def receivedClass (r : RawFrame) : Nat := (r.arbitration.extractLsb' 4 4).toNat

/-- The well-formed frame that a received envelope spells (R47, R58); none for a damaged frame and for the undefined
classes 14 and 15. -/
def receivedFrame (r : RawFrame) : Option Frame :=
  if r.truncated then none
  else if checkWord r.arbitration r.length r.bytes ≠ r.check then none
  else if r.bytes.length ≠ r.length.toNat then none
  else if classLength (receivedClass r) ≠ some r.length.toNat then none
  else
    match payloadOf (receivedClass r) r.bytes with
    | none => none
    | some p => if payloadInRange p then some { origin := r.arbitration.extractLsb' 0 4, payload := p } else none

end Sys2Proof.Machine
end

