-- ==== Sys2Proof/Machine/Flags.lean ====
section
/-! DEFINITION. The flags the manual computes: the window's stability, the attributes' normalized values and low flags,
the weighing lockout, the day-tag comparison, and the flag bits kept in store words. -/

namespace Sys2Proof.Machine

/-! ### Weighing -/

/-- The largest value of a list, at least the start value. -/
def maxOf (l : List Int) (a : Int) : Int := l.foldl max a
/-- The smallest value of a list, at most the start value. -/
def minOf (l : List Int) (a : Int) : Int := l.foldl min a

/-- The window holds M values and its spread is within the stability spread (R4). -/
def windowStable (window : List Int) (m : Nat) (spread : Int) : Bool :=
  match window with
  | [] => false
  | g :: rest => decide (window.length = m) && decide (maxOf rest g - minOf rest g ≤ spread)

/-! ### Health attributes -/

/-- The normalized value of an attribute (Table 10-1). With the strap fault Bz does not exist and ZERO_USE is 100
(R177). -/
def normalizedValue (a : Attribute) (raw bz : Nat) : Nat :=
  match a with
  | .zeroUse => if bz = 0 then 100 else max 1 (100 - 100 * raw / bz)
  | .overloads => max 1 (100 - raw / 10)
  | .motionTimeouts => max 1 (100 - 2 * raw)
  | .storeErrors => max 1 (100 - raw)
  | .linkRetries => max 1 (100 - raw / 20)
  | .viewMismatch => max 1 (100 - 5 * raw)

/-- An attribute is low when its threshold is present and its normalized value is at most the threshold (R178). -/
def AttributeRecord.isLow (r : AttributeRecord) : Bool :=
  match r.threshold with
  | none => false
  | some t => decide (r.normalized ≤ t)

/-- The record of an attribute. -/
def Attributes.get (h : Attributes) (a : Attribute) : AttributeRecord :=
  match a with
  | .zeroUse => h.zeroUse
  | .overloads => h.overloads
  | .motionTimeouts => h.motionTimeouts
  | .storeErrors => h.storeErrors
  | .linkRetries => h.linkRetries
  | .viewMismatch => h.viewMismatch

/-- The records with that of one attribute replaced. -/
def Attributes.set (h : Attributes) (a : Attribute) (r : AttributeRecord) : Attributes :=
  match a with
  | .zeroUse => { h with zeroUse := r }
  | .overloads => { h with overloads := r }
  | .motionTimeouts => { h with motionTimeouts := r }
  | .storeErrors => { h with storeErrors := r }
  | .linkRetries => { h with linkRetries := r }
  | .viewMismatch => { h with viewMismatch := r }

/-- The attributes in the order of Table 10-1. -/
def allAttributes : List Attribute :=
  [.zeroUse, .overloads, .motionTimeouts, .storeErrors, .linkRetries, .viewMismatch]

/-- ZERO_USE alone is blocking (Table 10-1). -/
def Attribute.advisory (a : Attribute) : Bool :=
  match a with
  | .zeroUse => false
  | .overloads | .motionTimeouts | .storeErrors | .linkRetries | .viewMismatch => true

/-- The attributes that a close start returns to 0 (R177). -/
def dayScoped : List Attribute := [.motionTimeouts, .linkRetries, .viewMismatch]

/-- A record whose raw value has moved: normalized and worst-ever follow, and the low flag (R176, R178). -/
def AttributeRecord.moved (r : AttributeRecord) (a : Attribute) (raw bz : Nat) : AttributeRecord :=
  let n := normalizedValue a raw bz
  let r' : AttributeRecord := { r with raw := raw, normalized := n, worst := min r.worst n }
  { r' with low := r'.isLow }

/-- The station is locked out while ZERO_USE is low (R179). -/
def State.lockedOut (s : State) : Bool := s.hlm.attributes.zeroUse.isLow

/-- The figures of the sampled capacity class (R2). -/
def State.figures (s : State) : Figures := Machine.figures s.hpt.straps.cap

/-- The own station number. -/
def State.station (s : State) : Nat := s.hpt.straps.station.toNat

/-- The station works: main power is applied and RESET is high. -/
def State.working (s : State) : Bool := decide (s.power = .on)

/-- RESET is low, with or without main power (R197). -/
def Power.pinLow (p : Power) : Bool :=
  match p with
  | .off => false
  | .offLow => true
  | .resetLow => true
  | .on => false

/-- ATTN is asserted while the event queue holds a record (R189). -/
def State.attn (s : State) : Bool := !s.hpt.events.isEmpty

/-! ### Flag bits of store words (assumption 7) -/

/-- Totals lost since open, in the running control word and a record's flag word. -/
def flagTotalsLost : Nat := 1
/-- Uncorrectable seen. -/
def flagUncorrectableSeen : Nat := 2
/-- Amount limit. -/
def flagAmountLimit : Nat := 4
/-- Late, in a record's flag word. -/
def flagLate : Nat := 8
/-- Forced, in a record's flag word. -/
def flagForced : Nat := 16
/-- Completion reported, beside the contributor set of a record. -/
def flagCompletion : Nat := 65536

/-- Whether a word's data has a flag (a power of two) set. -/
def hasFlag (data flag : Nat) : Bool := decide (data / flag % 2 = 1)

/-- A word's data with a flag set. -/
def setFlag (data flag : Nat) : Nat := if hasFlag data flag then data else data + flag

/-- The flag when the condition holds. -/
def flagIf (b : Bool) (flag : Nat) : Nat := if b then flag else 0

end Sys2Proof.Machine
end

