-- ==== Sys2Proof/Machine/Ops.lean ====
section
/-! DEFINITION. The named operations shared by the blocks: reading and writing store words, handing the store an
operation, answering a request, queuing an event, recording a fault, and moving a health attribute. -/

namespace Sys2Proof.Machine

/-! ### Words of the totals store -/

/-- What an address holds that the memory does not list: a sound zero (assumption 5). -/
def blankWord : StoreWord := { written := 0, flips := 0 }

/-- The word at an address. -/
def Memory.word (m : Memory) (a : Nat) : StoreWord := (Table.get m a).getD blankWord

/-- The memory with the word at an address replaced; a sound zero is not listed. The store has the 2048 words
0..2047 (R141), and no other address is written. -/
def Memory.set (m : Memory) (a : Nat) (w : StoreWord) : Memory :=
  if 2048 ≤ a then m else if w = blankWord then Table.del m a else Table.put m a w

/-- A write forms fresh check bits from the data written (R141). -/
def Memory.write (m : Memory) (a : Nat) (data : Nat) : Memory :=
  Memory.set m a { written := BitVec.ofNat 32 data, flips := 0 }

/-- Canonical form: addresses strictly rising and below 2048, no sound zero listed. -/
def Memory.wf (m : Memory) : Bool :=
  Table.sorted m && m.all fun e => decide (e.1 < 2048 ∧ e.2 ≠ blankWord)

/-- The number of wrong bits of a word. -/
def StoreWord.wrongBits (w : StoreWord) : Nat :=
  ((List.range 39).filter fun k => w.flips.getLsbD k).length

/-- The data bits as found (R141). -/
def StoreWord.found (w : StoreWord) : Word := w.written ^^^ w.flips.extractLsb' 0 32

/-- How a read judges a word (R141). -/
def StoreWord.judge (w : StoreWord) : Judgement :=
  match w.wrongBits with
  | 0 => .sound
  | 1 => .corrected
  | 2 => .uncorrectable
  | _ => Config.multiBitJudgement w.written w.flips

/-- The data a read returns (R141). -/
def StoreWord.data (w : StoreWord) : Nat :=
  match w.judge with
  | .sound => w.found.toNat
  | .corrected => if w.wrongBits = 1 then w.written.toNat else (Config.multiBitData w.written w.flips).toNat
  | .uncorrectable => w.found.toNat

/-- A word as a read returns it: address, judgement and data (R145). -/
structure JudgedWord where
  address : Nat
  judge   : Judgement
  data    : Nat
  deriving DecidableEq, Repr, Inhabited

/-- Reading one word (R145). A read does not change the word. -/
def Memory.read (m : Memory) (a : Nat) : JudgedWord :=
  { address := a, judge := (Memory.word m a).judge, data := (Memory.word m a).data }

/-! ### Addresses of the regions (Table 8-1) -/

/-- Control region (Table 8-2). -/
def addrBusinessDay : Nat := 0
def addrLabel : Nat := 1
def addrHistory : Nat := 2
def addrFault : Nat := 3
def addrStoreState : Nat := 4
/-- The running region's word at an offset of Table 8-3. -/
def addrRunning (offset : Nat) : Nat := 8 + offset
/-- A day record's word at an offset. -/
def addrRecord (slot offset : Nat) : Nat := 104 + 96 * (slot - 1) + offset
/-- Word `k` of a journal entry. -/
def addrJournal (slot k : Nat) : Nat := 872 + 4 * (slot - 1) + k
/-- The first of an attribute's two words (R176). -/
def addrAttribute (a : Attribute) : Nat := 1384 + 2 * (a.number - 1)
/-- Word `k` of a fault entry. -/
def addrFaultEntry (slot k : Nat) : Nat := 1400 + 8 * (slot - 1) + k

/-- Offsets of Table 8-3 and Table 9-2. -/
def offDeptAmount (d : Nat) : Nat := 3 * (d - 1)
def offDeptCount (d : Nat) : Nat := 3 * (d - 1) + 1
def offDeptWeight (d : Nat) : Nat := 3 * (d - 1) + 2
def offClerkCustomers (c : Nat) : Nat := 24 + 2 * (c - 1)
def offClerkAmount (c : Nat) : Nat := 24 + 2 * (c - 1) + 1
def offItemAmount : Nat := 72
def offItemCount : Nat := 73
def offVoidAmount : Nat := 74
def offVoidCount : Nat := 75
def offCancelAmount : Nat := 76
def offCancelCount : Nat := 77
def offUnattachedAmount : Nat := 78
def offUnattachedCount : Nat := 79
def offNoSale : Nat := 80
def offHeldDiscarded : Nat := 81
def offLabels : Nat := 82
def offCustomers : Nat := 83
def offFlags : Nat := 84
def offDay : Nat := 85
def offTime : Nat := 86
def offSnapshot : Nat := 87
def offContributors : Nat := 88
def offSumItemAmount : Nat := 89
def offSumItemCount : Nat := 90
def offSumCustomers : Nat := 91
def offSumVoidAmount : Nat := 92

/-! ### Words of the working values (assumption 7) -/

/-- The label word: next serial and newest journal slot. -/
def labelWord (nextSerial newest : Nat) : Word := BitVec.ofNat 32 (nextSerial + newest * 1048576)
/-- The fault word: fault count and newest fault entry. -/
def faultWord (newest count : Nat) : Word := BitVec.ofNat 32 (count + newest * 65536)
/-- An attribute record's second word: normalized and worst-ever. -/
def attributeWord (normalized worst : Nat) : Word := BitVec.ofNat 32 (normalized + worst * 256)

/-! ### Handing the store an operation; answering a request -/

/-- An operation handed to the store joins the operation list (R144). -/
def hand (op : Op) (s : State) : State := { s with tst.ops := s.tst.ops ++ [op] }

/-- The owner's answer is complete: the slot becomes READY (R186). -/
def answer (result : ResultCode) (data : List Field) (s : State) : State :=
  { s with hpt.slot := .ready { result := result, data := data } }

/-- A refusal: an answer without data. -/
def refuse (result : ResultCode) (s : State) : State := answer result [] s

/-- The next request tag moves on; after 255 comes 1 (R188). -/
def nextTagAfter (tag : Nat) : Nat := if tag = 255 then 1 else tag + 1

/-- The answer ACCEPTED with the tag, and the tag taken (R188). -/
def acceptRequest (s : State) : State :=
  answer .accepted [.num 1 s.hpt.nextTag] { s with hpt.nextTag := nextTagAfter s.hpt.nextTag }

/-! ### Faults, events and attributes -/

/-- Bytes packed into a word, the first in the highest place. -/
def packBytes (l : List Byte) : Nat := l.foldl (fun acc b => acc * 256 + b.toNat) 0

/-- The four parameter bytes of a ring entry, missing ones as 0 (R188). -/
def fourBytes (l : List Byte) : List Byte := (l ++ [0, 0, 0, 0]).take 4

/-- A preceding request as a fault entry keeps it: code and four bytes; a ring place without a request has code 0.
The requests held come first, oldest first, and the absent places last (assumption 41). -/
def ringCode (ring : List RingEntry) (k : Nat) : Nat := (ring[k]?.map fun e => e.code.toNat).getD 0
/-- The parameter bytes of a ring place as one number. -/
def ringParams (ring : List RingEntry) (k : Nat) : Nat := (ring[k]?.map fun e => packBytes (fourBytes e.params)).getD 0

/-- The eight words of a fault entry recorded now (Table 10-5, R182; packing by assumption 7). -/
def faultEntry (k : FaultKind) (s : State) : List Word :=
  [ BitVec.ofNat 32 (k.number + s.hpt.runState.number * 256 + s.cap.capture.number * 65536),
    BitVec.ofNat 32 s.hpt.timeOfDay,
    BitVec.ofNat 32 s.day.day,
    BitVec.ofNat 32 (ringCode s.hpt.ring 0 + ringCode s.hpt.ring 1 * 256 + ringCode s.hpt.ring 2 * 65536),
    BitVec.ofNat 32 (ringParams s.hpt.ring 0),
    BitVec.ofNat 32 (ringParams s.hpt.ring 1),
    BitVec.ofNat 32 (ringParams s.hpt.ring 2),
    0 ]

/-- Words with their addresses, rising from a first address. -/
def addressed (first : Nat) (words : List Word) : List (Nat × Word) :=
  match words with
  | [] => []
  | w :: rest => (first, w) :: addressed (first + 1) rest

/-- A fault report: recorded in the slot after the newest, the count raised, one record write handed (R181). -/
def recordFault (k : FaultKind) (s : State) : State :=
  let slot := ringNext 6 s.hlm.newestFault
  let count := min (s.hlm.faultCount + 1) 65535
  hand (.recordWrite (addressed (addrFaultEntry slot 0) (faultEntry k s) ++ [(addrFault, faultWord slot count)]))
    { s with hlm.newestFault := slot, hlm.faultCount := count }

/-- Queuing an event: at the tail while fewer than 32 are held; otherwise it is dropped, the overflow count rises and
EVENT_OVERFLOW is reported (R189). -/
def queueEvent (e : Event) (s : State) : State :=
  if s.hpt.events.length < 32 then
    { s with hpt.events := s.hpt.events ++ [{ event := e, time := s.hpt.timeOfDay }] }
  else
    recordFault .eventOverflow { s with hpt.overflow := min (s.hpt.overflow + 1) 255 }

/-- A report that moves an attribute's raw value: one recomputation, one record write, and ATTRIBUTE_LOW at a crossing.
A report that leaves the raw value as it was does nothing (R176, R178). -/
def moveAttribute (a : Attribute) (raw : Nat) (s : State) : State :=
  let r := s.hlm.attributes.get a
  let v := min raw 65535
  if v = r.raw then s
  else
    let r' := r.moved a v s.figures.zeroBand
    let s' := hand (.recordWrite (addressed (addrAttribute a)
        [BitVec.ofNat 32 r'.raw, attributeWord r'.normalized r'.worst]))
      { s with hlm.attributes := s.hlm.attributes.set a r' }
    if r'.low && !r.low then queueEvent (.attributeLow a r'.normalized) s' else s'

/-- A report that adds to an attribute's raw value (R177). -/
def raiseAttribute (a : Attribute) (n : Nat) (s : State) : State :=
  moveAttribute a ((s.hlm.attributes.get a).raw + n) s

/-- Raising VIEW_MISMATCH: the event, and one mismatch reported (R77). -/
def raiseMismatch (k : MismatchKind) (clerk ticket : Option Nat) (s : State) : State :=
  raiseAttribute .viewMismatch 1 (queueEvent (.viewMismatch k clerk ticket) s)

/-- All six low flags set from the present values and thresholds, and ATTRIBUTE_LOW queued for each attribute found
low, in attribute order (R178). -/
def evaluateLowFlags (s : State) : State :=
  allAttributes.foldl (fun acc a =>
    let r := acc.hlm.attributes.get a
    let acc' := { acc with hlm.attributes := acc.hlm.attributes.set a { r with low := r.isLow } }
    if r.isLow then queueEvent (.attributeLow a r.normalized) acc' else acc') s

/-! ### Timers that an event restarts -/

/-- A running timer has counted since it was last started. A timer that an arrival, an accepted frame or a request
taken first has just restarted does not run out (R12, R63, R113, R190; assumption 3). -/
def hasRun (timer : Option Nat) (full : Nat) : Bool :=
  match timer with
  | none => false
  | some left => decide (left < full)

/-! ### Postings to the running region (Table 8-5) -/

/-- An update of running buckets, by offset. -/
def post (additions : List (Nat × Nat)) (s : State) : State :=
  hand (.update (additions.map fun p => (addrRunning p.1, p.2))) s

/-- A customer of a clerk (R99). -/
def postCustomer (clerk amount : Nat) (s : State) : State :=
  post [(offClerkCustomers clerk, 1), (offClerkAmount clerk, amount), (offCustomers, 1)] s
/-- A voided line (R98). -/
def postVoid (price : Nat) (s : State) : State := post [(offVoidCount, 1), (offVoidAmount, price)] s
/-- A cancelled order (R100). -/
def postCancel (amount : Nat) (s : State) : State := post [(offCancelCount, 1), (offCancelAmount, amount)] s
/-- A late item (R108). -/
def postUnattached (price : Nat) (s : State) : State := post [(offUnattachedCount, 1), (offUnattachedAmount, price)] s
/-- A no-sale (R83, R94). -/
def postNoSale (s : State) : State := post [(offNoSale, 1)] s
/-- A held item dropped (R125, R126). -/
def postHeldDiscarded (s : State) : State := post [(offHeldDiscarded, 1)] s

/-! ### Serving a host request (R186, R191) -/

/-- The ring with one more block taken, the oldest of more than three pushed out (R188). -/
def enterRing (code : Byte) (params : List Byte) (s : State) : State :=
  let ring := s.hpt.ring ++ [{ code := code, params := fourBytes params }]
  { s with hpt.ring := ring.drop (ring.length - 3) }

/-- A block shifted in while the slot is free: code 0 is no request; any other is entered in the ring and answered
PARAM, answered WRONG_STATE in STORE_PREP, or left PENDING for its owner (R186, R191). A block cut off before its length
byte announces no last byte; it is answered PARAM whatever its code, also one whose request has no parameters
(assumption 54). -/
def takeBlock (mosi : List Byte) (s : State) : State :=
  match mosi with
  | [] => s
  | code :: rest =>
    if code = 0 then s
    else
      let length := rest.head?.map BitVec.toNat
      let params := (rest.drop 1).take (length.getD 0)
      let s' := enterRing code params s
      if requestLength code.toNat ≠ length ∨ length = none ∨ params.length ≠ length.getD 0 then refuse .param s'
      else if s.hpt.runState = .storePrep ∧ code ≠ readStatusCode then refuse .wrongState s'
      else { s' with hpt.slot := .taken { code := code, params := params } }

/-- SEL rises: the effect of a selection in which the host clocked the given bytes (R186). They are whole bytes: a last byte
that was clocked in part is no byte of the selection (assumption 51). -/
def selection (mosi : List Byte) (s : State) : State :=
  if s.power ≠ .on ∨ mosi = [] then s
  else
    match s.hpt.slot with
    | .taken _ => { s with hpt.miso := shiftedOut notReadyBytes mosi.length }
    | .awaiting => { s with hpt.miso := shiftedOut notReadyBytes mosi.length }
    | .ready r => takeBlock mosi { s with hpt.miso := shiftedOut r.bytes mosi.length, hpt.slot := .empty }
    | .empty => takeBlock mosi { s with hpt.miso := shiftedOut emptySlotBytes mosi.length }

/-- A request command. When its block is the one PENDING, it is the owner's taking of it. Otherwise the command stands
for the selection that carries its block, and for the owner's taking when that selection leaves the block PENDING
(assumption 2). -/
def serve (i : Instr) (owner : State → State) (s : State) : Host.Outcome State Fault Refusal :=
  match requestBlock i with
  | none => .next s
  | some b =>
    let s' := if s.hpt.slot = .taken b then s else selection (blockBytes b) s
    .next (if s'.hpt.slot = .taken b then owner s' else s')

/-- A request that reads the store: the read is handed and the slot stays PENDING until it ends (R144, R186). -/
def awaitRead (addresses : List Nat) (purpose : ReadPurpose) (s : State) : State :=
  hand (.read addresses purpose) { s with hpt.slot := .awaiting }

end Sys2Proof.Machine
end

