-- ==== Sys2Proof/Machine/Labels.lean ====
section
/-! DEFINITION. LBL, the label unit (chapter 7): claims and reservations, placing a record, the journal entry, and the
requests TAKE_LABEL and READ_JOURNAL. -/

namespace Sys2Proof.Machine

/-- Free places of the label queue: 8 less the records and less the reservations (R129). -/
def LabelUnit.free (l : LabelUnit) : Nat := 8 - (l.records.length + l.reservations)

/-- The next serial after a serial: after 999,999 comes 1 (R132). -/
def serialAfter (n : Nat) : Nat := if 999999 ≤ n then 1 else n + 1

/-- Label kind numbers (Table 7-1). -/
def LabelBody.number (b : LabelBody) : Nat :=
  match b with
  | .item _ => 0 | .total .. => 1 | .void .. => 2

/-- PLU field of a journal entry (Table 7-2). -/
def LabelBody.journalPlu (b : LabelBody) : Nat :=
  match b with
  | .item i => i.request.plu
  | .total .. => 0
  | .void .. => 0

/-- Price field of a journal entry (Table 7-2). -/
def LabelBody.journalPrice (b : LabelBody) : Nat :=
  match b with
  | .item i => i.price
  | .total _ _ amount _ => amount
  | .void _ price => price

/-- Weight in grams or quantity of an item. -/
def Measure.amount (m : Measure) : Nat :=
  match m with
  | .weight _ _ _ _ display _ => display.toNat
  | .count q => q

/-- Weight-or-quantity field of a journal entry (Table 7-2). -/
def LabelBody.journalMeasure (b : LabelBody) : Nat :=
  match b with
  | .item i => i.measure.amount
  | .total _ items _ _ => items
  | .void line _ => line

/-- The taken flag in the first word of a journal entry (assumption 7). -/
def flagTaken : Nat := 4194304

/-- The four words of the journal entry of a record, its taken flag clear (R136; packing by assumption 7). -/
def journalEntry (r : LabelRecord) : List Word :=
  [ BitVec.ofNat 32
      (r.serial + r.body.number * 1048576 + r.clerk * 8388608 + r.body.journalPlu / 65536 * 268435456),
    BitVec.ofNat 32 (r.day + r.body.journalPlu % 65536 * 65536),
    BitVec.ofNat 32 (r.time + r.body.journalMeasure * 131072),
    BitVec.ofNat 32 r.body.journalPrice ]

/-- Serial field of a journal entry's first word. -/
def entrySerial (w0 : Nat) : Nat := w0 % 1048576
/-- Kind field. -/
def entryKind (w0 : Nat) : Nat := w0 / 1048576 % 4
/-- Clerk field. -/
def entryClerk (w0 : Nat) : Nat := w0 / 8388608 % 32
/-- PLU field. -/
def entryPlu (w0 w1 : Nat) : Nat := w0 / 268435456 % 2 * 65536 + w1 / 65536
/-- Business day field. -/
def entryDay (w1 : Nat) : Nat := w1 % 65536
/-- Time field. -/
def entryTime (w2 : Nat) : Nat := w2 % 131072
/-- Weight-or-quantity field. -/
def entryMeasure (w2 : Nat) : Nat := w2 / 131072

/-- Placing a record: the common fields are filled, the record joins the tail, the store is handed one journal append,
and the working values move on (R131, R132). -/
def placeLabel (clerk : Nat) (body : LabelBody) (s : State) : State :=
  let slot := ringNext 128 s.lbl.newest
  let r : LabelRecord :=
    { serial := s.lbl.nextSerial, station := s.station, day := s.day.day, time := s.hpt.timeOfDay, clerk := clerk,
      body := body, slot := slot }
  let next := serialAfter s.lbl.nextSerial
  hand (.journalAppend slot (journalEntry r) (labelWord next slot))
    { s with lbl.records := s.lbl.records ++ [r], lbl.nextSerial := next, lbl.newest := slot }

/-- A label place is reserved for a TXCLOSE or VOID frame (R130). -/
def reserveLabel (s : State) : State := { s with lbl.reservations := s.lbl.reservations + 1 }

/-- A reservation is freed (R130). -/
def freeReservation (s : State) : State := { s with lbl.reservations := s.lbl.reservations - 1 }

/-- A reservation is filled: the count falls by one and the record is placed at once (R130). -/
def fillReservation (clerk : Nat) (body : LabelBody) (s : State) : State :=
  placeLabel clerk body (freeReservation s)

/-! ### TAKE_LABEL -/

/-- The fields of an item that a label record or a held item shows by kind; those of the other kind are absent
(Table 7-1). The division is sent as its grams in one byte, and the weight of a held item, which has no range in R128 or
Table 2-2, in the two bytes of its range in Table 7-1 (both assumption 10). -/
def measureFields (m : Option Measure) : List Field :=
  match m with
  | some (.weight _ _ _ _ w d) => [.opt true [(2, w)], .opt true [(1, d)], .opt false [(1, 0)]]
  | some (.count q) => [.opt false [(2, 0)], .opt false [(1, 0)], .opt true [(1, q)]]
  | none => [.opt false [(2, 0)], .opt false [(1, 0)], .opt false [(1, 0)]]

/-- The tare used of a label record, in grams with its source; absent when none applied (Tables 2-8 and 7-1). An item
weighed with the PLU tare 0 has source PLU, and its tare is sent present, as 0 g (assumption 52). -/
def tareField (m : Option Measure) : Field :=
  match m with
  | some (.weight _ (some t) source _ _ _) => .opt true [(4, (t / 10 : Nat)), (1, source.number)]
  | some (.weight _ none _ _ _ _) | some (.count _) | none => .opt false [(4, 0), (1, 0)]

/-- The tare used of the held item: for an item by weight the value in fine units, absent when the source is NONE, and
then the source; no field of an item by count (Table 2-2, R128; the bytes by assumption 35). -/
def heldTareField (m : Measure) : Field :=
  match m with
  | .weight _ tare source _ _ _ =>
    .opt true [(1, if tare.isSome then 1 else 0), (3, (tare.getD 0 : Nat)), (1, source.number)]
  | .count _ => .opt false [(1, 0), (3, 0), (1, 0)]

/-- Whether an item is by count, as its kind number (Table 2-1). -/
def Measure.number (m : Measure) : Nat :=
  match m with
  | .weight .. => 0 | .count _ => 1

/-- The data fields of a label record (Table 7-1). A field that the record's kind does not have is absent. The list of
line summaries is a count byte and its entries, for a record of every kind: an ITEM or VOID record sends the count 0,
without a presence byte (assumption 10). -/
def labelFields (r : LabelRecord) : List Field :=
  let item : Option Item := match r.body with | .item i => some i | .total .. => none | .void .. => none
  let ticket : Option Nat :=
    match r.body with | .item i => i.ticket | .total t _ _ _ => t | .void .. => none
  let total : Option (Nat × Nat × Option (List LineSummary)) :=
    match r.body with | .item _ => none | .total _ n a l => some (n, a, l) | .void .. => none
  let voided : Option (Nat × Nat) := match r.body with | .item _ => none | .total .. => none | .void l p => some (l, p)
  let summaries := ((total.bind fun t => t.2.2).getD [])
  [.num 1 r.body.number, .num 3 r.serial, .num 1 r.station, .num 2 r.day, .num 3 r.time, .num 1 r.clerk,
   .optional 3 (item.map fun i => i.request.plu), .optional 1 (item.map fun i => i.request.dept),
   .optional 1 (item.map fun i => i.measure.number)]
  ++ measureFields (item.map Item.measure)
  ++ [tareField (item.map Item.measure), .optional 3 (item.map fun i => i.request.unitPrice),
      .optional 3 (item.map Item.price), .optional 2 ticket,
      .optional 1 (total.map fun t => t.1), .optional 4 (total.map fun t => t.2.1),
      .optional 1 (total.map fun t => if t.2.2.isSome then 0 else 1), .num 1 summaries.length]
  ++ summaries.flatMap (fun l =>
      [.num 1 l.line, .num 1 l.station, .num 3 l.plu, .num 3 l.price, .flag l.voided])
  ++ [.optional 1 (voided.map fun v => v.1), .optional 3 (voided.map fun v => v.2)]

/-- TAKE_LABEL at its owner: the oldest record, and a taken-flag update handed (R134). -/
def takeLabelOwner (s : State) : State :=
  match s.lbl.records with
  | [] => refuse .empty s
  | r :: rest =>
    hand (.takenFlag r.slot r.serial r.day) (answer .ok (labelFields r) { s with lbl.records := rest })

/-- TAKE_LABEL (R134). -/
def execTakeLabel (s : State) : Host.Outcome State Fault Refusal := serve .takeLabel takeLabelOwner s

/-! ### READ_JOURNAL -/

/-- READ_JOURNAL at its owner: the slot counted back from the newest, read from the store (R138). The pointer returned is
that of the taking (assumption 42). -/
def readJournalOwner (index : Byte) (s : State) : State :=
  if 127 < index.toNat then refuse .param s
  else if s.lbl.newest = 0 then refuse .empty s
  else
    let slot := ringBack 128 s.lbl.newest index.toNat
    awaitRead ((List.range 4).map (addrJournal slot)) (.journal s.lbl.newest slot) s

/-- READ_JOURNAL (R138). -/
def execReadJournal (index : Byte) (s : State) : Host.Outcome State Fault Refusal :=
  serve (.readJournal index) (readJournalOwner index) s

/-- The answer of READ_JOURNAL when its read has ended (R138). The slot is empty when its serial is read as 0, also from a
word read UNCORRECTABLE (assumption 38). The weight or quantity has no range in the entry's own table and takes the two bytes
of the record's ranges (assumption 10). Bits of an UNCORRECTABLE word that no field has a place for are dropped
(assumption 49). -/
def journalAnswer (newest slot : Nat) (words : List JudgedWord) (s : State) : State :=
  let w (k : Nat) : Nat := (words[k]?.map JudgedWord.data).getD 0
  let bad := words.any fun j => decide (j.judge = .uncorrectable)
  if entrySerial (w 0) = 0 then refuse .empty s
  else
    answer .ok
      [.num 1 newest, .num 1 slot, .num 3 (entrySerial (w 0)), .num 1 (entryKind (w 0)), .num 2 (entryDay (w 1)),
       .num 3 (entryTime (w 2)), .num 1 (entryClerk (w 0)), .num 3 (entryPlu (w 0) (w 1)), .num 4 (w 3),
       .num 2 (entryMeasure (w 2)), .flag (hasFlag (w 0) flagTaken), .flag bad] s

end Sys2Proof.Machine
end

