-- ==== Sys2Proof/Machine/Queue.lean ====
section
/-! DEFINITION. The transmit queue and the station-frame backlog (section 3.3), what becomes of a frame that ends other
than by acceptance (R55, R67, R105, R167), late items (R108), and the held day records that DAYSUM frames name
(R170, R172). -/

namespace Sys2Proof.Machine

/-! ### Orders and day records that frames name -/

/-- The clerk's order in the own view; none when FREE (R92). -/
def State.order (s : State) (clerk : Nat) : Option Order := Table.get s.clt.orders clerk

/-- The view with the clerk's order replaced. -/
def putOrder (clerk : Nat) (o : Order) (s : State) : State := { s with clt.orders := Table.put s.clt.orders clerk o }

/-- The view with the clerk's order FREE. -/
def freeOrder (clerk : Nat) (s : State) : State := { s with clt.orders := Table.del s.clt.orders clerk }

/-- An order holds lines when it is OPEN and its item count is above 0 (R93). -/
def holdsLines (o : Option Order) : Bool := (o.map fun x => decide (0 < x.itemCount)).getD false

/-- The duration of an order's expiry timer at this station: the configured minutes at the holder, 5 more elsewhere
(R111). -/
def State.expiryDuration (s : State) (holder : Nat) : Nat :=
  (s.clt.expiryMinutes + if holder = s.station then 0 else 5) * unitsPerMinute

/-- The expiry mark cleared and the timer restarted with its full duration (R111, R113). -/
def restartExpiry (clerk : Nat) (s : State) : State :=
  match s.order clerk with
  | none => s
  | some o => putOrder clerk { o with expiryMark := false, timer := some (s.expiryDuration o.holder) } s

/-- The record slots from the newest back. -/
def State.slotsNewestFirst (s : State) : List Nat := (List.range 8).map (ringBack 8 s.day.newestSlot)

/-- The newest slot that holds the record of a day (R170). -/
def State.recordSlot (s : State) (day : Nat) : Option Nat :=
  s.slotsNewestFirst.find? fun k => decide (Table.get s.day.held k = some day)

/-- The four words of a record that a DAYSUM takes its figures from (R172). -/
def daysumAddresses (slot : Nat) : List Nat :=
  [addrRecord slot offItemAmount, addrRecord slot offItemCount, addrRecord slot offCustomers,
   addrRecord slot offVoidAmount]

/-! ### The transmit queue -/

/-- The class of a queued frame (Table 3-2). -/
def TxFrame.cls (f : TxFrame) : Nat :=
  match f with
  | .dayClose .. => 0 | .call .. => 1 | .issue _ => 2 | .pass .. => 3 | .txClose .. => 4 | .cancelHost .. => 5
  | .cancelExpiry _ => 5 | .voidLine .. => 6 | .item _ => 7 | .daysum .. => 8 | .daysumAsk .. => 9 | .censusAsk => 10
  | .censusReply => 11 | .censusTx _ => 12 | .beacon => 13

/-- Request frames are the frames of classes 0..7 and 9 (R49). -/
def TxFrame.isRequest (f : TxFrame) : Bool := decide (f.cls ≤ 7 ∨ f.cls = 9)

/-- Frames of classes 1..7, which a day close removes (R49, R167). -/
def TxFrame.isDayScoped (f : TxFrame) : Bool := within 1 f.cls 7

/-- A frame for which a label place is reserved (R129). -/
def TxFrame.reserves (f : TxFrame) : Bool := decide (f.cls = 4 ∨ f.cls = 6)

/-- Request frames in the queue. -/
def Link.requestFrames (l : Link) : Nat := (l.queue.filter TxFrame.isRequest).length
/-- Station frames in the queue. -/
def Link.stationFrames (l : Link) : Nat := (l.queue.filter fun f => !f.isRequest).length

/-- Why an offered request frame would be refused now (R49). -/
def State.offerRefusal (s : State) : Option ResultCode :=
  if s.lnk.state = .silent ∨ s.lnk.state = .off then some .linkSilent
  else if 12 ≤ s.lnk.requestFrames then some .linkFull
  else none

/-- A frame that is taken joins the tail (R49). -/
def enqueue (f : TxFrame) (s : State) : State := { s with lnk.queue := s.lnk.queue ++ [f] }

/-- A request that places its frame: the frame is taken and the request answered ACCEPTED with the tag it carries. -/
def placeFrame (frame : Nat → TxFrame) (s : State) : State :=
  acceptRequest (enqueue (frame s.hpt.nextTag) s)

/-- A frame-placing request at its owner: refused with the code of the first condition that holds, otherwise its frame
is offered, with the label claim its rule makes; the offer's own refusals come last in every table (R49). -/
def requestFrame (refusals : List (Bool × ResultCode)) (claim : State → State) (frame : Nat → TxFrame) (s : State) :
    State :=
  match refusals.find? Prod.fst with
  | some r => refuse r.2 s
  | none =>
    match s.offerRefusal with
    | some code => refuse code s
    | none => placeFrame frame (claim s)

/-! ### Late items and the ends of frames -/

/-- A late item: posted as unattached, LATE_ITEM queued and a fault reported (R108). -/
def lateItem (f : ItemFrame) (reason : LateReason) (s : State) : State :=
  recordFault .lateItem (queueEvent (.lateItem f.serial f.clerk reason) (postUnattached f.price s))

/-- REQUEST_DONE for a request (R84, R105, R163, R174). -/
def completeRequest (tag : Nat) (result : ResultCode) (ticket : Option Nat) (s : State) : State :=
  queueEvent (.requestDone tag result ticket) s

/-- How a frame ends other than by acceptance. -/
inductive FrameEnd where
  | removed (code : ResultCode)
  | late (reason : LateReason)
  | dropped
  | dayClosed
  | silent
  deriving DecidableEq, Repr, Inhabited

/-- The result with which a request completes at an end of its frame (Tables 4-6 and 5-6). -/
def FrameEnd.code (e : FrameEnd) : ResultCode :=
  match e with
  | .removed code => code
  | .late _ => .dropped
  | .dropped => .dropped
  | .dayClosed => .dayClosed
  | .silent => .linkSilent

/-- What becomes of an ITEM frame (R107, R114): no late item at a day close. -/
def FrameEnd.lateReason (e : FrameEnd) : Option LateReason :=
  match e with
  | .removed _ => none
  | .late reason => some reason
  | .dropped => some .dropped
  | .dayClosed => none
  | .silent => some .linkFull

/-- The unit that owns a frame settles its end: the request completes, a reservation is freed, an ITEM becomes a late
item, and a dropped TXCANCEL(EXPIRY) restarts its timer (R55, R67, R105, R113, R114). -/
def endFrame (f : TxFrame) (e : FrameEnd) (s : State) : State :=
  match f with
  | .dayClose tag _ _ => completeRequest tag e.code none s
  | .call tag _ => completeRequest tag e.code none s
  | .issue tag => completeRequest tag e.code none s
  | .pass tag _ => completeRequest tag e.code none s
  | .txClose tag _ => completeRequest tag e.code none (freeReservation s)
  | .cancelHost tag _ => completeRequest tag e.code none s
  | .cancelExpiry clerk => if e = .dropped then restartExpiry clerk s else s
  | .voidLine tag _ _ => completeRequest tag e.code none (freeReservation s)
  | .item i => match e.lateReason with
    | none => s
    | some reason => lateItem i reason s
  | .daysum .. => s
  | .daysumAsk tag _ => completeRequest tag e.code none s
  | .censusAsk => s
  | .censusReply => s
  | .censusTx _ => s
  | .beacon => s

/-! ### The station-frame backlog (R50) -/

/-- Nothing due. -/
def Backlog.none : Backlog := { replyDue := false, clerks := [], days := [] }

/-- The number of items in the backlog. -/
def Backlog.size (b : Backlog) : Nat := (if b.replyDue then 1 else 0) + b.clerks.length + b.days.length

/-- The number of a DAYSUM read; 0 for every other operation. -/
def Op.daysumRead (op : Op) : Nat :=
  match op with
  | .read _ purpose =>
    match purpose with
    | .daysum number => number
    | .journal .. => 0
    | .totals _ => 0
    | .dayRecord _ => 0
    | .fault .. => 0
  | .update _ => 0
  | .itemPosting .. => 0
  | .journalAppend .. => 0
  | .takenFlag .. => 0
  | .counterUpdate .. => 0
  | .recordWrite _ => 0
  | .closeCopy _ => 0

/-- The number of the next DAYSUM read: above those of the reads still listed, also of the ones that RESTART has left there,
so that a read fills its own frame and no other (assumption 50). -/
def State.nextDaysumRead (s : State) : Nat := (s.tst.ops.map Op.daysumRead).foldl max 0 + 1

/-- A DAYSUM enters the queue, and the day unit hands a read of its four figures (R172). For a day no longer held no read is
handed: the frame goes without an event when it is formed (assumption 48). -/
def placeDaysum (day : Nat) (s : State) : State :=
  match s.recordSlot day with
  | none => enqueue (.daysum day 0 none) s
  | some slot =>
    let read := s.nextDaysumRead
    hand (.read (daysumAddresses slot) (.daysum read)) (enqueue (.daysum day read none) s)

/-- The first backlog item moved into a free station place: the CENSUS_REPLY, then the lowest clerk, then the first
day; a clerk whose order is FREE is removed without a frame (R50). -/
def moveBacklogItem (s : State) : State :=
  let b := s.lnk.backlog
  if b.replyDue then enqueue .censusReply { s with lnk.backlog := { b with replyDue := false } }
  else
    match b.clerks with
    | c :: rest =>
      let s' := { s with lnk.backlog := { b with clerks := rest } }
      if (s.order c).isSome then enqueue (.censusTx c) s' else s'
    | [] =>
      match b.days with
      | d :: rest => placeDaysum d { s with lnk.backlog := { b with days := rest } }
      | [] => s

/-- Backlog items moved while a station place is free, at most `fuel` of them. -/
def fillStationPlaces (fuel : Nat) (s : State) : State :=
  match fuel with
  | 0 => s
  | n + 1 =>
    if s.lnk.stationFrames < 4 ∧ 0 < s.lnk.backlog.size then fillStationPlaces n (moveBacklogItem s) else s

/-- Whenever a station place is free and the backlog is not empty, LNK moves backlog items (R50). -/
def moveBacklog (s : State) : State := fillStationPlaces s.lnk.backlog.size s

/-- A DAYSUM made due for a day: not while the link is SILENT or OFF, and not a second one for a day queued or due;
with 8 days listed the first is removed (R50, R172). -/
def makeDaysumDue (day : Nat) (s : State) : State :=
  if s.lnk.state = .silent ∨ s.lnk.state = .off then s
  else if s.lnk.queue.any (fun f => match f with | .daysum d _ _ => decide (d = day) | _ => false)
      || s.lnk.backlog.days.any (fun d => decide (d = day)) then s
  else
    let days := if 8 ≤ s.lnk.backlog.days.length then s.lnk.backlog.days.drop 1 else s.lnk.backlog.days
    moveBacklog { s with lnk.backlog.days := days ++ [day] }

/-- A census answer: the reply-due flag unless a CENSUS_REPLY is queued, and every clerk with an OPEN order unless a
CENSUS_TX for that clerk is queued or due (R50, R65). -/
def makeCensusDue (s : State) : State :=
  let queued (c : Nat) : Bool :=
    s.lnk.queue.any fun f => match f with | .censusTx k => decide (k = c) | _ => false
  let clerks := (s.clt.orders.map Prod.fst).filter fun c => !queued c
  let reply := s.lnk.queue.any fun f => match f with | .censusReply => true | _ => false
  moveBacklog { s with
    lnk.backlog := { s.lnk.backlog with
      replyDue := s.lnk.backlog.replyDue || !reply
      clerks := clerks.foldl insertSorted s.lnk.backlog.clerks } }

end Sys2Proof.Machine
end

