-- ==== Sys2Proof/Machine/StoreOps.lean ====
section
/-! DEFINITION. What each store operation does to the words of the store and what it finds there (R145 to R147, R173,
R137), as functions of the memory alone; and the scrub step and walk steps on one word (R152, R154, R156). -/

namespace Sys2Proof.Machine

/-- A CORRECTED or UNCORRECTABLE judgement that an operation made, in the order made (R148, R149). -/
structure Find where
  address  : Nat
  judge    : Judgement
  kind     : FindKind
  /-- A CORRECTED word that was rewritten: one corrected error is reported. -/
  repaired : Bool
  deriving DecidableEq, Repr, Inhabited

/-- An operation under way: the memory so far, the finds so far, and whether an uncorrectable word was met. -/
structure Work where
  mem   : Memory
  finds : List Find
  bad   : Bool
  deriving DecidableEq, Repr, Inhabited

/-- An operation that has begun. -/
def Work.begin (m : Memory) : Work := { mem := m, finds := [], bad := false }

/-- A find noted; a SOUND judgement is none. -/
def Work.note (w : Work) (address : Nat) (judge : Judgement) (kind : FindKind) (repaired : Bool) : Work :=
  match judge with
  | .sound => w
  | .corrected => { w with finds := w.finds ++ [⟨address, judge, kind, repaired⟩] }
  | .uncorrectable => { w with finds := w.finds ++ [⟨address, judge, kind, repaired⟩], bad := true }

/-- One word of an update: read, changed and written, or left as it is when UNCORRECTABLE (R145). -/
def Work.change (w : Work) (address : Nat) (f : Nat → Nat) : Work :=
  let j := Memory.read w.mem address
  let w' := w.note address j.judge .update true
  if j.judge = .uncorrectable then w' else { w' with mem := Memory.write w.mem address (f j.data) }

/-- Words written whole with fresh check bits (R145). -/
def writeWords (m : Memory) (words : List (Nat × Word)) : Memory :=
  words.foldl (fun acc p => Memory.write acc p.1 p.2.toNat) m

/-- The addresses from a first one on written zero. -/
def zeroWords (m : Memory) (first count : Nat) : Memory :=
  (List.range count).foldl (fun acc k => Memory.write acc (first + k) 0) m

/-- An update that met an uncorrectable word sets uncorrectable seen in the flag word as its last step, with any flag
the operation itself sets (R145, R146). -/
def Work.flagged (w : Work) (address : Nat) (flags : Nat) : Work :=
  let all := if w.bad then setFlag flags flagUncorrectableSeen else flags
  if all = 0 then w
  else w.change address fun d =>
    let d' := if hasFlag all flagUncorrectableSeen then setFlag d flagUncorrectableSeen else d
    if hasFlag all flagAmountLimit then setFlag d' flagAmountLimit else d'

/-- An update posting: every addition in the order named (R145). -/
def runUpdate (m : Memory) (additions : List (Nat × Nat)) : Work :=
  (additions.foldl (fun w p => w.change p.1 fun d => satAdd d p.2) (Work.begin m)).flagged (addrRunning offFlags) 0

/-- The item posting (R146): the station item amount is judged first, and that is its one judgement. At the amount limit
the department amount is not read, and a CORRECTED station item amount is not rewritten (assumption 44). -/
def runItemPosting (m : Memory) (dept price : Nat) (weight : Option Nat) : Work :=
  let total := addrRunning offItemAmount
  let first := Memory.read m total
  let limit := decide (first.judge ≠ .uncorrectable) && decide (bucketMax < first.data + price)
  let w0 := (Work.begin m).note total first.judge .update (!limit)
  let w1 := if limit then w0 else w0.change (addrRunning (offDeptAmount dept)) fun d => satAdd d price
  let w2 := w1.change (addrRunning (offDeptCount dept)) fun d => satAdd d 1
  let w3 := match weight with
    | none => w2
    | some g => w2.change (addrRunning (offDeptWeight dept)) fun d => satAdd d g
  let w4 :=
    if limit ∨ first.judge = .uncorrectable then w3
    else { w3 with mem := Memory.write w3.mem total (satAdd first.data price) }
  let w5 := w4.change (addrRunning offItemCount) fun d => satAdd d 1
  w5.flagged (addrRunning offFlags) (flagIf limit flagAmountLimit)

/-- The journal append (Table 8-5): the entry and the label word written, then one added to the label count. -/
def runJournalAppend (m : Memory) (slot : Nat) (entry : List Word) (label : Word) : Work :=
  let m' := writeWords m (addressed (addrJournal slot 0) entry ++ [(addrLabel, label)])
  ((Work.begin m').change (addrRunning offLabels) fun d => satAdd d 1).flagged (addrRunning offFlags) 0

/-- The taken-flag update (R137): the flag is set when the entry's serial and day are those of the record taken. The words of
both are judged, and with either UNCORRECTABLE the flag stays as it is, though the numbers as found agree (assumption 27). -/
def runTakenFlag (m : Memory) (slot serial day : Nat) : Work :=
  let a0 := addrJournal slot 0
  let a1 := addrJournal slot 1
  let j0 := Memory.read m a0
  let j1 := Memory.read m a1
  let sound := decide (j0.judge ≠ .uncorrectable) && decide (j1.judge ≠ .uncorrectable)
  let isEntry := decide (entrySerial j0.data = serial) && decide (entryDay j1.data = day)
  let w := ((Work.begin m).note a0 j0.judge .update (sound && isEntry)).note a1 j1.judge .update false
  if sound && isEntry then { w with mem := Memory.write m a0 (setFlag j0.data flagTaken) } else w

/-- The six words of a record's counter section that a counter update reads: offsets 87..92 (R173). -/
def counterOffsets : List Nat :=
  [offSnapshot, offContributors, offSumItemAmount, offSumItemCount, offSumCustomers, offSumVoidAmount]

/-- A set of stations, member k as bit k, has a member (R187). -/
def hasStation (set k : Nat) : Bool := decide (set / 2 ^ k % 2 = 1)

/-- Every station of a set is in another. -/
def stationsWithin (snapshot contributors : Nat) : Bool :=
  (List.range 16).all fun k => !hasStation snapshot k || hasStation contributors k

/-- The counter update (R173), and whether it completes the counter section. -/
def runCounterUpdate (m : Memory) (slot station : Nat) (f : DayFigures) : Work × Bool :=
  let reads := counterOffsets.map fun o => Memory.read m (addrRecord slot o)
  let datum (k : Nat) : Nat := (reads[k]?.map JudgedWord.data).getD 0
  let bad := reads.any fun j => decide (j.judge = .uncorrectable)
  let contributors := datum 1 % 65536
  let adds := !bad && !hasStation contributors station
  let w := reads.foldl
    (fun acc j => acc.note j.address j.judge .update (adds && decide (j.address ≠ addrRecord slot offSnapshot)))
    (Work.begin m)
  if bad then (w.flagged (addrRecord slot offFlags) 0, false)
  else if hasStation contributors station then (w, false)
  else
    let contributors' := contributors + 2 ^ station
    let reported := hasFlag (datum 1) flagCompletion
    let complete := stationsWithin (datum 0 % 65536) contributors' && !reported
    let word := contributors' + flagIf (reported || complete) flagCompletion
    let mem := writeWords m
      [(addrRecord slot offContributors, BitVec.ofNat 32 word),
       (addrRecord slot offSumItemAmount, BitVec.ofNat 32 (satAdd (datum 2) f.itemAmount)),
       (addrRecord slot offSumItemCount, BitVec.ofNat 32 (satAdd (datum 3) f.itemCount)),
       (addrRecord slot offSumCustomers, BitVec.ofNat 32 (satAdd (datum 4) f.customers)),
       (addrRecord slot offSumVoidAmount, BitVec.ofNat 32 (satAdd (datum 5) f.voidAmount))]
    ({ w with mem := mem }, complete)

/-- Step 1 of the close copy for one offset: an UNCORRECTABLE word is carried as found (R147). -/
def Work.copyWord (w : Work) (slot offset : Nat) : Work :=
  let j := Memory.read w.mem (addrRunning offset)
  let w' := w.note (addrRunning offset) j.judge .copy true
  if j.judge = .uncorrectable then
    { w' with mem := Memory.set w.mem (addrRecord slot offset) (Memory.word w.mem (addrRunning offset)) }
  else { w' with mem := Memory.write w.mem (addrRecord slot offset) j.data }

/-- The close copy (R147). -/
def runCloseCopy (m : Memory) (c : CopyOrder) : Work :=
  let control := Memory.read m (addrRunning offFlags)
  let w := (List.range 85).foldl (fun acc o => acc.copyWord c.slot o) (Work.begin m)
  let carried := if control.judge = .uncorrectable then 0 else control.data % 8
  let carried' := if w.bad then setFlag carried flagUncorrectableSeen else carried
  let flags := carried' + flagIf c.late flagLate + flagIf c.forced flagForced
  let m2 := Memory.write w.mem (addrRecord c.slot offFlags) flags
  let m3 := writeWords m2
    [(addrRecord c.slot offDay, BitVec.ofNat 32 c.day),
     (addrRecord c.slot offTime, BitVec.ofNat 32 c.time),
     (addrRecord c.slot offSnapshot, c.snapshot.setWidth 32)]
  let m4 := zeroWords m3 (addrRecord c.slot offContributors) 8
  let m5 := Memory.write m4 addrHistory c.slot
  { w with mem := zeroWords m5 (addrRunning 0) 96 }

/-- What performing an operation gives: the memory, the finds, the words a read returned, and whether a counter
section was completed. -/
structure OpEffect where
  mem      : Memory
  finds    : List Find
  words    : List JudgedWord
  complete : Bool
  deriving DecidableEq, Repr, Inhabited

/-- The effect of an update that returns no words. -/
def OpEffect.ofWork (w : Work) : OpEffect := { mem := w.mem, finds := w.finds, words := [], complete := false }

/-- The finds of a read: none is repaired (R145). -/
def readFinds (words : List JudgedWord) : List Find :=
  (words.foldl (fun (w : Work) j => w.note j.address j.judge .read false) (Work.begin [])).finds

/-- An operation performed whole on the words of the store (R144, R145). -/
def runOp (m : Memory) (op : Op) : OpEffect :=
  match op with
  | .read addresses _ =>
    let words := addresses.map (Memory.read m)
    { mem := m, finds := readFinds words, words := words, complete := false }
  | .update additions => .ofWork (runUpdate m additions)
  | .itemPosting dept price weight => .ofWork (runItemPosting m dept price weight)
  | .journalAppend slot entry label => .ofWork (runJournalAppend m slot entry label)
  | .takenFlag slot serial day => .ofWork (runTakenFlag m slot serial day)
  | .counterUpdate slot _ station figures =>
    let r := runCounterUpdate m slot station figures
    { mem := r.1.mem, finds := r.1.finds, words := [], complete := r.2 }
  | .recordWrite words => { mem := writeWords m words, finds := [], words := [], complete := false }
  | .closeCopy order => .ofWork (runCloseCopy m order)

/-- Every listed operation performed in order on the retention supply: only the words change, since the blocks that
would take the results are without power or in reset (R144, R158). -/
def drainOps (m : Memory) (ops : List Op) : Memory := ops.foldl (fun acc op => (runOp acc op).mem) m

/-- One word of the verification walk: a CORRECTED word is rewritten, and both kinds of find are counted (R154). -/
def verifyWord (address : Nat) (m : Memory) (walk : Walk) : Memory × Walk × Judgement :=
  let j := Memory.read m address
  match j.judge with
  | .sound => (m, { walk with done := walk.done + 1 }, .sound)
  | .corrected =>
    (Memory.write m address j.data, { walk with done := walk.done + 1, corrected := walk.corrected + 1 }, .corrected)
  | .uncorrectable =>
    (m, { walk with
          done := walk.done + 1
          uncorrectable := walk.uncorrectable + 1
          firstBad := some (walk.firstBad.getD address) }, .uncorrectable)

/-- The address that the initialization walk writes as its `k`-th word: the store state word first, then every other
word in address order (R156). -/
def initAddress (k : Nat) : Nat := if k = 0 then addrStoreState else if k ≤ addrStoreState then k - 1 else k

/-- The latch after a judgement (R148). -/
def ErrorLatch.take (l : ErrorLatch) (address : Nat) (j : Judgement) : ErrorLatch :=
  match l with
  | .uncorrectable a => .uncorrectable a
  | .empty | .corrected _ =>
    match j with
    | .sound => l
    | .corrected => .corrected address
    | .uncorrectable => .uncorrectable address

/-- One word of the walk under way (R153, R154, R156). -/
def walkWord (s : State) : State :=
  match s.tst.walk with
  | none => s
  | some walk =>
    if 2048 ≤ walk.done then s
    else
      match walk.kind with
      | .verify =>
        let r := verifyWord walk.done s.tst.mem walk
        { s with tst := { s.tst with
            mem := r.1, walk := some r.2.1, latch := s.tst.latch.take walk.done r.2.2 } }
      | .fresh =>
        let a := initAddress walk.done
        { s with tst := { s.tst with
            mem := Memory.write s.tst.mem a (if a = addrStoreState then 1 else 0)
            walk := some { walk with done := walk.done + 1 } } }

/-- At most `fuel` further words of the walk. -/
def walkWords (fuel : Nat) (s : State) : State :=
  match fuel with
  | 0 => s
  | n + 1 => walkWords n (walkWord s)

end Sys2Proof.Machine
end

