-- ==== Sys2Proof/Machine/Attempts.lean ====
section
/-! DEFINITION. Sending a frame (section 3.4): formation of the head frame, the start of an attempt, and the ways an
attempt fails; the clash that silences the link (section 3.9). -/

namespace Sys2Proof.Machine

/-- Ticket mode and wrap as the ticket unit holds them; before CONFIGURE no rule that reads them is reached, and the
default stands for none (assumption 11). -/
def State.ticketConfig (s : State) : TicketConfig := s.tkt.config.getD { untracked := false, wrap := 99 }

/-- The day tag formed now (R159). -/
def State.formedTag (s : State) : BitVec 8 := BitVec.ofNat 8 (dayTag s.day.day)

/-- A ticket is bound to an OPEN order in the own view (R73). -/
def State.bound (s : State) (ticket : Nat) : Bool := s.clt.orders.any fun e => decide (e.2.ticket = some ticket)

/-- A ticket is on the own waiting list. -/
def State.waits (s : State) (ticket : Nat) : Bool := s.tkt.waiting.any fun e => decide (e.ticket = ticket)

/-- The number of OPEN orders in the own view. -/
def State.openOrders (s : State) : Nat := s.clt.orders.length

/-- What formation makes of the head frame (R51): a payload, an end for its unit to settle, a removal without event,
or a wait for the read of a DAYSUM's figures (R172). -/
inductive Formation where
  | formed (p : Payload)
  | ended (e : FrameEnd)
  | quiet
  | waiting
  deriving DecidableEq, Repr, Inhabited

/-- Formation of a CALL (R79). An empty list is judged before the clerk's order (assumption 33). -/
def formCall (clerk : Nat) (s : State) : Formation :=
  let make (ticket : Nat) : Formation :=
    if holdsLines (s.order clerk) then .ended (.removed .clerkBusy)
    else .formed (.call ⟨s.formedTag, saturated 16 ticket, saturated 8 clerk⟩)
  if s.ticketConfig.untracked then make (nextTicket s.ticketConfig.wrap s.tkt.called)
  else
    match s.tkt.waiting with
    | [] => .ended (.removed .noWaiting)
    | e :: _ => make e.ticket

/-- Formation of an ISSUE (R76). -/
def formIssue (s : State) : Formation :=
  let n := nextTicket s.ticketConfig.wrap s.tkt.issued
  if decide (48 ≤ s.tkt.waiting.length) || s.waits n || s.bound n then .ended (.removed .waitingFull)
  else .formed (.issue ⟨s.formedTag, saturated 16 n⟩)

/-- Formation of a PASS (R82). -/
def formPass (clerk : Nat) (s : State) : Formation :=
  match (s.order clerk).bind Order.ticket with
  | none => .ended (.removed .clerkBusy)
  | some t =>
    if holdsLines (s.order clerk) then .ended (.removed .clerkBusy)
    else .formed (.pass ⟨s.formedTag, saturated 16 t, saturated 8 clerk⟩)

/-- The payload of an ITEM that takes a line number. -/
def itemPayload (f : ItemFrame) (line : Nat) (s : State) : Payload :=
  .item ⟨s.formedTag, f.byCount, saturated 5 f.clerk, saturated 8 line, saturated 24 f.plu, saturated 8 f.dept,
    saturated 24 f.price, saturated 16 f.measure, saturated 24 f.serial⟩

/-- Formation of an ITEM (R107). -/
def formItem (f : ItemFrame) (s : State) : Formation :=
  match s.order f.clerk with
  | none => if f.openAtCapture then .ended (.late .closed) else .formed (itemPayload f 1 s)
  | some o => if 40 ≤ o.lineCount then .ended (.late .linesFull) else .formed (itemPayload f (o.lineCount + 1) s)

/-- The line of an order's list with a number. -/
def Order.line (o : Order) (number : Nat) : Option Line :=
  (o.lines.getD []).find? fun l => decide (l.number = number)

/-- Formation of a VOID (R103). -/
def formVoid (clerk line : Nat) (s : State) : Formation :=
  match s.order clerk with
  | none => .ended (.removed .noOrder)
  | some o =>
    match o.line line with
    | none => .ended (.removed .param)
    | some l =>
      if l.voided then .ended (.removed .param)
      else .formed (.voidLine ⟨s.formedTag, saturated 8 clerk, saturated 8 line, saturated 24 l.price⟩)

/-- Formation of a TXCLOSE (R102). -/
def formTxClose (clerk : Nat) (s : State) : Formation :=
  match s.order clerk with
  | none => .ended (.removed .noOrder)
  | some o =>
    if o.itemCount = 0 then .ended (.removed .empty)
    else
      .formed (.txClose ⟨s.formedTag, saturated 8 clerk, saturated 16 (o.ticket.getD 0), saturated 8 o.itemCount,
        saturated 32 o.amount⟩)

/-- Formation of a TXCANCEL with reason HOST (R104). -/
def formCancelHost (clerk : Nat) (s : State) : Formation :=
  match s.order clerk with
  | none => .ended (.removed .noOrder)
  | some _ => .formed (.txCancel ⟨s.formedTag, saturated 8 clerk, 0⟩)

/-- Formation of a TXCANCEL with reason EXPIRY (R113). -/
def formCancelExpiry (clerk : Nat) (s : State) : Formation :=
  match s.order clerk with
  | none => .quiet
  | some o => if o.expiryMark then .formed (.txCancel ⟨s.formedTag, saturated 8 clerk, 1⟩) else .quiet

/-- Formation of a DAYSUM (R172). -/
def formDaysum (day : Nat) (figures : Option DayFigures) (s : State) : Formation :=
  match s.recordSlot day with
  | none => .quiet
  | some _ =>
    match figures with
    | none => .waiting
    | some f =>
      .formed (.daysum ⟨saturated 16 day, saturated 32 f.itemAmount, saturated 24 f.itemCount,
        saturated 16 f.customers, saturated 32 f.voidAmount⟩)

/-- Formation of a CENSUS_TX (R109). -/
def formCensusTx (clerk : Nat) (s : State) : Formation :=
  match s.order clerk with
  | none => .quiet
  | some o =>
    .formed (.censusTx ⟨saturated 8 clerk, saturated 16 (o.ticket.getD 0), saturated 8 o.itemCount,
      saturated 32 o.amount, BitVec.ofNat 4 o.holder⟩)

/-- Formation by class (Table 3-5). -/
def formation (f : TxFrame) (s : State) : Formation :=
  match f with
  | .dayClose _ day forced =>
    if !forced && decide (0 < s.openOrders) then .ended (.removed .openOrders)
    else .formed (.dayClose ⟨saturated 16 day, forced⟩)
  | .call _ clerk => formCall clerk s
  | .issue _ => formIssue s
  | .pass _ clerk => formPass clerk s
  | .txClose _ clerk => formTxClose clerk s
  | .cancelHost _ clerk => formCancelHost clerk s
  | .cancelExpiry clerk => formCancelExpiry clerk s
  | .voidLine _ clerk line => formVoid clerk line s
  | .item i => formItem i s
  | .daysum day _ figures => formDaysum day figures s
  | .daysumAsk _ day => .formed (.daysumAsk (saturated 16 day))
  | .censusAsk => .formed .censusAsk
  | .censusReply =>
    .formed (.censusReply ⟨saturated 16 s.day.day, decide (s.ticketConfig.wrap = 999), s.ticketConfig.untracked,
      saturated 16 s.tkt.issued, saturated 16 s.tkt.called, saturated 8 s.openOrders⟩)
  | .censusTx clerk => formCensusTx clerk s
  | .beacon =>
    .formed (.beacon ⟨saturated 16 s.day.day, decide (s.ticketConfig.wrap = 999), s.ticketConfig.untracked,
      s.lockedOut, saturated 16 s.tkt.issued, saturated 16 s.tkt.called⟩)

/-- The head frame removed from the queue; the next becomes the head with an attempt count of 0 (R55). -/
def dropHead (s : State) : State := { s with lnk.queue := s.lnk.queue.drop 1, lnk.attemptCount := 0 }

/-- Heads formed, or removed when their purpose is no longer valid, until one is formed and its attempt starts, or the
queue is empty (R51). `fuel` bounds the removals. -/
def formHeads (fuel : Nat) (s : State) : State :=
  match fuel with
  | 0 => s
  | n + 1 =>
    match s.lnk.queue with
    | [] => s
    | f :: _ =>
      match formation f s with
      | .formed p =>
        { s with
          lnk.attempt := some { origin := s.hpt.straps.station, payload := p }
          lnk.drive := .sending
          lnk.formWaiting := false }
      | .ended e => formHeads n (moveBacklog (endFrame f e (dropHead s)))
      | .quiet => formHeads n (moveBacklog (dropHead s))
      | .waiting => { s with lnk.formWaiting := true }

/-- An attempt begun on an idle line: every removal takes one frame of the queue or the backlog, and the last frame is
formed (R51). -/
def beginAttempt (s : State) : State := formHeads (s.lnk.queue.length + s.lnk.backlog.size + 1) s

/-- The station may send: its link state is JOINING or LIVE (R58, R68). -/
def State.maySend (s : State) : Bool := s.working && decide (s.lnk.state = .joining ∨ s.lnk.state = .live)

/-- LINK_ATTEMPT_START (R51): the line has become idle. Without a head, with an attempt under way, or while SILENT or
OFF, none starts. -/
def execLinkAttemptStart (s : State) : Host.Outcome State Fault Refusal :=
  .next (if s.maySend && s.lnk.attempt.isNone then beginAttempt s else s)

/-- The sender stops driving and its attempt ends; the line is no longer idle for a head that waits for its read. -/
def stopSending (s : State) : State :=
  { s with lnk.attempt := none, lnk.drive := .recessive, lnk.formWaiting := false }

/-- ARBITRATION_LOST (R52): the attempt ends uncounted and the head stays. -/
def execArbitrationLost (s : State) : Host.Outcome State Fault Refusal :=
  .next (if s.lnk.attempt.isSome then stopSending s else s)

/-- The sixteenth counted attempt has failed: the frame is dropped and settled by its unit (R55). -/
def dropFrame (s : State) : State :=
  match s.lnk.queue with
  | [] => s
  | f :: _ =>
    moveBacklog (endFrame f .dropped
      (recordFault .linkDrop (queueEvent (.linkDrop f.cls) (dropHead s))))

/-- A counted failure of the attempt under way: the count rises and one failed attempt is reported (R53 to R55). -/
def failAttempt (s : State) : State :=
  raiseAttribute .linkRetries 1 { stopSending s with lnk.attemptCount := s.lnk.attemptCount + 1 }

/-- The clash count has reached 3: the link falls SILENT, every queued frame ends and the backlog is emptied (R67). The
removed frames are settled in queue order (assumption 21). -/
def fallSilent (s : State) : State :=
  let s' := recordFault .stationClash (queueEvent .stationClash
    { s with
      lnk := { s.lnk with
        state := .silent, queue := [], attempt := none, attemptCount := 0, formWaiting := false,
        backlog := .none, beaconTimer := none, drive := .recessive } })
  s.lnk.queue.foldl (fun acc f => endFrame f .silent acc) s'

/-- ATTEMPT_BIT_ERROR (R53, R55, R67): the attempt fails and counts, and one clash is counted. -/
def execAttemptBitError (s : State) : Host.Outcome State Fault Refusal :=
  .next (
    if s.lnk.attempt.isNone then s
    else
      let s' := failAttempt { s with lnk.clash := s.lnk.clash + 1 }
      if 3 ≤ s'.lnk.clash then fallSilent s'
      else if 16 ≤ s'.lnk.attemptCount then dropFrame s'
      else s')

/-- ATTEMPT_OBJECTED (R54, R55): the attempt fails and counts, without a clash. -/
def execAttemptObjected (s : State) : Host.Outcome State Fault Refusal :=
  .next (
    if s.lnk.attempt.isNone then s
    else
      let s' := failAttempt s
      if 16 ≤ s'.lnk.attemptCount then dropFrame s' else s')

end Sys2Proof.Machine
end

