-- ==== Sys2Proof/Machine/Orders.lean ====
section
/-! DEFINITION. CLT, the clerk table (chapter 5): what each accepted frame does to a clerk's order, the requests on
orders, the expiry of an order, and the orders at a day close. -/

namespace Sys2Proof.Machine

/-! ### Completion at the sender -/

/-- The tag of the request that placed a frame; TXCANCEL(EXPIRY), ITEM and the station frames have none. -/
def TxFrame.tag (f : TxFrame) : Option Nat :=
  match f with
  | .dayClose tag _ _ => some tag
  | .call tag _ => some tag
  | .issue tag => some tag
  | .pass tag _ => some tag
  | .txClose tag _ => some tag
  | .cancelHost tag _ => some tag
  | .cancelExpiry _ => none
  | .voidLine tag _ _ => some tag
  | .item _ => none
  | .daysum .. => none
  | .daysumAsk tag _ => some tag
  | .censusAsk => none
  | .censusReply => none
  | .censusTx _ => none
  | .beacon => none

/-- At the sender, the request of an accepted frame completes (R56, R84, R105). `own` is the frame taken off the
queue; it is absent at a receiver. -/
def completeOwn (own : Option TxFrame) (code : ResultCode) (ticket : Option Nat) (s : State) : State :=
  match own.bind TxFrame.tag with
  | none => s
  | some tag => completeRequest tag code ticket s

/-! ### Frames applied to the table (section 5.2) -/

/-- A frame about an OPEN order: the holder becomes its origin, the last activity time the present time, the expiry
mark is cleared and the expiry timer restarted (R94, R96 to R98, R111). -/
def touchOrder (clerk holder : Nat) (o : Order) (s : State) : State :=
  putOrder clerk
    { o with
      holder := holder
      lastActivity := s.hpt.timeOfDay
      expiryMark := false
      timer := some (s.expiryDuration holder) } s

/-- An order as it opens here; `touchOrder` fills the fields that a frame sets. -/
def Order.opening (ticket opened : Option Nat) : Order :=
  { ticket := ticket, opened := opened, holder := 0, lineCount := 0, itemCount := 0, amount := 0, lines := some [],
    lastActivity := 0, timer := none, expiryMark := false }

/-- A called ticket bound to the clerk's order (R94). `atSender` is set at the CALL's sender. -/
def bindCall (origin ticket clerk : Nat) (atSender : Bool) (s : State) : State :=
  match s.order clerk with
  | none => touchOrder clerk origin (Order.opening (some ticket) (some s.hpt.timeOfDay)) s
  | some o =>
    let s' := touchOrder clerk origin { o with ticket := some ticket } s
    if 0 < o.itemCount then raiseMismatch .callBusy (some clerk) none s'
    else if atSender && o.ticket.isSome && decide (o.ticket ≠ some ticket) then postNoSale s'
    else s'

/-- A PASS at the clerk's order (R95). The expiry mark of an order that stays OPEN is as R113 leaves it: a PASS does
not clear it. The absent ticket of an order without lines is other than the ticket passed and raises TICKET_DIFFERS (both
assumption 22). -/
def passOrder (origin ticket clerk : Nat) (s : State) : State :=
  match s.order clerk with
  | none => raiseMismatch .orderUnknown (some clerk) none s
  | some o =>
    if 0 < o.itemCount then
      raiseMismatch .passBusy (some clerk) none
        (putOrder clerk
          { o with
            ticket := none
            holder := origin
            lastActivity := s.hpt.timeOfDay
            timer := some (s.expiryDuration origin) } s)
    else
      let s' := freeOrder clerk s
      if o.ticket ≠ some ticket then raiseMismatch .ticketDiffers (some clerk) none s' else s'

/-- The line that an ITEM frame carries (R96). -/
def itemLine (origin : Nat) (p : ItemPayload) : Line :=
  { number := p.line.toNat, station := origin, serial := p.serial.toNat, plu := p.plu.toNat, dept := p.dept.toNat,
    byCount := p.byCount, measure := p.measure.toNat, price := p.price.toNat, voided := false }

/-- An ITEM that reaches a FREE order (R96). -/
def openByItem (origin : Nat) (p : ItemPayload) (s : State) : State :=
  let fresh := Order.opening none (some s.hpt.timeOfDay)
  let o : Order := { fresh with
    lineCount := p.line.toNat
    itemCount := 1
    amount := p.price.toNat
    lines := if p.line.toNat = 1 then some [itemLine origin p] else none }
  let s' := touchOrder p.clerk.toNat origin o s
  if p.line.toNat = 1 then s' else raiseMismatch .orderUnknown (some p.clerk.toNat) none s'

/-- An ITEM that reaches an OPEN order (R97). The amount is not held at the end of its range in Table 5-1, nor are the
counts of a stub (assumption 29). -/
def addItem (origin : Nat) (p : ItemPayload) (o : Order) (s : State) : State :=
  let o' : Order := { o with itemCount := o.itemCount + 1, amount := o.amount + p.price.toNat }
  let highest := max o.lineCount p.line.toNat
  match o.lines with
  | none => touchOrder p.clerk.toNat origin { o' with lineCount := highest } s
  | some lines =>
    if p.line.toNat = o.lineCount + 1 then
      touchOrder p.clerk.toNat origin
        { o' with lineCount := p.line.toNat, lines := some (lines ++ [itemLine origin p]) } s
    else
      raiseMismatch .lineConflict (some p.clerk.toNat) none
        (touchOrder p.clerk.toNat origin { o' with lineCount := highest, lines := none } s)

/-- An applied ITEM (R96, R97). -/
def applyItem (origin : Nat) (p : ItemPayload) (s : State) : State :=
  match s.order p.clerk.toNat with
  | none => openByItem origin p s
  | some o => addItem origin p o s

/-- An order with one item and a price taken off; a figure that would fall below 0 becomes 0 (R98). -/
def Order.less (o : Order) (price : Nat) : Order :=
  { o with itemCount := o.itemCount - 1, amount := o.amount - price }

/-- A figure of the order would fall below 0 (R98). -/
def Order.short (o : Order) (price : Nat) : Bool := decide (o.itemCount = 0 ∨ o.amount < price)

/-- The order after a VOID, and the kind of mismatch raised (R98). One that gives two grounds for VOID_ABSENT raises it once
(assumption 18). -/
def Order.voidLine (o : Order) (p : VoidPayload) : Order × Option MismatchKind :=
  match o.lines with
  | none => (o.less p.price.toNat, if o.short p.price.toNat then some .voidAbsent else none)
  | some lines =>
    match o.line p.line.toNat with
    | none => ({ o.less p.price.toNat with lines := none }, some .voidAbsent)
    | some l =>
      if l.voided then (o, some .voidRepeat)
      else
        let lines' := lines.map fun x => if x.number = l.number then { x with voided := true } else x
        ({ o.less l.price with lines := some lines' },
          if p.price.toNat ≠ l.price || o.short l.price then some .voidAbsent else none)

/-- An applied VOID: every station's part, then the sender's label, posting and completion (R98). -/
def applyVoid (origin : Nat) (p : VoidPayload) (own : Option TxFrame) (s : State) : State :=
  let clerk := p.clerk.toNat
  let s' :=
    match s.order clerk with
    | none => raiseMismatch .orderUnknown (some clerk) none s
    | some o =>
      let s1 := touchOrder clerk origin (o.voidLine p).1 s
      match (o.voidLine p).2 with
      | none => s1
      | some kind => raiseMismatch kind (some clerk) none s1
  if own.isSome then
    completeOwn own .ok none
      (postVoid p.price.toNat (fillReservation clerk (.void p.line.toNat p.price.toNat) s'))
  else s'

/-- The line summaries of a TOTAL listing; PARTIAL when the order is a stub (R99, R133). -/
def Order.listing (o : Order) : Option (List LineSummary) :=
  o.lines.map fun lines => lines.map fun l =>
    { line := l.number, station := l.station, plu := l.plu, price := l.price, voided := l.voided }

/-- The TXCLOSE's figures differ from the order's (R99). -/
def Order.differs (o : Order) (p : TxClosePayload) : Bool :=
  decide (o.ticket.getD 0 ≠ p.ticket.toNat ∨ o.itemCount ≠ p.items.toNat ∨ o.amount ≠ p.amount.toNat)

/-- An applied TXCLOSE: the comparison, the sender's label, posting and completion, and the order freed (R99). A
sender whose order is FREE, which formation rules out, frees its reservation (assumption 23). -/
def applyTxClose (p : TxClosePayload) (own : Option TxFrame) (s : State) : State :=
  let clerk := p.clerk.toNat
  match s.order clerk with
  | none =>
    let s' := raiseMismatch .orderUnknown (some clerk) none s
    if own.isSome then completeOwn own .ok none (freeReservation s') else s'
  | some o =>
    let s1 := if o.differs p then raiseMismatch .totalFigures (some clerk) none s else s
    if own.isSome then
      completeOwn own .ok none
        (freeOrder clerk
          (postCustomer clerk p.amount.toNat
            (fillReservation clerk (.total o.ticket p.items.toNat p.amount.toNat o.listing) s1)))
    else freeOrder clerk s1

/-- An applied TXCANCEL (R100). -/
def applyTxCancel (p : TxCancelPayload) (own : Option TxFrame) (s : State) : State :=
  let clerk := p.clerk.toNat
  match s.order clerk with
  | none => completeOwn own .ok none (raiseMismatch .orderUnknown (some clerk) none s)
  | some o =>
    let s' := if own.isSome then postCancel o.amount s else s
    completeOwn own .ok none (freeOrder clerk s')

/-- The stub that a CENSUS_TX opens at a joining station (R110). -/
def openStub (p : CensusTxPayload) (s : State) : State :=
  let fresh := Order.opening (if p.ticket = 0 then none else some p.ticket.toNat) none
  touchOrder p.clerk.toNat p.holder.toNat
    { fresh with
      lineCount := p.items.toNat
      itemCount := p.items.toNat
      amount := p.amount.toNat
      lines := none } s

/-- The largest open order count of the replies applied in the census window (R110). -/
def noteOpenCount (count : Nat) (s : State) : State :=
  if s.hpt.runState = .joining then { s with clt.censusOpen := max s.clt.censusOpen count } else s

/-- The census window has ended: CENSUS_SHORT when fewer orders are held than a reply reported (R110). -/
def judgeCensus (s : State) : State :=
  if s.openOrders < s.clt.censusOpen then raiseMismatch .censusShort none none s else s

/-- Every order becomes FREE at close start; nothing is posted and no event queued (R114). -/
def freeAllOrders (s : State) : State := { s with clt.orders := [] }

/-! ### Requests on orders (section 5.3) -/

/-- A clerk number in 1..24. -/
def clerkInRange (c : Byte) : Bool := within 1 c.toNat 24

/-- A request that waits for RUNNING is refused WRONG_STATE in every other state (R191). -/
def State.notRunning (s : State) : Bool := decide (s.hpt.runState ≠ .running)

/-- TOTAL_ORDER at its owner (Table 5-4). -/
def totalOrderOwner (clerk : Byte) (s : State) : State :=
  let o := s.order clerk.toNat
  requestFrame
    [(!clerkInRange clerk, .param), (s.notRunning, .wrongState), (s.day.behind, .dayBehind), (o.isNone, .noOrder),
     (!holdsLines o, .empty), (decide (s.lbl.free = 0), .labelFull)]
    reserveLabel (fun tag => .txClose tag clerk.toNat) s

/-- TOTAL_ORDER (R101). -/
def execTotalOrder (clerk : Byte) (s : State) : Host.Outcome State Fault Refusal :=
  serve (.totalOrder clerk) (totalOrderOwner clerk) s

/-- CANCEL_ORDER at its owner, its checks in the order of R104. -/
def cancelOrderOwner (clerk : Byte) (s : State) : State :=
  requestFrame
    [(!clerkInRange clerk, .param), (s.notRunning, .wrongState), (s.day.behind, .dayBehind),
     ((s.order clerk.toNat).isNone, .noOrder)]
    id (fun tag => .cancelHost tag clerk.toNat) s

/-- CANCEL_ORDER (R104). -/
def execCancelOrder (clerk : Byte) (s : State) : Host.Outcome State Fault Refusal :=
  serve (.cancelOrder clerk) (cancelOrderOwner clerk) s

/-- The order's list holds the line and the line is not void. -/
def Order.holdsLine (o : Order) (number : Nat) : Bool :=
  match o.line number with
  | none => false
  | some l => !l.voided

/-- VOID_LINE at its owner (Table 5-5). -/
def voidLineOwner (clerk line : Byte) (s : State) : State :=
  let o := s.order clerk.toNat
  requestFrame
    [(!clerkInRange clerk || !within 1 line.toNat 40, .param), (s.notRunning, .wrongState), (s.day.behind, .dayBehind),
     (o.isNone, .noOrder), ((o.bind Order.lines).isNone, .linesAbsent),
     (!(o.map fun x => x.holdsLine line.toNat).getD false, .param), (decide (s.lbl.free = 0), .labelFull)]
    reserveLabel (fun tag => .voidLine tag clerk.toNat line.toNat) s

/-- VOID_LINE (R103). -/
def execVoidLine (clerk line : Byte) (s : State) : Host.Outcome State Fault Refusal :=
  serve (.voidLine clerk line) (voidLineOwner clerk line) s

/-- The data fields of a line (Table 5-2). -/
def lineFields (l : Line) : List Field :=
  [.num 1 l.number, .num 1 l.station, .num 3 l.serial, .num 3 l.plu, .num 1 l.dept, .flag l.byCount,
   .optional 2 (if l.byCount then none else some l.measure), .optional 1 (if l.byCount then some l.measure else none),
   .num 3 l.price, .flag l.voided]

/-- The data of READ_ORDER: FREE alone, or OPEN with the fields of Table 5-1 and the lines (R106). -/
def orderFields (o : Option Order) : List Field :=
  match o with
  | none => [.num 1 0]
  | some o =>
    let lines := o.lines.getD []
    [.num 1 1, .optional 2 o.ticket, .optional 3 o.opened, .num 1 o.holder, .num 1 o.lineCount, .num 1 o.itemCount,
     .num 4 o.amount, .flag o.lines.isNone, .num 3 o.lastActivity,
     .optional 4 (o.timer.map fun t => t / unitsPerSecond), .flag o.expiryMark, .num 1 lines.length]
    ++ lines.flatMap lineFields

/-- READ_ORDER at its owner (R106). -/
def readOrderOwner (clerk : Byte) (s : State) : State :=
  if clerkInRange clerk then answer .ok (orderFields (s.order clerk.toNat)) s else refuse .param s

/-- READ_ORDER (R106). -/
def execReadOrder (clerk : Byte) (s : State) : Host.Outcome State Fault Refusal :=
  serve (.readOrder clerk) (readOrderOwner clerk) s

/-! ### Inactivity expiry (section 5.6) -/

/-- The TXCANCEL(EXPIRY) of an expired order offered; what becomes of the timer by the answer (R112). -/
def offerExpiry (clerk : Nat) (o : Order) (s : State) : State :=
  match s.offerRefusal with
  | none => enqueue (.cancelExpiry clerk) (putOrder clerk { o with timer := none } s)
  | some code =>
    putOrder clerk { o with timer := if code = .linkFull then some unitsPerMinute else none } s

/-- The expiry timer of an OPEN order runs out (R112). -/
def expireOrder (clerk : Nat) (o : Order) (s : State) : State :=
  let s' := if o.expiryMark then s else queueEvent (.orderExpired clerk) s
  offerExpiry clerk { o with expiryMark := true } s'

/-- ORDER_EXPIRY (R112): a timer that is stopped, or that a frame applied first has just restarted, does not run out
(R113). -/
def execOrderExpiry (clerk : Byte) (s : State) : Host.Outcome State Fault Refusal :=
  match s.order clerk.toNat with
  | none => .next s
  | some o => .next (if hasRun o.timer (s.expiryDuration o.holder) then expireOrder clerk.toNat o s else s)

end Sys2Proof.Machine
end

