-- ==== Sys2Proof/Machine/Tickets.lean ====
section
/-! DEFINITION. TKT, the ticket unit (chapter 4): what accepted ISSUE, CALL and PASS frames and the census do to the
ticket view, and the ticket requests. -/

namespace Sys2Proof.Machine

/-! ### The ticket view -/

/-- A ticket removed from the waiting list, if it is there (R73). -/
def unlist (ticket : Nat) (s : State) : State :=
  { s with tkt.waiting := s.tkt.waiting.filter fun e => decide (e.ticket ≠ ticket) }

/-- The pass count of a ticket's entry on the waiting list, or 0 (R74, R80). -/
def listedPasses (ticket : Nat) (waiting : List WaitEntry) : Nat :=
  ((waiting.find? fun e => decide (e.ticket = ticket)).map WaitEntry.passes).getD 0

/-- The newer of two tickets, the second unless the first is newer than it (R71). -/
def newest (wrap n c : Nat) : Nat := if newer wrap n c then n else c

/-- An entry appended at the tail of the waiting list unless it is on the list, bound to an OPEN order, or the list is
full; each of these raises its kind with the ticket (R77, R83). When two of them hold, the first named is raised alone; at
a PASS too the event carries the ticket (assumption 33). -/
def listTicket (e : WaitEntry) (duplicate bound : MismatchKind) (s : State) : State :=
  if s.waits e.ticket then raiseMismatch duplicate none (some e.ticket) s
  else if s.bound e.ticket then raiseMismatch bound none (some e.ticket) s
  else if 48 ≤ s.tkt.waiting.length then raiseMismatch .listFull none (some e.ticket) s
  else { s with tkt.waiting := s.tkt.waiting ++ [e] }

/-! ### Frames applied to the view -/

/-- An applied ISSUE (R77). -/
def applyIssue (origin : Nat) (p : IssuePayload) (own : Option TxFrame) (s : State) : State :=
  let n := p.ticket.toNat
  let s1 := { s with tkt.issued := newest s.ticketConfig.wrap n s.tkt.issued }
  let s2 :=
    if s1.ticketConfig.untracked then s1
    else
      listTicket { ticket := n, time := some s.hpt.timeOfDay, station := some origin, passes := 0 } .issueDuplicate
        .issueBound s1
  completeOwn own .ok (some n) (queueEvent (.ticketIssued n origin) s2)

/-- An applied CALL, its five steps in order, then the completion at the sender (R80, R94). -/
def applyCall (origin : Nat) (p : TicketPayload) (own : Option TxFrame) (s : State) : State :=
  let n := p.ticket.toNat
  let clerk := p.clerk.toNat
  let kept := listedPasses n s.tkt.waiting
  let s1 :=
    if s.waits n then unlist n s
    else if s.ticketConfig.untracked then s
    else raiseMismatch .callAbsent none (some n) s
  let s2 := { s1 with
    tkt := { s1.tkt with
      called := newest s1.ticketConfig.wrap n s1.tkt.called
      passes := Table.put s1.tkt.passes clerk { ticket := n, passes := kept }
      nowServing := some { ticket := n, clerk := clerk, station := origin } } }
  let s3 := queueEvent (.nowServing n clerk origin) s2
  completeOwn own .ok (some n) (bindCall origin n clerk own.isSome s3)

/-- A ticket that ends at a PASS: one no-sale, at the sender only (R83). -/
def endTicket (own : Option TxFrame) (s : State) : State := if own.isSome then postNoSale s else s

/-- The passed ticket re-queued with one more pass, or ended by the pass limit or a full list (R83). The pass limit is judged
first: a third pass ends the ticket and raises nothing, though it is on the list or bound. Short of the limit one that is on
the list or bound does not end, though the list is full (both assumption 33). -/
def requeue (ticket passes : Nat) (own : Option TxFrame) (s : State) : State :=
  if 2 < passes then endTicket own s
  else
    let s' := listTicket { ticket := ticket, time := none, station := none, passes := passes } .passDuplicate .passBound s
    if s.waits ticket || s.bound ticket then s'
    else if 48 ≤ s.tkt.waiting.length then endTicket own s'
    else s'

/-- The pass count that a PASS reads from the clerk's pass record (R74). -/
def readPasses (ticket : Nat) (r : Option PassRecord) : Nat :=
  match r with
  | none => 0
  | some r => if r.ticket = ticket then r.passes else 0

/-- An applied PASS, its steps in order, then the completion at the sender (R83). -/
def applyPass (origin : Nat) (p : TicketPayload) (own : Option TxFrame) (s : State) : State :=
  let n := p.ticket.toNat
  let clerk := p.clerk.toNat
  let s1 := passOrder origin n clerk s
  let passes := readPasses n (Table.get s1.tkt.passes clerk)
  let s2 := { s1 with tkt.passes := Table.del s1.tkt.passes clerk }
  let s3 := if s2.ticketConfig.untracked then s2 else requeue n (passes + 1) own s2
  completeOwn own .ok none s3

/-- The ticket figures of a CENSUS_REPLY or BEACON. -/
structure TicketFigures where
  config : TicketConfig
  issued : Nat
  called : Nat
  deriving DecidableEq, Repr, Inhabited

/-- The ticket mode and wrap that two flags of a payload name (Table 3-10). -/
def flaggedConfig (untracked wrap999 : Bool) : TicketConfig :=
  { untracked := untracked, wrap := if wrap999 then 999 else 99 }

/-- The conflict rule (R89). -/
def modeConflict (s : State) : State :=
  if s.tkt.conflict then s else raiseMismatch .mode none none { s with tkt.conflict := true }

/-- The waiting list rebuilt from highest called to highest issued: the oldest 48, bound tickets left out (R87). The list is
cut to 48 first (assumption 19); figures above the own W are taken as `waitingSpan` counts (assumption 34). -/
def rebuildWaiting (s : State) : State :=
  let wrap := s.ticketConfig.wrap
  let span := waitingSpan wrap s.tkt.issued s.tkt.called
  let tickets := (ticketsFrom wrap s.tkt.called (min span 48)).filter fun n => !s.bound n
  { s with tkt.waiting := tickets.map fun n => { ticket := n, time := none, station := none, passes := 0 } }

/-- A joiner takes the newer figures, and rebuilds its list when it took one (R87 steps 2 and 3). -/
def takeFigures (f : TicketFigures) (s : State) : State :=
  let wrap := s.ticketConfig.wrap
  let s' := { s with
    tkt := { s.tkt with issued := newest wrap f.issued s.tkt.issued, called := newest wrap f.called s.tkt.called } }
  if (newer wrap f.issued s.tkt.issued || newer wrap f.called s.tkt.called) && !s.ticketConfig.untracked then
    rebuildWaiting s'
  else s'

/-- TKT's part in a CENSUS_REPLY or BEACON (R87, R89). -/
def applyFigures (f : TicketFigures) (s : State) : State :=
  if f.config ≠ s.ticketConfig then modeConflict s
  else if s.hpt.runState = .joining then takeFigures f s
  else s

/-- A CENSUS_TX applied at a joining station whose clerk is FREE: the ticket leaves the waiting list, then the stub
opens (R73, R88, R110). -/
def applyCensusTx (p : CensusTxPayload) (s : State) : State :=
  if s.hpt.runState = .joining ∧ s.order p.clerk.toNat = none then
    openStub p (if p.ticket = 0 then s else unlist p.ticket.toNat s)
  else s

/-- TKT empties its view at close start; mode, wrap and the conflict flag are kept (R90). -/
def emptyTicketView (s : State) : State :=
  { s with tkt := { TicketUnit.atReset with config := s.tkt.config, conflict := s.tkt.conflict } }

/-! ### Ticket requests -/

/-- ISSUE_TICKET at its owner (Table 4-3). -/
def issueTicketOwner (s : State) : State :=
  let n := nextTicket s.ticketConfig.wrap s.tkt.issued
  requestFrame
    [(s.notRunning, .wrongState), (!s.hpt.straps.issuer, .notIssuer), (s.day.behind, .dayBehind),
     (s.tkt.conflict, .ticketConflict),
     (s.ticketConfig.untracked || decide (48 ≤ s.tkt.waiting.length) || s.waits n || s.bound n, .waitingFull)]
    id (fun tag => .issue tag) s

/-- ISSUE_TICKET (R75). -/
def execIssueTicket (s : State) : Host.Outcome State Fault Refusal := serve .issueTicket issueTicketOwner s

/-- CALL_NEXT at its owner (Table 4-4). -/
def callNextOwner (clerk : Byte) (s : State) : State :=
  requestFrame
    [(!clerkInRange clerk, .param), (s.notRunning, .wrongState), (s.day.behind, .dayBehind),
     (s.tkt.conflict, .ticketConflict), (!s.ticketConfig.untracked && s.tkt.waiting.isEmpty, .noWaiting),
     (holdsLines (s.order clerk.toNat), .clerkBusy)]
    id (fun tag => .call tag clerk.toNat) s

/-- CALL_NEXT (R78). -/
def execCallNext (clerk : Byte) (s : State) : Host.Outcome State Fault Refusal :=
  serve (.callNext clerk) (callNextOwner clerk) s

/-- PASS_TICKET at its owner (Table 4-5). -/
def passTicketOwner (clerk : Byte) (s : State) : State :=
  requestFrame
    [(!clerkInRange clerk, .param), (s.notRunning, .wrongState), (s.day.behind, .dayBehind),
     (s.tkt.conflict, .ticketConflict), (((s.order clerk.toNat).bind Order.ticket).isNone, .noOrder),
     (holdsLines (s.order clerk.toNat), .clerkBusy)]
    id (fun tag => .pass tag clerk.toNat) s

/-- PASS_TICKET (R81). -/
def execPassTicket (clerk : Byte) (s : State) : Host.Outcome State Fault Refusal :=
  serve (.passTicket clerk) (passTicketOwner clerk) s

/-- The data fields of a waiting list entry (R73). -/
def waitFields (e : WaitEntry) : List Field :=
  [.num 2 e.ticket, .optional 3 e.time, .optional 1 e.station, .num 1 e.passes]

/-- The now-serving record as a field (Table 4-2). -/
def servingField (r : Option NowServing) : Field :=
  match r with
  | none => .opt false [(2, 0), (1, 0), (1, 0)]
  | some r => .opt true [(2, r.ticket), (1, r.clerk), (1, r.station)]

/-- The data of READ_TICKETS (R85). -/
def ticketFields (s : State) : List Field :=
  [.optional 1 (s.tkt.config.map fun c => if c.untracked then 1 else 0), .optional 2 (s.tkt.config.map TicketConfig.wrap),
   .num 2 s.tkt.issued, .num 2 s.tkt.called, servingField s.tkt.nowServing, .flag s.tkt.conflict,
   .num 1 s.tkt.waiting.length]
  ++ s.tkt.waiting.flatMap waitFields

/-- READ_TICKETS at its owner (R85). -/
def readTicketsOwner (s : State) : State := answer .ok (ticketFields s) s

/-- READ_TICKETS (R85). -/
def execReadTickets (s : State) : Host.Outcome State Fault Refusal := serve .readTickets readTicketsOwner s

end Sys2Proof.Machine
end

