-- ==== Sys2Proof/Machine/Day.lean ====
section
/-! DEFINITION. DAY, the day unit (chapter 9): the judgement of day tags and carried days, the close of a business day
with its latch, the counter figures of DAYSUM frames, and the requests on the day. -/

namespace Sys2Proof.Machine

/-! ### Applying a frame of classes 1..7 -/

/-- The roster entry of another station added or refreshed (R60). -/
def refreshRoster (origin : Nat) (s : State) : State :=
  if origin = s.station then s
  else
    let e : RosterEntry := (Table.get s.lnk.roster origin).getD { day := none, lockout := none, age := 0 }
    { s with lnk.roster := Table.put s.lnk.roster origin { e with age := 0 } }

/-- A frame of classes 1..7 goes to the units of Table 0-2; the frames of other classes are not applied here. -/
def applyDayFrame (f : Frame) (own : Option TxFrame) (s : State) : State :=
  let origin := f.origin.toNat
  match f.payload with
  | .call p => applyCall origin p own s
  | .issue p => applyIssue origin p own s
  | .pass p => applyPass origin p own s
  | .txClose p => applyTxClose p own s
  | .txCancel p => applyTxCancel p own s
  | .voidLine p => applyVoid origin p own s
  | .item p => applyItem origin p s
  | .dayClose _ => s
  | .daysum _ => s
  | .daysumAsk _ => s
  | .censusAsk => s
  | .censusReply _ => s
  | .censusTx _ => s
  | .beacon _ => s

/-- The day tag that a frame of classes 1..7 carries. -/
def dayTagOf (p : Payload) : Nat :=
  match p with
  | .call q => q.tag.toNat
  | .issue q => q.tag.toNat
  | .pass q => q.tag.toNat
  | .txClose q => q.tag.toNat
  | .txCancel q => q.tag.toNat
  | .voidLine q => q.tag.toNat
  | .item q => q.tag.toNat
  | .dayClose _ => 0
  | .daysum _ => 0
  | .daysumAsk _ => 0
  | .censusAsk => 0
  | .censusReply _ => 0
  | .censusTx _ => 0
  | .beacon _ => 0

/-! ### Judging tags and days -/

/-- The outcomes of Table 9-1. -/
inductive TagJudgement where
  | now
  | deferred
  | behind
  | stale
  deriving DecidableEq, Repr, Inhabited

/-- The judgement of a day tag (Table 9-1). -/
def judgeTag (tag : Nat) (d : DayUnit) : TagJudgement :=
  if tag = dayTag d.day then .now
  else if tag = dayTag (nextDay d.day) then (if d.latch.isSome then .deferred else .behind)
  else .stale

/-- A later day has been heard: H is raised, and the first time the day-behind flag is set, DAY_BEHIND queued and a
fault reported (R161, R162). -/
def hearLaterDay (day : Nat) (s : State) : State :=
  let raised := { s with day.highest := if laterDay day s.day.highest then day else s.day.highest }
  if s.day.behind then raised
  else recordFault .dayBehind (queueEvent (.dayBehind day) { raised with day.behind := true })

/-- A frame placed in the deferred receive list, or discarded when it holds 8 (R166). -/
def deferFrame (f : Frame) (s : State) : State :=
  if s.day.deferred.length < 8 then { s with day.deferred := s.day.deferred ++ [f] }
  else raiseMismatch .deferredFull none none s

/-- An accepted frame of classes 1..7 judged by its tag, then applied, deferred or discarded (R59, R161). -/
def receiveDayFrame (f : Frame) (own : Option TxFrame) (s : State) : State :=
  match judgeTag (dayTagOf f.payload) s.day with
  | .now => applyDayFrame f own s
  | .deferred => deferFrame f s
  | .behind => hearLaterDay (nextDay s.day.day) s
  | .stale => s

/-- The business day that a BEACON or CENSUS_REPLY carries (R162): with a close latched the successor of D is
expected. -/
def compareDay (carried : Nat) (s : State) : State :=
  if laterDay carried s.day.day && !(s.day.latch.isSome && decide (carried = nextDay s.day.day)) then
    hearLaterDay carried s
  else s

/-! ### Close start (R167) -/

/-- Step 1: the latch is emptied, D moves, and the business day word is handed. -/
def moveDay (newDay : Nat) (s : State) : State :=
  hand (.recordWrite [(addrBusinessDay, BitVec.ofNat 32 newDay)]) { s with day.latch := none, day.day := newDay }

/-- A head of classes 1..7 whose attempt is under way is withdrawn and the station stops driving; between attempts there is
no withdrawal. A head removed leaves the next one an attempt count of 0 (R55, R57). A head of another class goes on
(assumption 43). -/
def withdrawHead (s : State) : State :=
  match s.lnk.queue with
  | [] => s
  | f :: _ =>
    if f.isDayScoped then
      { s with
        lnk.attempt := none
        lnk.drive := if s.lnk.attempt.isSome then .recessive else s.lnk.drive
        lnk.attemptCount := 0 }
    else s

/-- Step 3: every frame of classes 1..7 removed, and each settled by its unit in queue order (R57, R167). -/
def removeDayFrames (s : State) : State :=
  let removed := s.lnk.queue.filter TxFrame.isDayScoped
  let s1 := withdrawHead s
  let s2 := { s1 with lnk.queue := s.lnk.queue.filter fun f => !f.isDayScoped }
  removed.foldl (fun acc f => endFrame f .dayClosed acc) s2

/-- Step 4: the next label serial becomes 1 and the label word is written (R132). -/
def restartSerials (s : State) : State :=
  hand (.recordWrite [(addrLabel, labelWord 1 s.lbl.newest)]) { s with lbl.nextSerial := 1 }

/-- Step 5: the day-scoped raw values return to 0 (R177). -/
def clearDayScoped (s : State) : State := dayScoped.foldl (fun acc a => moveAttribute a 0 acc) s

/-- The roster snapshot: the station numbers of the roster, the own one included (R61). -/
def State.snapshot (s : State) : BitVec 16 :=
  BitVec.ofNat 16
    ((List.range 16).foldl
      (fun acc k => acc + if k = s.station ∨ (Table.get s.lnk.roster k).isSome then 2 ^ k else 0) 0)

/-- Step 6: the snapshot taken and the close copy handed; the copies pending, the newest slot and the held days move at
once (R147, R167). -/
def handCopy (closed : Nat) (c : LatchedClose) (s : State) : State :=
  let slot := ringNext 8 s.day.newestSlot
  let order : CopyOrder :=
    { slot := slot, day := closed, time := s.hpt.timeOfDay, late := c.late, forced := c.forced, snapshot := s.snapshot }
  hand (.closeCopy order)
    { s with
      day := { s.day with
        copiesPending := s.day.copiesPending + 1
        newestSlot := slot
        held := Table.put s.day.held slot closed } }

/-- Step 7: the day-behind flag stays set while H is later than the new D (R167). A clear flag is then set, since R159
has it set while H is later than D (assumption 37). -/
def settleBehind (s : State) : State :=
  if laterDay s.day.highest s.day.day then { s with day.behind := true }
  else { s with day.highest := s.day.day, day.behind := false }

/-- A deferred frame as if it had been accepted now (R166): the roster is refreshed first, then the frame goes to its
units, or is discarded as stale (R59, R60). -/
def applyDeferredFrame (s : State) (f : Frame) : State :=
  let s' := refreshRoster f.origin.toNat s
  if dayTagOf f.payload = dayTag s'.day.day then applyDayFrame f none s' else s'

/-- Step 8: the frames of the deferred receive list applied in order (R166). -/
def applyDeferred (s : State) : State := s.day.deferred.foldl applyDeferredFrame { s with day.deferred := [] }

/-- Close start: the eight steps in order (R167). -/
def startClose (c : LatchedClose) (s : State) : State :=
  let closed := s.day.day
  applyDeferred
    (settleBehind
      (handCopy closed c
        (clearDayScoped (restartSerials (removeDayFrames (freeAllOrders (emptyTicketView (moveDay c.newDay s))))))))

/-- A latched close starts when the capture unit is IDLE (R165). -/
def startLatched (s : State) : State :=
  match s.day.latch with
  | none => s
  | some c => if s.cap.capture = .idle then startClose c s else s

/-- A close that begins starts at once when the capture unit is IDLE and is latched otherwise (R164). -/
def beginClose (c : LatchedClose) (s : State) : State :=
  if s.cap.capture = .idle then startClose c s else { s with day.latch := some c }

/-- An applied DAYCLOSE, and the result with which its request completes (R163 to R165). -/
def applyDayClose (p : DayClosePayload) (own : Option TxFrame) (s : State) : State :=
  let x := p.day.toNat
  if x = s.day.day then
    completeOwn own .ok none
      (if s.day.latch.isSome then s
       else beginClose { newDay := nextDay s.day.day, late := false, forced := p.forced } s)
  else if laterDay x s.day.day then
    completeOwn own .ok none
      (match s.day.latch with
       | none => beginClose { newDay := nextDay x, late := true, forced := p.forced } s
       | some l => { s with day.latch := some { l with newDay := nextDay x, late := true } })
  else completeOwn own .dayClosed none s

/-- CLOSE_START (R165, R167): a close held by the latch starts when the capture unit is IDLE. The steps that bring the
capture unit to IDLE, or begin a close while it is IDLE, start theirs within themselves (assumption 15). -/
def execCloseStart (s : State) : Host.Outcome State Fault Refusal := .next (startLatched s)

/-! ### Day figures of the counter -/

/-- An applied DAYSUM: one counter update of the newest record held of its day (R173). -/
def applyDaysum (origin : Nat) (p : DaysumPayload) (s : State) : State :=
  match s.recordSlot p.day.toNat with
  | none => s
  | some slot =>
    hand (.counterUpdate slot p.day.toNat origin
      { itemAmount := p.itemAmount.toNat, itemCount := p.itemCount.toNat, customers := p.customers.toNat,
        voidAmount := p.voidAmount.toNat }) s

/-- An applied DAYSUM_ASK: a DAYSUM made due for a day held, and the sender's request completed (R174). -/
def applyDaysumAsk (day : BitVec 16) (own : Option TxFrame) (s : State) : State :=
  completeOwn own .ok none (if (s.recordSlot day.toNat).isSome then makeDaysumDue day.toNat s else s)

/-! ### Requests -/

/-- CLOSE_DAY at its owner (R163). -/
def closeDayOwner (forced : Byte) (s : State) : State :=
  requestFrame
    [(decide (1 < forced.toNat), .param), (s.notRunning, .wrongState), (s.day.behind, .dayBehind),
     (decide (forced.toNat = 0) && decide (0 < s.openOrders), .openOrders)]
    id (fun tag => .dayClose tag s.day.day (decide (forced.toNat = 1))) s

/-- CLOSE_DAY (R163). -/
def execCloseDay (forced : Byte) (s : State) : Host.Outcome State Fault Refusal :=
  serve (.closeDay forced) (closeDayOwner forced) s

/-- JOIN_DAY at its owner: the late close of D with H as the new day, within its taking (R169). -/
def joinDayOwner (s : State) : State :=
  if s.notRunning || !s.day.behind then refuse .wrongState s
  else if s.cap.capture ≠ .idle then refuse .busy s
  else startClose { newDay := s.day.highest, late := true, forced := false } (answer .ok [] s)

/-- JOIN_DAY (R169). -/
def execJoinDay (s : State) : Host.Outcome State Fault Refusal := serve .joinDay joinDayOwner s

/-- ASK_DAYSUM at its owner (R174). -/
def askDaysumOwner (day : BitVec 16) (s : State) : State :=
  requestFrame [(decide (day.toNat = 0), .param), (s.notRunning, .wrongState)] id
    (fun tag => .daysumAsk tag day.toNat) s

/-- ASK_DAYSUM (R174). -/
def execAskDaysum (day : BitVec 16) (s : State) : Host.Outcome State Fault Refusal :=
  serve (.askDaysum day) (askDaysumOwner day) s

end Sys2Proof.Machine
end

