-- ==== Sys2Proof/Machine/Capture.lean ====
section
/-! DEFINITION. CAP, the capture unit (chapters 2 and 6): captures, pricing, watches, posting, the held item, and their
requests and timers. -/

namespace Sys2Proof.Machine

/-! ### Watch slots (section 6.1) -/

/-- Watch slot `k`; a number above 3 names no slot and reads as slot 3. -/
def WatchSlots.get (w : WatchSlots) (k : Nat) : WatchSlot :=
  match k with
  | 0 => w.s0
  | 1 => w.s1
  | 2 => w.s2
  | _ => w.s3

/-- The slots with slot `k` replaced. -/
def WatchSlots.set (w : WatchSlots) (k : Nat) (v : WatchSlot) : WatchSlots :=
  match k with
  | 0 => { w with s0 := v }
  | 1 => { w with s1 := v }
  | 2 => { w with s2 := v }
  | 3 => { w with s3 := v }
  | _ => w

/-- Every slot changed by the same function of its number. -/
def WatchSlots.update (w : WatchSlots) (f : Nat → WatchSlot → WatchSlot) : WatchSlots :=
  { s0 := f 0 w.s0, s1 := f 1 w.s1, s2 := f 2 w.s2, s3 := f 3 w.s3 }

/-- A slot with its match flag cleared and serial 0 (R116). -/
def WatchSlot.cleared (v : WatchSlot) : WatchSlot := { v with matched := false, serial := 0 }

/-- The condition of a watch for a completed item (Table 6-1). -/
def Watch.holds (w : Watch) (i : Item) : Bool :=
  match w.kind with
  | .pluEqual => decide (i.request.plu = w.value)
  | .deptEqual => decide (i.request.dept = w.value)
  | .clerkEqual => decide (i.request.clerk = w.value)
  | .priceAtLeast => decide (w.value ≤ i.price)
  | .weightAtLeast =>
    match i.measure with
    | .weight _ _ _ _ display _ => decide ((w.value : Int) ≤ display)
    | .count _ => false

/-- A slot is a matching slot of an item (R118). -/
def WatchSlot.matches (v : WatchSlot) (i : Item) : Bool := (v.watch.map fun w => w.holds i).getD false

/-- The matching set: the matching slots with their action and enable flag (R118). -/
def matchingSet (w : WatchSlots) (i : Item) : List Match :=
  (List.range 4).filterMap fun k =>
    match (w.get k).watch with
    | none => none
    | some x => if x.holds i then some { slot := k, action := x.action, enable := x.enable } else none

/-- The match status after evaluation: flag set and serial 0 in each matching slot (R118). -/
def markMatches (i : Item) (w : WatchSlots) : WatchSlots :=
  w.update fun _ v => if v.matches i then { v with matched := true, serial := 0 } else v

/-- The label serial written back into the slots of a matching set whose flag is set with serial 0 (R119). -/
def writeSerials (set : List Match) (serial : Nat) (w : WatchSlots) : WatchSlots :=
  w.update fun k v =>
    if set.any (fun m => decide (m.slot = k)) && v.matched && decide (v.serial = 0) then { v with serial := serial }
    else v

/-- The enabled HOLD slots of a matching set (R121). -/
def holdSlots (set : List Match) : List Nat :=
  (set.filter fun m => m.enable && decide (m.action = .hold)).map Match.slot

/-- The enabled NOTE slots of a matching set (R121). -/
def noteSlots (set : List Match) : List Nat :=
  (set.filter fun m => m.enable && decide (m.action = .note)).map Match.slot

/-! ### Posting (section 2.7) -/

/-- The capture unit returns to IDLE, and a latched close starts (R25, R165). -/
def becomeIdle (s : State) : State := startLatched { s with cap.capture := .idle }

/-- The ITEM frame of a posted item (R43). -/
def itemFrame (i : Item) (serial : Nat) : ItemFrame :=
  { clerk := i.request.clerk, plu := i.request.plu, dept := i.request.dept,
    byCount := match i.measure with
      | .weight .. => false
      | .count _ => true
    price := i.price, measure := i.measure.amount, serial := serial, openAtCapture := i.openAtCapture }

/-- The ITEM frame offered for a clerk's item; refused, the item is late with reason LINK_FULL (R43). -/
def offerItem (i : Item) (serial : Nat) (s : State) : State :=
  if i.request.clerk = 0 then s
  else
    match s.offerRefusal with
    | none => enqueue (.item (itemFrame i serial)) s
    | some _ => lateItem (itemFrame i serial) .linkFull s

/-- The weight in grams that the totals count; absent for a counted item (R43). -/
def Measure.weight? (m : Measure) : Option Nat :=
  match m with
  | .weight _ _ _ _ display _ => some display.toNat
  | .count _ => none

/-- Posting, once its label place is claimed: label, totals, match status, WATCH_NOTE events, ITEM frame and
CAPTURE_DONE in this order; then IDLE (R42 to R44, R119, R121). -/
def postItem (i : Item) (set : List Match) (s : State) : State :=
  let serial := s.lbl.nextSerial
  let s1 := placeLabel i.request.clerk (.item i) s
  let s2 := hand (.itemPosting i.request.dept i.price i.measure.weight?) s1
  let s3 := { s2 with cap.slots := writeSerials set serial s2.cap.slots }
  let s4 := (noteSlots set).foldl (fun acc k => queueEvent (.watchNote k serial) acc) s3
  let s5 := offerItem i serial s4
  becomeIdle (queueEvent (.captureDone i.request.tag .ok serial) s5)

/-- An ending with a result other than OK; MOTION is one motion timeout (R33, R45). -/
def endCapture (tag : Nat) (result : ResultCode) (s : State) : State :=
  let s' := if result = .motion then raiseAttribute .motionTimeouts 1 s else s
  becomeIdle (queueEvent (.captureDone tag result 0) s')

/-! ### Completion (section 2.6) -/

/-- The base price P (R37). -/
def basePrice (m : Measure) (unitPrice : Nat) : Nat :=
  match m with
  | .weight _ _ _ _ display _ => weighedPrice display unitPrice
  | .count q => q * unitPrice

/-- The hold limit, 120 s (R122). -/
def holdTime : Nat := 120 * unitsPerSecond

/-- The item as completion fixes it: figures, prices, the open-at-capture flag and the ticket (R40, R41). -/
def completedItem (r : CaptureRequest) (m : Measure) (s : State) : Item :=
  let order := if r.clerk = 0 then none else s.order r.clerk
  { request := r, measure := m, basePrice := basePrice m r.unitPrice,
    price := roundPrice (basePrice m r.unitPrice) s.cap.rounding, openAtCapture := order.isSome,
    ticket := order.bind Order.ticket }

/-- Completion: the price limit, the watches, then the hold or the posting (R39, R40, R122). -/
def completeCapture (r : CaptureRequest) (m : Measure) (s : State) : State :=
  let i := completedItem r m s
  if priceLimit < i.price then endCapture r.tag .priceRange s
  else
    let set := matchingSet s.cap.slots i
    let s' := { s with cap.slots := markMatches i s.cap.slots }
    if holdSlots set ≠ [] then
      queueEvent (.itemHeld r.tag (holdSlots set)) { s' with cap.capture := .held i set holdTime }
    else if s'.lbl.free = 0 then endCapture r.tag .labelFull s'
    else postItem i set s'

/-! ### Waiting for a stable load (section 2.3) -/

/-- The item's tare and its source when a reading is judged (R32). -/
def chosenTare (r : CaptureRequest) (w : Weighing) : Option Nat × TareSource :=
  match r.pluTare with
  | some g => (some (10 * g), .plu)
  | none =>
    match w.tare with
    | some t => (some t, .station)
    | none => (none, .none)

/-- The figures of a stable reading for a waiting item (R10, R31, R32). -/
def readingMeasure (r : CaptureRequest) (gross : Int) (s : State) : Measure :=
  let tare := chosenTare r s.wch
  let net := gross - (tare.1.getD 0 : Nat)
  .weight gross tare.1 tare.2 net (s.figures.display net) (s.figures.interval net)

/-- A stable reading offered to the capture unit (R11, R31). -/
def stableReading (gross : Int) (s : State) : State :=
  match s.cap.capture with
  | .idle => s
  | .held .. => s
  | .waiting r _ timer =>
    if s.lockedOut then endCapture r.tag .locked s
    else
      let w := s.figures.display (gross - ((chosenTare r s.wch).1.getD 0 : Nat))
      if w < s.figures.minimum then { s with cap.capture := .waiting r .belowMin timer }
      else if (s.figures.max : Int) < w then { s with cap.capture := .waiting r .aboveMax timer }
      else completeCapture r (readingMeasure r gross s) s

/-- The result of a capture that times out (Table 2-4). -/
def timeoutResult (w : Weighing) (j : StableJudgement) : ResultCode :=
  if w.state = .sampleLost then .sampleLost
  else if !w.zeroTaken then .notZeroed
  else if w.state = .over ∨ j = .aboveMax then .over
  else if w.state = .under ∨ j = .belowMin then .underMin
  else .motion

/-- CAPTURE_TIMER_EXPIRY (R33): the timer runs only while WAITING. -/
def execCaptureTimerExpiry (s : State) : Host.Outcome State Fault Refusal :=
  match s.cap.capture with
  | .waiting r j _ => .next (endCapture r.tag (timeoutResult s.wch j) s)
  | .idle => .next s
  | .held .. => .next s

/-! ### Capture requests -/

/-- The ranges that WEIGH_ITEM and COUNT_ITEM share (R27, R28). -/
def itemInRange (clerk : Byte) (plu : BitVec 24) (dept : Byte) (price : BitVec 24) : Bool :=
  within 0 clerk.toNat 24 && within 1 plu.toNat 99999 && within 1 dept.toNat 8 && within 1 price.toNat 999999

/-- The refusals of Table 2-3; the range check and the lockout are the request's own. -/
def captureRefusals (inRange : Bool) (locked : Bool) (clerk : Nat) (s : State) : List (Bool × ResultCode) :=
  [(!inRange, .param), (s.notRunning, .wrongState), (decide (s.cap.capture ≠ .idle), .busy),
   (decide (0 < s.day.copiesPending), .dayClosing), (s.day.behind, .dayBehind), (locked, .locked),
   (decide (clerk ≠ 0) && decide ((s.order clerk).map Order.lineCount = some 40), .linesFull),
   (decide (clerk ≠ 0) && decide (s.lnk.state = .silent), .linkSilent)]

/-- The capture timeout as a time (R30). -/
def State.captureTime (s : State) : Nat := s.cap.timeout * unitsPerSecond

/-- The PLU tare of WEIGH_ITEM: its presence byte is 0 or 1, and a tare present lies in range (R27, R187). The two bytes of
an absent tare are not looked at (assumption 20). -/
def pluTareInRange (given : Byte) (tare : BitVec 16) (f : Figures) : Bool :=
  decide (given.toNat = 0) || (decide (given.toNat = 1) && f.tareInRange tare.toNat)

/-- WEIGH_ITEM at its owner (R29, R30). With the strap fault line 1 of Table 2-3 judges the tare with figures of 0
(assumption 11). -/
def weighItemOwner (clerk : Byte) (plu : BitVec 24) (dept : Byte) (price : BitVec 24) (given : Byte) (tare : BitVec 16)
    (s : State) : State :=
  let inRange := itemInRange clerk plu dept price && pluTareInRange given tare s.figures
  match (captureRefusals inRange s.lockedOut clerk.toNat s).find? Prod.fst with
  | some r => refuse r.2 s
  | none =>
    let request : CaptureRequest :=
      { tag := s.hpt.nextTag, clerk := clerk.toNat, plu := plu.toNat, dept := dept.toNat, unitPrice := price.toNat,
        pluTare := if given.toNat = 1 then some tare.toNat else none }
    acceptRequest { s with cap.capture := .waiting request .none s.captureTime }

/-- WEIGH_ITEM (R27, R29, R30). -/
def execWeighItem (clerk : Byte) (plu : BitVec 24) (dept : Byte) (price : BitVec 24) (given : Byte) (tare : BitVec 16)
    (s : State) : Host.Outcome State Fault Refusal :=
  serve (.weighItem clerk plu dept price given tare) (weighItemOwner clerk plu dept price given tare) s

/-- COUNT_ITEM at its owner: accepted and completed within its taking (R29, R36). -/
def countItemOwner (clerk : Byte) (plu : BitVec 24) (dept : Byte) (price : BitVec 24) (quantity : Byte) (s : State) :
    State :=
  let inRange := itemInRange clerk plu dept price && within 1 quantity.toNat 99
  match (captureRefusals inRange false clerk.toNat s).find? Prod.fst with
  | some r => refuse r.2 s
  | none =>
    let request : CaptureRequest :=
      { tag := s.hpt.nextTag, clerk := clerk.toNat, plu := plu.toNat, dept := dept.toNat, unitPrice := price.toNat,
        pluTare := none }
    completeCapture request (.count quantity.toNat) (acceptRequest s)

/-- COUNT_ITEM (R28, R29, R36). -/
def execCountItem (clerk : Byte) (plu : BitVec 24) (dept : Byte) (price : BitVec 24) (quantity : Byte) (s : State) :
    Host.Outcome State Fault Refusal :=
  serve (.countItem clerk plu dept price quantity) (countItemOwner clerk plu dept price quantity) s

/-- ABORT_CAPTURE at its owner (R34). -/
def abortCaptureOwner (s : State) : State :=
  if s.notRunning then refuse .wrongState s
  else
    match s.cap.capture with
    | .idle => refuse .notHeld s
    | .held .. => refuse .wrongState s
    | .waiting r _ _ => endCapture r.tag .aborted (answer .ok [] s)

/-- ABORT_CAPTURE (R34). -/
def execAbortCapture (s : State) : Host.Outcome State Fault Refusal := serve .abortCapture abortCaptureOwner s

/-! ### The held item (section 6.3) -/

/-- RELEASE_HELD at its owner (R124). -/
def releaseHeldOwner (s : State) : State :=
  if s.notRunning then refuse .wrongState s
  else
    match s.cap.capture with
    | .idle => refuse .notHeld s
    | .waiting .. => refuse .notHeld s
    | .held i set _ =>
      if i.measure.weight?.isSome && s.lockedOut then refuse .locked s
      else if s.lbl.free = 0 then refuse .labelFull s
      else postItem i set (answer .ok [] s)

/-- RELEASE_HELD (R124). -/
def execReleaseHeld (s : State) : Host.Outcome State Fault Refusal := serve .releaseHeld releaseHeldOwner s

/-- DISCARD_HELD at its owner (R125). -/
def discardHeldOwner (s : State) : State :=
  if s.notRunning then refuse .wrongState s
  else
    match s.cap.capture with
    | .idle => refuse .notHeld s
    | .waiting .. => refuse .notHeld s
    | .held .. => becomeIdle (postHeldDiscarded (answer .ok [] s))

/-- DISCARD_HELD (R125). -/
def execDiscardHeld (s : State) : Host.Outcome State Fault Refusal := serve .discardHeld discardHeldOwner s

/-- HOLD_TIMER_EXPIRY (R126): the timer runs only while HELD. -/
def execHoldTimerExpiry (s : State) : Host.Outcome State Fault Refusal :=
  match s.cap.capture with
  | .held .. => .next (becomeIdle (queueEvent .holdExpired (postHeldDiscarded s)))
  | .idle => .next s
  | .waiting .. => .next s

/-! ### Watch requests -/

/-- SET_WATCH at its owner (R117). -/
def setWatchOwner (slot form kind : Byte) (value : BitVec 24) (action enable : Byte) (s : State) : State :=
  if 3 < slot.toNat then refuse .param s
  else
    match watchOperands form kind value action enable with
    | none => refuse .param s
    | some contents =>
      answer .ok [] { s with
        cap.slots := s.cap.slots.set slot.toNat { watch := contents, matched := false, serial := 0 } }

/-- SET_WATCH (R117). -/
def execSetWatch (slot form kind : Byte) (value : BitVec 24) (action enable : Byte) (s : State) :
    Host.Outcome State Fault Refusal :=
  serve (.setWatch slot form kind value action enable) (setWatchOwner slot form kind value action enable) s

/-- CLEAR_WATCH_STATUS at its owner (R120): a set that is empty or names a slot above 3 is PARAM (assumption 14). -/
def clearWatchStatusOwner (set : Byte) (s : State) : State :=
  if set.toNat = 0 ∨ 15 < set.toNat then refuse .param s
  else
    answer .ok [] { s with
      cap.slots := s.cap.slots.update fun k v => if (slotsOf set).contains k then v.cleared else v }

/-- CLEAR_WATCH_STATUS (R120). -/
def execClearWatchStatus (set : Byte) (s : State) : Host.Outcome State Fault Refusal :=
  serve (.clearWatchStatus set) (clearWatchStatusOwner set) s

/-- The data fields of a slot (R128). -/
def slotFields (v : WatchSlot) : List Field :=
  [.num 1 (if v.watch.isSome then 1 else 0), .optional 1 (v.watch.map fun w => w.kind.number),
   .optional 3 (v.watch.map Watch.value), .optional 1 (v.watch.map fun w => w.action.number),
   .optional 1 (v.watch.map fun w => if w.enable then 1 else 0), .flag v.matched, .num 3 v.serial]

/-- The data fields of the held item (R128). The open-at-capture flag is present for an item with a clerk (R41,
Table 2-2), and the matching set is a list of its members, each with its action and enable flag (R118; assumption 35). The
weight takes the two bytes of its range in Table 7-1, since R128 and Table 2-2 give it none (assumption 10). -/
def heldFields (i : Item) (set : List Match) (timer : Nat) : List Field :=
  [.num 1 i.request.tag, .num 1 i.request.clerk, .num 3 i.request.plu, .num 1 i.request.dept, .num 1 i.measure.number]
  ++ measureFields (some i.measure)
  ++ [heldTareField i.measure, .num 3 i.request.unitPrice, .num 3 i.price, .optional 2 i.ticket,
      .optional 1 (if i.request.clerk = 0 then none else some (if i.openAtCapture then 1 else 0)), .num 1 set.length]
  ++ set.flatMap (fun m => [.num 1 m.slot, .num 1 m.action.number, .flag m.enable])
  ++ [.num 1 (timer / unitsPerSecond : Nat)]

/-- The data of READ_WATCHES (R128). -/
def watchFields (c : CaptureUnit) : List Field :=
  slotFields c.slots.s0 ++ slotFields c.slots.s1 ++ slotFields c.slots.s2 ++ slotFields c.slots.s3
    ++ [.num 1 c.capture.number]
    ++ match c.capture with
      | .held i set timer => heldFields i set timer
      | .idle => []
      | .waiting .. => []

/-- READ_WATCHES at its owner (R128). -/
def readWatchesOwner (s : State) : State := answer .ok (watchFields s.cap) s

/-- READ_WATCHES (R128). -/
def execReadWatches (s : State) : Host.Outcome State Fault Refusal := serve .readWatches readWatchesOwner s

end Sys2Proof.Machine
end

