-- ==== Sys2Proof/Machine/Weighing.lean ====
section
/-! DEFINITION. WCH, the weighing channel (chapter 1): sample arrivals, gross weight, the weighing state, zero and tare,
the sample watchdog, and the requests of the channel. -/

namespace Sys2Proof.Machine

/-! ### Figures -/

/-- The filter sum Σ (R3). -/
def Weighing.sum (w : Weighing) : Int := w.filter.sum

/-- The gross weight G, fine units (R8). -/
def Weighing.grossNow (w : Weighing) : Int :=
  rhaDiv ((w.sum - w.filterLength * (w.zcal + w.zadj)) * w.span) (w.filterLength * spanScale)

/-- The zero offset of an adjustment, fine units (R14). -/
def Weighing.zeroOffset (w : Weighing) (adjustment : Int) : Int := rhaDiv ((adjustment - w.zref) * w.span) spanScale

/-- The zero-use figure (R14). -/
def Weighing.zeroUse (w : Weighing) : Nat := (w.zeroOffset w.zadj).natAbs

/-- The adjustment that makes the filter's mean the zero (R15, R16, R18). -/
def Weighing.proposedZero (w : Weighing) : Int := rhaDiv w.sum w.filterLength - w.zcal

/-- A proposed adjustment kept within Cz of Zref (R17). -/
def Weighing.clamped (w : Weighing) (proposed : Int) : Int :=
  if w.clamp < proposed - w.zref then w.zref + w.clamp
  else if proposed - w.zref < -w.clamp then w.zref - w.clamp
  else proposed

/-- The tracking clamp Cz that CONFIGURE computes (R17). -/
def trackingClamp (bz span : Nat) : Int :=
  let start := rhaDiv ((bz * spanScale : Nat) : Int) span
  if bz < (rhaDiv (start * span) spanScale).natAbs then start - 1 else start

/-- The sample watchdog time, 4,000 ÷ S milliseconds (R12). -/
def watchdogTime (rate : Nat) : Nat := 4000 * unitsPerMilli / rate

/-- The net weight with the station tare (R9). -/
def Weighing.net (w : Weighing) (gross : Int) : Int := gross - (w.tare.getD 0 : Nat)

/-- The window's stability (R4). -/
def State.windowStable (s : State) : Bool := Machine.windowStable s.wch.window s.wch.windowLength s.figures.spread

/-- A value that joins a list of at most `n` and pushes the oldest out (R3, R4). -/
def pushed (l : List Int) (v : Int) (n : Nat) : List Int := (l ++ [v]).drop (l.length + 1 - n)

/-- The newest value of a list replaced (R16). -/
def replaceNewest (l : List Int) (v : Int) : List Int := l.dropLast ++ [v]

/-- The weighing state by lines 3 to 5 of Table 1-4. -/
def evaluated (f : Figures) (gross : Int) : WeighState :=
  if f.overload < gross then .over else if gross < f.underload then .under else .live

/-! ### Arrivals -/

/-- The weighing state replaced; an entry into OVER from another state is one overload entry (R5, R7). -/
def enterState (new : WeighState) (s : State) : State :=
  let s' := { s with wch.state := new }
  if new = .over ∧ s.wch.state ≠ .over then raiseAttribute .overloads 1 s' else s'

/-- The sample watchdog restarted (R12). -/
def restartWatchdog (s : State) : State := { s with wch.watchdog := some (watchdogTime s.wch.rate) }

/-- The new zero-use figure handed to the health monitor (R14, R177). -/
def handZeroUse (s : State) : State := moveAttribute .zeroUse s.wch.zeroUse s

/-- A converter limit code (R5). -/
def limitArrival (state : WeighState) (s : State) : State := enterState state (restartWatchdog s)

/-- A zero adjustment taken with the window emptied: the gross recomputed is its one value (R4, R15, R18). -/
def takeZero (adjustment : Int) (s : State) : State :=
  let w := { s.wch with zadj := adjustment }
  { s with wch := { w with gross := some w.grossNow, window := [w.grossNow] } }

/-- The initial zero (R15). -/
def takeInitialZero (s : State) : State :=
  let zero := s.wch.proposedZero
  let s1 := takeZero zero { s with wch.zref := zero, wch.zeroTaken := true }
  handZeroUse (enterState (evaluated s.figures s1.wch.grossNow) s1)

/-- The conditions of a tracking change (R16). -/
def State.mayTrack (s : State) : Bool :=
  s.wch.tracking && s.wch.zeroTaken && decide (s.wch.state = .live) && s.windowStable && s.wch.tare.isNone
    && decide ((s.wch.gross.getD 0).natAbs ≤ s.figures.trackingWindow)

/-- A tracking change: the newest window value is replaced and the state re-judged (R16). -/
def trackingChange (zero : Int) (s : State) : State :=
  let w := { s.wch with zadj := zero }
  let g := w.grossNow
  handZeroUse
    (enterState (evaluated s.figures g) { s with wch := { w with gross := some g, window := replaceNewest w.window g } })

/-- The tracking test of every S-th arrival (R16, R17). -/
def trackingTest (s : State) : State :=
  if s.wch.trackCount < s.wch.rate then s
  else
    let s' := { s with wch.trackCount := 0 }
    let zero := s'.wch.clamped s'.wch.proposedZero
    if s'.mayTrack && decide (zero ≠ s'.wch.zadj) then trackingChange zero s' else s'

/-- The evaluation of an arrival that finds the filter complete (R6, R7, R15). -/
def evaluateArrival (s : State) : State :=
  let g := s.wch.grossNow
  let s1 := { s with wch.gross := some g, wch.window := pushed s.wch.window g s.wch.windowLength }
  let s2 :=
    if s1.wch.zeroTaken then enterState (evaluated s1.figures g) s1
    else if s1.windowStable && decide (g.natAbs ≤ s1.figures.initialBand) then takeInitialZero s1
    else enterState .zeroWait s1
  trackingTest s2

/-- SAMPLES_RESTORED at the arrival that completes the filter after a loss (R13). -/
def restoreSamples (s : State) : State :=
  if s.wch.restorePending then queueEvent .samplesRestored { s with wch.restorePending := false } else s

/-- The stable reading of an arrival that leaves the state LIVE with the window stable (R11). -/
def offerReading (s : State) : State :=
  if s.wch.state = .live ∧ s.windowStable = true then stableReading (s.wch.gross.getD 0) s else s

/-- An ordinary arrival (R6). -/
def ordinaryArrival (count : Int) (s : State) : State :=
  let s1 := restartWatchdog { s with
    wch.filter := pushed s.wch.filter count s.wch.filterLength
    wch.trackCount := s.wch.trackCount + 1 }
  if s1.wch.filter.length < s1.wch.filterLength then enterState .filling s1
  else offerReading (restoreSamples (evaluateArrival s1))

/-- WCH weighs in JOINING and RUNNING only (R1). -/
def State.weighs (s : State) : Bool :=
  s.working && (decide (s.hpt.runState = .joining) || decide (s.hpt.runState = .running))

/-- One arrival, by its code (R5, R6). -/
def arrival (count : Int) (s : State) : State :=
  if count = 8388607 then limitArrival .over s
  else if count = -8388608 then limitArrival .under s
  else ordinaryArrival count s

/-- SAMPLE_ARRIVAL (R1, R5, R6, R197): a frame of other than 24 bits is no arrival. -/
def execSampleArrival (bits : Nat) (value : BitVec 24) (s : State) : Host.Outcome State Fault Refusal :=
  .next (if bits = 24 ∧ s.weighs = true then arrival value.toInt s else s)

/-! ### The sample watchdog -/

/-- The sample watchdog has run out (R12). -/
def loseSamples (s : State) : State :=
  let s' := { s with
    wch := { s.wch with
      state := .sampleLost, filter := [], window := [], gross := none, trackCount := 0, watchdog := none,
      restorePending := true } }
  if s.wch.restorePending then s' else recordFault .samplesLost (queueEvent .samplesLost s')

/-- SAMPLE_WATCHDOG_EXPIRY (R12): a watchdog that is stopped, or that an arrival taken first has just restarted, does
not run out. -/
def execSampleWatchdogExpiry (s : State) : Host.Outcome State Fault Refusal :=
  .next (if hasRun s.wch.watchdog (watchdogTime s.wch.rate) && decide (s.wch.state ≠ .sampleLost) then loseSamples s else s)

/-- Weighing begins at START and RESTART (R1, R13, R21, R24). -/
def beginWeighing (s : State) : State :=
  { s with
    wch := { s.wch with
      filter := [], window := [], gross := none, state := .filling, tare := none, trackCount := 0,
      watchdog := some (watchdogTime s.wch.rate), restorePending := false } }

/-! ### Zero and tare requests -/

/-- ZERO at its owner, its checks in the order of R18. -/
def zeroOwner (s : State) : State :=
  if s.notRunning || decide (s.wch.state ≠ .live) then refuse .wrongState s
  else if !s.windowStable then refuse .motion s
  else if s.wch.tare.isSome then refuse .tarePresent s
  else
    let zero := s.wch.proposedZero
    if s.figures.zeroBand < (s.wch.zeroOffset zero).natAbs then refuse .zeroRange s
    else handZeroUse (takeZero zero (answer .ok [] s))

/-- ZERO (R18). -/
def execZero (s : State) : Host.Outcome State Fault Refusal := serve .zero zeroOwner s

/-- The gross weight rounded to e1, in fine units (R19). -/
def roundedTare (f : Figures) (gross : Int) : Int := 10 * f.e1 * rhaDiv gross (10 * f.e1)

/-- TARE_WEIGH at its owner, its checks in the order of R19. -/
def tareWeighOwner (s : State) : State :=
  if s.notRunning || decide (s.wch.state ≠ .live) then refuse .wrongState s
  else if !s.windowStable then refuse .motion s
  else
    let g := s.wch.gross.getD 0
    let t := roundedTare s.figures g
    if g ≤ 0 ∨ (s.figures.changePoint : Int) < g ∨ t = 0 then refuse .param s
    else answer .ok [] { s with wch.tare := some t.toNat }

/-- TARE_WEIGH (R19). -/
def execTareWeigh (s : State) : Host.Outcome State Fault Refusal := serve .tareWeigh tareWeighOwner s

/-- TARE_SET at its owner (R20). -/
def tareSetOwner (grams : BitVec 16) (s : State) : State :=
  if s.notRunning then refuse .wrongState s
  else if grams.toNat = 0 ∨ s.figures.tareInRange grams.toNat = false then refuse .param s
  else answer .ok [] { s with wch.tare := some (10 * grams.toNat) }

/-- TARE_SET (R20). -/
def execTareSet (grams : BitVec 16) (s : State) : Host.Outcome State Fault Refusal :=
  serve (.tareSet grams) (tareSetOwner grams) s

/-- TARE_CLEAR at its owner (R21). -/
def tareClearOwner (s : State) : State :=
  if s.notRunning then refuse .wrongState s else answer .ok [] { s with wch.tare := none }

/-- TARE_CLEAR (R21). -/
def execTareClear (s : State) : Host.Outcome State Fault Refusal := serve .tareClear tareClearOwner s

/-! ### READ_WEIGHT -/

/-- A field present under a condition, with its number; 0 when absent (R187). -/
def Field.present (width : Nat) (p : Bool) (v : Int) : Field := .opt p [(width, if p then v else 0)]

/-- The data of READ_WEIGHT (Table 1-10). The division is sent as its grams in one byte (assumption 10). -/
def weightFields (s : State) : List Field :=
  let w := s.wch
  let g := w.gross.getD 0
  let net := w.net g
  let live := decide (w.state = .live)
  let weighed := live || decide (w.state = .zeroWait)
  [.num 1 w.state.number, .flag (weighed && s.windowStable), .flag w.zeroTaken, .present 4 weighed g,
   .optional 3 w.tare, .present 4 live net, .present 4 live (s.figures.display net),
   .present 1 live (s.figures.interval net), .num 2 w.zeroUse]

/-- READ_WEIGHT at its owner (R22). -/
def readWeightOwner (s : State) : State := answer .ok (weightFields s) s

/-- READ_WEIGHT (R22). -/
def execReadWeight (s : State) : Host.Outcome State Fault Refusal := serve .readWeight readWeightOwner s

end Sys2Proof.Machine
end

