-- ==== Sys2Proof/Machine/Frames.lean ====
section
/-! DEFINITION. LNK at the end of a frame (sections 3.5 to 3.9): acceptance, the roster, damaged frames and objections,
the census answers, and the timers of the link. -/

namespace Sys2Proof.Machine

/-! ### Acceptance -/

/-- The beacon time, 5 s (R63). -/
def beaconTime : Nat := 5 * unitsPerSecond

/-- The beacon timer restarted while it may run (R63). -/
def restartBeacon (s : State) : State :=
  { s with lnk.beaconTimer := if s.lnk.state = .live then some beaconTime else s.lnk.beaconTimer }

/-- The sender's part at acceptance: the frame leaves the queue, the counts return to 0, the beacon timer restarts and
the backlog moves up (R50, R56, R63, R67). -/
def takeOwnFrame (s : State) : State :=
  moveBacklog (restartBeacon { stopSending (dropHead s) with lnk.clash := 0 })

/-- The accepted frame is the one this station is sending (assumption 12). -/
def State.sends (s : State) (f : Frame) : Bool := decide (s.lnk.attempt = some f)

/-- The fields that a BEACON or CENSUS_REPLY sets in the entry of its origin (R60). -/
def setRoster (origin day : Nat) (lockout : Option Bool) (s : State) : State :=
  if origin = s.station then s
  else
    match Table.get s.lnk.roster origin with
    | none => s
    | some e =>
      let e' : RosterEntry := { e with day := some day, lockout := lockout.or e.lockout }
      { s with lnk.roster := Table.put s.lnk.roster origin e' }

/-- The station receives frames: it works and its link state is not OFF (R58). -/
def State.receives (s : State) : Bool := s.working && decide (s.lnk.state ≠ .off)

/-- The station objects to damaged frames: JOINING or LIVE (R58, R68). -/
def State.objects (s : State) : Bool := decide (s.lnk.state = .joining ∨ s.lnk.state = .live)

/-- A damaged frame of a defined class discarded, and objected to by a station that may (R58). -/
def discardDamaged (drive : LinkDrive) (s : State) : State :=
  let s' := stopSending s
  if s.objects then { s' with lnk.drive := drive } else s'

/-- An accepted frame at this station (R56, R58, R59): a payload out of range makes it a damaged frame (assumption 13);
otherwise the sender takes it off its queue, the roster is refreshed and the frame is applied. An attempt under way for
another frame has ended lost (assumption 12). -/
def acceptFrame (f : Frame) (apply : Option TxFrame → State → State) (s : State) : State :=
  if !s.receives then s
  else if !payloadInRange f.payload then discardDamaged .objectionSlot s
  else
    let own := if s.sends f then s.lnk.queue.head? else none
    let s' := if s.sends f then takeOwnFrame s else stopSending s
    apply own (refreshRoster f.origin.toNat s')

/-- An accepted frame of classes 1..7 (R59, R161). -/
def acceptDayFrame (f : Frame) (s : State) : State := acceptFrame f (fun own => receiveDayFrame f own) s

/-- DAYCLOSE_ACCEPTED (R164). -/
def execDayCloseAccepted (origin : BitVec 4) (p : DayClosePayload) (s : State) : Host.Outcome State Fault Refusal :=
  .next (acceptFrame ⟨origin, .dayClose p⟩ (applyDayClose p) s)

/-- CALL_ACCEPTED (R80, R94). -/
def execCallAccepted (origin : BitVec 4) (p : TicketPayload) (s : State) : Host.Outcome State Fault Refusal :=
  .next (acceptDayFrame ⟨origin, .call p⟩ s)

/-- ISSUE_ACCEPTED (R77). -/
def execIssueAccepted (origin : BitVec 4) (p : IssuePayload) (s : State) : Host.Outcome State Fault Refusal :=
  .next (acceptDayFrame ⟨origin, .issue p⟩ s)

/-- PASS_ACCEPTED (R83, R95). -/
def execPassAccepted (origin : BitVec 4) (p : TicketPayload) (s : State) : Host.Outcome State Fault Refusal :=
  .next (acceptDayFrame ⟨origin, .pass p⟩ s)

/-- TXCLOSE_ACCEPTED (R99). -/
def execTxCloseAccepted (origin : BitVec 4) (p : TxClosePayload) (s : State) : Host.Outcome State Fault Refusal :=
  .next (acceptDayFrame ⟨origin, .txClose p⟩ s)

/-- TXCANCEL_ACCEPTED (R100). -/
def execTxCancelAccepted (origin : BitVec 4) (p : TxCancelPayload) (s : State) : Host.Outcome State Fault Refusal :=
  .next (acceptDayFrame ⟨origin, .txCancel p⟩ s)

/-- VOID_ACCEPTED (R98). -/
def execVoidAccepted (origin : BitVec 4) (p : VoidPayload) (s : State) : Host.Outcome State Fault Refusal :=
  .next (acceptDayFrame ⟨origin, .voidLine p⟩ s)

/-- ITEM_ACCEPTED (R96, R97). -/
def execItemAccepted (origin : BitVec 4) (p : ItemPayload) (s : State) : Host.Outcome State Fault Refusal :=
  .next (acceptDayFrame ⟨origin, .item p⟩ s)

/-- DAYSUM_ACCEPTED (R173). -/
def execDaysumAccepted (origin : BitVec 4) (p : DaysumPayload) (s : State) : Host.Outcome State Fault Refusal :=
  .next (acceptFrame ⟨origin, .daysum p⟩ (fun _ => applyDaysum origin.toNat p) s)

/-- DAYSUM_ASK_ACCEPTED (R174). -/
def execDaysumAskAccepted (origin : BitVec 4) (day : BitVec 16) (s : State) : Host.Outcome State Fault Refusal :=
  .next (acceptFrame ⟨origin, .daysumAsk day⟩ (applyDaysumAsk day) s)

/-- LNK's part in a CENSUS_ASK: a RUNNING and LIVE station answers another station's (R65). -/
def applyCensusAsk (own : Option TxFrame) (s : State) : State :=
  if own.isNone ∧ s.hpt.runState = .running ∧ s.lnk.state = .live then makeCensusDue s else s

/-- CENSUS_ASK_ACCEPTED (R65). -/
def execCensusAskAccepted (origin : BitVec 4) (s : State) : Host.Outcome State Fault Refusal :=
  .next (acceptFrame ⟨origin, .censusAsk⟩ applyCensusAsk s)

/-- A CENSUS_REPLY at the units that own its fields: roster, TKT, CLT, DAY (R60, R87, R110, R162). -/
def applyCensusReply (origin : Nat) (p : CensusReplyPayload) (s : State) : State :=
  compareDay p.day.toNat
    (noteOpenCount p.openOrders.toNat
      (applyFigures
        { config := flaggedConfig p.untracked p.wrap999, issued := p.issued.toNat, called := p.called.toNat }
        (setRoster origin p.day.toNat none s)))

/-- CENSUS_REPLY_ACCEPTED (R87, R89, R162). -/
def execCensusReplyAccepted (origin : BitVec 4) (p : CensusReplyPayload) (s : State) :
    Host.Outcome State Fault Refusal :=
  .next (acceptFrame ⟨origin, .censusReply p⟩ (fun _ => applyCensusReply origin.toNat p) s)

/-- CENSUS_TX_ACCEPTED (R88, R110). -/
def execCensusTxAccepted (origin : BitVec 4) (p : CensusTxPayload) (s : State) : Host.Outcome State Fault Refusal :=
  .next (acceptFrame ⟨origin, .censusTx p⟩ (fun _ => applyCensusTx p) s)

/-- A BEACON at the units that own its fields: roster, TKT, DAY (R60, R87, R89, R162). -/
def applyBeacon (origin : Nat) (p : BeaconPayload) (s : State) : State :=
  compareDay p.day.toNat
    (applyFigures
      { config := flaggedConfig p.untracked p.wrap999, issued := p.issued.toNat, called := p.called.toNat }
      (setRoster origin p.day.toNat (some p.lockedOut) s))

/-- BEACON_ACCEPTED (R60, R87, R89, R162). -/
def execBeaconAccepted (origin : BitVec 4) (p : BeaconPayload) (s : State) : Host.Outcome State Fault Refusal :=
  .next (acceptFrame ⟨origin, .beacon p⟩ (fun _ => applyBeacon origin.toNat p) s)

/-! ### Damaged frames -/

/-- A frame of class 14 or 15, which is not defined (R47). -/
def undefinedClass (r : RawFrame) : Bool := decide (14 ≤ receivedClass r)

/-- FRAME_DAMAGED (R58): discarded; objected to in the objection slot, or for a truncated frame at the truncation.
Frames of class 14 and 15 are discarded without objection. An envelope that is well formed is no damaged frame, and the
command does nothing (assumption 13). A truncated frame too has a whole arbitration field, from which its class is judged
(assumption 36). -/
def execFrameDamaged (r : RawFrame) (s : State) : Host.Outcome State Fault Refusal :=
  .next (
    if !s.receives || (receivedFrame r).isSome then s
    else if undefinedClass r then stopSending s
    else discardDamaged (if r.truncated then .objectionTruncated else .objectionSlot) s)

/-! ### Link timers -/

/-- BEACON_TIMER_EXPIRY (R63): a BEACON when the queue is empty, and the timer restarted either way. The timer runs only
while the link is LIVE, and one that an own acceptance taken first has just restarted does not run out. -/
def execBeaconTimerExpiry (s : State) : Host.Outcome State Fault Refusal :=
  .next (
    if hasRun s.lnk.beaconTimer beaconTime && decide (s.lnk.state = .live) then
      restartBeacon (if s.lnk.queue.isEmpty then enqueue .beacon s else s)
    else s)

/-- The census window ends (R66, R110). -/
def endCensus (s : State) : State :=
  let live := decide (s.lnk.state = .joining)
  judgeCensus { s with
    hpt.runState := .running
    lnk := { s.lnk with
      state := if live then .live else s.lnk.state
      censusTimer := none
      beaconTimer := if live then some beaconTime else s.lnk.beaconTimer } }

/-- CENSUS_TIMER_EXPIRY (R66): the timer runs in JOINING, and a stopped timer does not run out. -/
def execCensusTimerExpiry (s : State) : Host.Outcome State Fault Refusal :=
  .next (if s.lnk.censusTimer.isSome && decide (s.hpt.runState = .joining) then endCensus s else s)

/-- ROSTER_AGE_EXPIRY (R61): the entry of a station not heard for 20 s is removed; the own entry is none of those. An
entry that a frame taken first has just refreshed is kept: its age is 0 (assumption 3). -/
def execRosterAgeExpiry (station : BitVec 4) (s : State) : Host.Outcome State Fault Refusal :=
  .next (
    match Table.get s.lnk.roster station.toNat with
    | none => s
    | some e => if e.age = 0 then s else { s with lnk.roster := Table.del s.lnk.roster station.toNat })

/-- The link as START and RESTART set it: JOINING with the CENSUS_ASK placed and the census timer at 400 ms (R64,
Table 3-9). -/
def Link.joining : Link :=
  { Link.atReset with
    state := .joining
    queue := [.censusAsk]
    censusTimer := some (400 * unitsPerMilli) }

/-! ### READ_ROSTER -/

/-- The own roster entry, formed when it is read (R60). -/
def State.ownEntry (s : State) : RosterEntry := { day := some s.day.day, lockout := some s.lockedOut, age := 0 }

/-- The data fields of a roster entry (R60). The last-heard age is sent in whole seconds, rounded down (assumption 10). -/
def rosterFields (station : Nat) (e : RosterEntry) : List Field :=
  [.num 1 station, .optional 2 e.day, .optional 1 (e.lockout.map fun b => if b then 1 else 0),
   .num 1 (e.age / unitsPerSecond : Nat)]

/-- The whole roster, the own entry included (R60). -/
def State.roster (s : State) : Table RosterEntry := Table.put s.lnk.roster s.station s.ownEntry

/-- The data of READ_ROSTER (R62). -/
def readRosterFields (s : State) : List Field :=
  (.num 1 s.roster.length :: s.roster.flatMap fun e => rosterFields e.1 e.2)
  ++ [.num 1 s.lnk.state.number, .num 1 s.lnk.clash, .num 1 s.lnk.requestFrames, .num 1 s.lnk.stationFrames]

/-- READ_ROSTER at its owner (R62). -/
def readRosterOwner (s : State) : State := answer .ok (readRosterFields s) s

/-- READ_ROSTER (R62). -/
def execReadRoster (s : State) : Host.Outcome State Fault Refusal := serve .readRoster readRosterOwner s

end Sys2Proof.Machine
end

