-- ==== Sys2Proof/Machine/TotalsStore.lean ====
section
/-! DEFINITION. TST, the totals store (chapter 8), with the answers that wait for its reads: finds and the error latch,
the performing of listed operations, scrub, the ends of the walks with the loads of store preparation (R139, R160, R180),
and the requests READ_TOTALS, CLEAR_STORE_LATCH, READ_DAY_RECORD and READ_FAULTS. -/

namespace Sys2Proof.Machine

/-! ### Finds -/

/-- A find handled: the latch by R148; a repair is one corrected error; a new uncorrectable find queues STORE_ERROR,
reports one uncorrectable error and a STORE fault (R149). -/
def handleFind (f : Find) (s : State) : State :=
  match f.judge with
  | .sound => s
  | .corrected =>
    let s' := { s with tst.latch := s.tst.latch.take f.address .corrected }
    if f.repaired then raiseAttribute .storeErrors 1 s' else s'
  | .uncorrectable =>
    if s.tst.latch = .uncorrectable f.address then s
    else
      let s' := recordFault .store (raiseAttribute .storeErrors 25 (queueEvent (.storeError f.address f.kind) s))
      { s' with tst.latch := s'.tst.latch.take f.address .uncorrectable }

/-- Finds handled in the order they were made. -/
def handleFinds (finds : List Find) (s : State) : State := finds.foldl (fun acc f => handleFind f acc) s

/-! ### Answers that wait for a read -/

/-- An answer placed when the slot still waits for it. -/
def answerAwaited (answered : State → State) (s : State) : State :=
  if s.hpt.slot = .awaiting then answered s else s

/-- A judged word as response fields: its data, then its judgement flag (R157, R171). -/
def judgedField (width : Nat) (j : JudgedWord) : List Field :=
  [.num width j.data, .flag (decide (j.judge = .uncorrectable))]

/-- The addresses that a group of READ_TOTALS reads (R157). -/
def totalsAddresses (g : TotalsGroup) : List Nat :=
  match g with
  | .departments => (List.range 24).map addrRunning
  | .clerks => (List.range 48).map fun k => addrRunning (24 + k)
  | .station => (List.range 13).map fun k => addrRunning (offItemAmount + k)
  | .store => []

/-- The latch as response fields: its state and its address. -/
def ErrorLatch.fields (l : ErrorLatch) : List Field :=
  match l with
  | .empty => [.num 1 0, .optional 2 none]
  | .corrected a => [.num 1 1, .optional 2 (some a)]
  | .uncorrectable a => [.num 1 2, .optional 2 (some a)]

/-- The walk result as response fields (R155). -/
def walkResultFields (r : WalkResult) : List Field :=
  [.num 1 r.kind.number, .num 4 r.corrected, .num 4 r.uncorrectable]

/-- The answer of READ_TOTALS (R157). Of the flags word the three flags are returned (assumption 49). Group STORE names no
word; its latch, scrub pointer, pending count and walk result are those at the turn of its read in the operation list,
before the pending scrub steps run (assumption 42). -/
def totalsAnswer (g : TotalsGroup) (words : List JudgedWord) (s : State) : State :=
  match g with
  | .departments => answer .ok (words.flatMap (judgedField 4)) s
  | .clerks => answer .ok (words.flatMap (judgedField 4)) s
  | .station =>
    let control := (words[12]?.map JudgedWord.data).getD 0
    answer .ok ((words.take 12).flatMap (judgedField 4)
      ++ [.flag (hasFlag control flagTotalsLost), .flag (hasFlag control flagUncorrectableSeen),
          .flag (hasFlag control flagAmountLimit)]) s
  | .store =>
    answer .ok (s.tst.latch.fields ++ [.num 2 s.tst.scrubPointer, .num 1 s.tst.scrubPending]
      ++ walkResultFields s.tst.walkResult) s

/-- The answer of READ_DAY_RECORD (R171): the judgement flag of a word follows its last field (assumption 10). The slot is
empty when its business day is read as 0, also from a word read UNCORRECTABLE (assumption 38). Of an UNCORRECTABLE word of
offsets 85..88 the bits that its fields have places for are returned as found; wrong bits above them are dropped
(assumption 49). -/
def dayRecordAnswer (slot : Nat) (words : List JudgedWord) (s : State) : State :=
  let w (k : Nat) : JudgedWord := words[k]?.getD { address := 0, judge := .sound, data := 0 }
  let mark (k : Nat) : Field := .flag (decide ((w k).judge = .uncorrectable))
  let flags := (w offFlags).data
  if (w offDay).data = 0 then refuse .empty s
  else
    answer .ok
      ([.num 1 slot, .num 2 (w offDay).data, mark offDay, .num 3 (w offTime).data, mark offTime,
        .flag (hasFlag flags flagLate), .flag (hasFlag flags flagForced), .flag (hasFlag flags flagTotalsLost),
        .flag (hasFlag flags flagUncorrectableSeen), .flag (hasFlag flags flagAmountLimit), mark offFlags]
      ++ (words.take 84).flatMap (judgedField 4)
      ++ [.num 2 ((w offSnapshot).data % 65536), mark offSnapshot,
          .num 2 ((w offContributors).data % 65536), .flag (hasFlag (w offContributors).data flagCompletion),
          mark offContributors]
      ++ judgedField 4 (w offSumItemAmount) ++ judgedField 4 (w offSumItemCount)
      ++ judgedField 4 (w offSumCustomers) ++ judgedField 4 (w offSumVoidAmount)) s

/-- A preceding request of a fault entry as a response field (Table 10-5). -/
def precedingField (codes params k : Nat) : Field :=
  let code := codes / 256 ^ k % 256
  .opt (decide (code ≠ 0)) [(1, code), (4, params)]

/-- The answer of READ_FAULTS (R184). The slot is empty when its kind is read as 0, also from a word read UNCORRECTABLE
(assumption 38). Of an UNCORRECTABLE word the bits that its fields have places for are returned as found; wrong bits above
them are dropped (assumption 49). -/
def faultAnswer (count newest slot : Nat) (words : List JudgedWord) (s : State) : State :=
  let w (k : Nat) : Nat := (words[k]?.map JudgedWord.data).getD 0
  if w 0 % 256 = 0 then refuse .empty s
  else
    answer .ok
      [.num 2 count, .num 1 newest, .num 1 slot, .num 1 (w 0 % 256), .num 3 (w 1), .num 2 (w 2),
       .num 1 (w 0 / 256 % 256), .num 1 (w 0 / 65536 % 256),
       precedingField (w 3) (w 4) 0, precedingField (w 3) (w 5) 1, precedingField (w 3) (w 6) 2,
       .flag (words.any fun j => decide (j.judge = .uncorrectable))] s

/-- The figures of a DAYSUM from its read; a word read UNCORRECTABLE is sent as 0 (R172). -/
def daysumFigures (words : List JudgedWord) : DayFigures :=
  let w (k : Nat) : Nat :=
    (words[k]?.map fun j => if j.judge = .uncorrectable then 0 else j.data).getD 0
  { itemAmount := w 0, itemCount := w 1, customers := w 2, voidAmount := w 3 }

/-- A DAYSUM takes its figures from its own read alone (R172); every other frame is left. -/
def TxFrame.filled (read : Nat) (figures : DayFigures) (f : TxFrame) : TxFrame :=
  match f with
  | .daysum day r none => .daysum day r (if r = read then some figures else none)
  | other => other

/-- The DAYSUM of a read, wherever it stands in the queue, takes its figures from it (R172). -/
def fillDaysum (read : Nat) (figures : DayFigures) (s : State) : State :=
  { s with lnk.queue := s.lnk.queue.map (TxFrame.filled read figures) }

/-- The end of a read: its request is answered, or its DAYSUM filled; a head that waited for it on an idle line is
formed now (R144, R172). The line is taken as still idle then, unless the end of another frame was commanded since it was
found idle: no row tells of another station's start bit (R46; assumption 53). -/
def finishRead (purpose : ReadPurpose) (words : List JudgedWord) (s : State) : State :=
  match purpose with
  | .journal newest slot => answerAwaited (journalAnswer newest slot words) s
  | .totals g => answerAwaited (totalsAnswer g words) s
  | .dayRecord slot => answerAwaited (dayRecordAnswer slot words) s
  | .fault count newest slot => answerAwaited (faultAnswer count newest slot words) s
  | .daysum read =>
    let s' := fillDaysum read (daysumFigures words) s
    if s'.lnk.formWaiting && s'.lnk.attempt.isNone && s'.maySend then beginAttempt { s' with lnk.formWaiting := false }
    else s'

/-! ### Performing operations -/

/-- What the blocks do at the end of an operation: reads are answered, a completed counter section is reported (R173),
and the end of a close copy is reported with its DAYSUM made due (R168). -/
def finishOp (op : Op) (e : OpEffect) (s : State) : State :=
  match op with
  | .read _ purpose => finishRead purpose e.words s
  | .update _ => s
  | .itemPosting .. => s
  | .journalAppend .. => s
  | .takenFlag .. => s
  | .counterUpdate _ day _ _ => if e.complete then queueEvent (.counterComplete day) s else s
  | .recordWrite _ => s
  | .closeCopy c =>
    makeDaysumDue c.day (queueEvent (.dayClosed c.day c.late)
      { s with day.copiesPending := s.day.copiesPending - 1 })

/-- A scrub step (R152). -/
def scrubStep (s : State) : State :=
  let a := s.tst.scrubPointer
  let j := Memory.read s.tst.mem a
  let s' := { s with tst.scrubPointer := (a + 1) % 2048 }
  match j.judge with
  | .sound => s'
  | .corrected =>
    handleFind ⟨a, .corrected, .scrub, true⟩ { s' with tst.mem := Memory.write s'.tst.mem a j.data }
  | .uncorrectable => handleFind ⟨a, .uncorrectable, .scrub, false⟩ s'

/-- Scrub steps one after another (R151). -/
def scrubSteps (n : Nat) (s : State) : State :=
  match n with
  | 0 => s
  | k + 1 => scrubSteps k (scrubStep s)

/-- All pending scrub steps run; they count as store activity (R151; assumption 8). -/
def runPending (s : State) : State :=
  if s.tst.scrubPending = 0 then s
  else scrubSteps s.tst.scrubPending { s with tst.scrubPending := 0, tst.activity := true }

/-- After a foreground operation: pending steps run when nothing waits, or before the next operation when four are
pending (R151). -/
def scrubAfterOp (s : State) : State :=
  let s' := { s with tst.activity := true }
  if s'.tst.ops.isEmpty || decide (4 ≤ s'.tst.scrubPending) then runPending s' else s'

/-- The operation at the head of the list performed whole (R144). -/
def performOp (op : Op) (rest : List Op) (s : State) : State :=
  let e := runOp s.tst.mem op
  scrubAfterOp (finishOp op e (handleFinds e.finds { s with tst.mem := e.mem, tst.ops := rest }))

/-- The store serves operations once preparation has ended (section 8.7). -/
def State.storeServes (s : State) : Bool := s.working && decide (s.hpt.runState ≠ .storePrep)

/-- The store's turn: the head of the list is performed when it is of the kind named; otherwise the step does not
happen (assumption 9). -/
def performHead (isKind : Op → Bool) (s : State) : Host.Outcome State Fault Refusal :=
  match s.tst.ops with
  | [] => .next s
  | op :: rest => .next (if s.storeServes && isKind op then performOp op rest s else s)

/-- STORE_READ (R145). -/
def execStoreRead (s : State) : Host.Outcome State Fault Refusal :=
  performHead (fun op => match op with | .read .. => true | _ => false) s
/-- STORE_UPDATE (R145). -/
def execStoreUpdate (s : State) : Host.Outcome State Fault Refusal :=
  performHead (fun op => match op with | .update _ => true | _ => false) s
/-- ITEM_POSTING (R146). -/
def execItemPosting (s : State) : Host.Outcome State Fault Refusal :=
  performHead (fun op => match op with | .itemPosting .. => true | _ => false) s
/-- JOURNAL_APPEND (R135, R136). -/
def execJournalAppend (s : State) : Host.Outcome State Fault Refusal :=
  performHead (fun op => match op with | .journalAppend .. => true | _ => false) s
/-- TAKEN_FLAG_UPDATE (R137). -/
def execTakenFlagUpdate (s : State) : Host.Outcome State Fault Refusal :=
  performHead (fun op => match op with | .takenFlag .. => true | _ => false) s
/-- COUNTER_UPDATE (R173). -/
def execCounterUpdate (s : State) : Host.Outcome State Fault Refusal :=
  performHead (fun op => match op with | .counterUpdate .. => true | _ => false) s
/-- RECORD_WRITE (R145). -/
def execRecordWrite (s : State) : Host.Outcome State Fault Refusal :=
  performHead (fun op => match op with | .recordWrite _ => true | _ => false) s
/-- CLOSE_COPY (R147, R168). -/
def execCloseCopy (s : State) : Host.Outcome State Fault Refusal :=
  performHead (fun op => match op with | .closeCopy _ => true | _ => false) s

/-- A scrub request taken: one step added, and the pending steps run by the first case that applies (R151). -/
def scrubRequest (s : State) : State :=
  let pending := min 4 (s.tst.scrubPending + 1)
  let quiet := s.tst.ops.isEmpty && !s.tst.activity
  let s' := { s with tst.scrubPending := pending, tst.activity := false }
  if quiet || (decide (pending = 4) && s.tst.ops.isEmpty) then runPending s' else s'

/-- SCRUB_REQUEST (R151): requests fall due from the end of store preparation on. -/
def execScrubRequest (s : State) : Host.Outcome State Fault Refusal :=
  .next (if s.storeServes then scrubRequest s else s)

/-- VRET_DISTURBANCE (R141): the named bits of a word now differ, or again agree, with what was written. A word marked
uncorrectable is then judged by its wrong bits like any other (assumption 39). -/
def execVretDisturbance (address : BitVec 11) (flips : BitVec 39) (s : State) : Host.Outcome State Fault Refusal :=
  let w := Memory.word s.tst.mem address.toNat
  .next { s with tst.mem := Memory.set s.tst.mem address.toNat { w with flips := w.flips ^^^ flips } }

/-! ### The end of store preparation -/

/-- LBL loads its working values from the label word (R139), whatever number a misread word gives (assumption 45). -/
def loadLabels (s : State) : State :=
  let j := Memory.read s.tst.mem addrLabel
  if j.judge = .uncorrectable then { s with lbl.nextSerial := 1, lbl.newest := 0 }
  else
    let serial := j.data % 1048576
    { s with lbl.nextSerial := if serial = 0 then 1 else serial, lbl.newest := j.data / 1048576 }

/-- The header words of the eight record slots, by slot. -/
def headerReads (m : Memory) : List (Nat × JudgedWord) :=
  (List.range 8).map fun k => (k + 1, Memory.read m (addrRecord (k + 1) offDay))

/-- The held days: the slots whose header word is readable and not 0 (R160). -/
def heldDays (m : Memory) : Table Nat :=
  (headerReads m).filterMap fun h =>
    if h.2.judge = .uncorrectable ∨ h.2.data = 0 then none else some (h.1, h.2.data)

/-- The slot whose day X gives the least (D − X) mod 65,536, or 0 (R160). -/
def latestHeld (day : Nat) (held : Table Nat) : Nat :=
  let age (x : Nat) : Nat := (day + 65536 - x) % 65536
  match held with
  | [] => 0
  | e :: rest => (rest.foldl (fun best x => if age x.2 < age best.2 then x else best) e).1

/-- DAY loads its working values (R160), whatever number a misread word gives (assumption 45). -/
def loadDay (s : State) : State :=
  let m := s.tst.mem
  let j0 := Memory.read m addrBusinessDay
  let j2 := Memory.read m addrHistory
  let held := heldDays m
  let day := if j0.judge = .uncorrectable ∨ j0.data = 0 then 1 else j0.data
  let newest := if j2.judge = .uncorrectable then latestHeld day held else j2.data
  let s1 := { s with day := { DayUnit.atReset with day := day, highest := day, newestSlot := newest, held := held } }
  let s2 := if j0.judge = .uncorrectable then hand (.recordWrite [(addrBusinessDay, 1)]) s1 else s1
  if j2.judge = .uncorrectable then hand (.recordWrite [(addrHistory, BitVec.ofNat 32 newest)]) s2 else s2

/-- HLM loads one attribute record, and writes it back when its stored words differ (R180). A raw value read outside its
range is loaded as read (assumption 45). -/
def loadAttribute (a : Attribute) (s : State) : State :=
  let j0 := Memory.read s.tst.mem (addrAttribute a)
  let j1 := Memory.read s.tst.mem (addrAttribute a + 1)
  let bad := decide (j0.judge = .uncorrectable ∨ j1.judge = .uncorrectable)
  let raw := if bad then 0 else j0.data
  let n := if bad then 100 else normalizedValue a raw s.figures.zeroBand
  let stored := j1.data / 256
  let worst := if bad ∨ stored = 0 then n else min stored n
  let r : AttributeRecord := { raw := raw, normalized := n, worst := worst, threshold := none, low := false }
  let s' := { s with hlm.attributes := s.hlm.attributes.set a r }
  if bad ∨ j1.data ≠ (attributeWord n worst).toNat then
    hand (.recordWrite (addressed (addrAttribute a) [BitVec.ofNat 32 raw, attributeWord n worst])) s'
  else s'

/-- HLM loads the fault word (R180). A newest entry read outside its range is loaded as read (assumption 45). -/
def loadFaultWord (s : State) : State :=
  let j := Memory.read s.tst.mem addrFault
  if j.judge = .uncorrectable then
    hand (.recordWrite [(addrFault, 0)]) { s with hlm.newestFault := 0, hlm.faultCount := 0 }
  else { s with hlm.newestFault := j.data / 65536, hlm.faultCount := j.data % 65536 }

/-- HLM loads its working copies (R180). -/
def loadHealth (s : State) : State := loadFaultWord (allAttributes.foldl (fun acc a => loadAttribute a acc) s)

/-- The words that the three loads read, in order (R139, R160, R180). -/
def loadAddresses : List Nat :=
  [addrLabel, addrBusinessDay, addrHistory] ++ (List.range 8).map (fun k => addrRecord (k + 1) offDay)
    ++ (List.range 16).map (fun k => 1384 + k) ++ [addrFault]

/-- Store preparation ends: the loads, then the reports that came in the meantime in the order they came (R180), then
the finds of the loads, and the state becomes CONFIG (R191). The reads of the loads are no operation of the list, so the
first scrub request finds the store quiet unless an operation came before it (assumption 25). -/
def endPreparation (result : WalkResult) (s : State) : State :=
  let finds := readFinds (loadAddresses.map (Memory.read s.tst.mem))
  let s1 := loadHealth (loadDay (loadLabels s))
  let s2 := moveAttribute .zeroUse 0 s1
  let s3 := raiseAttribute .storeErrors (result.corrected + 25 * result.uncorrectable) s2
  let s4 := if 0 < result.uncorrectable then recordFault .store s3 else s3
  let s5 := handleFinds finds s4
  { s5 with
    hpt.runState := .config
    tst := { s5.tst with
      walk := none, walkResult := result, scrubPointer := 0, scrubPending := 0, activity := false } }

/-- The station is in store preparation (section 8.7). -/
def State.preparing (s : State) : Bool := s.working && decide (s.hpt.runState = .storePrep)

/-- VERIFICATION_WALK_END (R155): the words not yet walked are walked, and the counts reported. -/
def execVerificationWalkEnd (s : State) : Host.Outcome State Fault Refusal :=
  match s.preparing, s.tst.walk with
  | true, some { kind := .verify, done := done, .. } =>
    let s1 := walkWords (2048 - done) s
    match s1.tst.walk with
    | none => .next s1
    | some w =>
      let s2 := match w.firstBad with
        | none => s1
        | some a => queueEvent (.storeError a .walk) s1
      .next (endPreparation { kind := .verify, corrected := w.corrected, uncorrectable := w.uncorrectable } s2)
  | _, _ => .next s

/-- INITIALIZATION_WALK_END (R156): the words not yet written are written; then the business day word, the running
control word, and the store state word with the mark clear. -/
def execInitializationWalkEnd (s : State) : Host.Outcome State Fault Refusal :=
  match s.preparing, s.tst.walk with
  | true, some { kind := .fresh, done := done, .. } =>
    let s1 := walkWords (2048 - done) s
    let m1 := Memory.write s1.tst.mem addrBusinessDay 1
    let m2 := Memory.write m1 (addrRunning offFlags) flagTotalsLost
    let m3 := Memory.write m2 addrStoreState 0
    .next (endPreparation { kind := .fresh, corrected := 0, uncorrectable := 0 }
      { s1 with tst.mem := m3, tst.latch := .empty })
  | _, _ => .next s

/-! ### Requests that read the store -/

/-- READ_TOTALS at its owner (R157): its read waits in the operation list. -/
def readTotalsOwner (group : Byte) (s : State) : State :=
  match totalsGroup group with
  | none => refuse .param s
  | some g => awaitRead (totalsAddresses g) (.totals g) s

/-- READ_TOTALS (R157). -/
def execReadTotals (group : Byte) (s : State) : Host.Outcome State Fault Refusal :=
  serve (.readTotals group) (readTotalsOwner group) s

/-- CLEAR_STORE_LATCH at its owner (R150). -/
def clearStoreLatchOwner (s : State) : State :=
  answer .ok s.tst.latch.fields { s with tst.latch := .empty }

/-- CLEAR_STORE_LATCH (R150). -/
def execClearStoreLatch (s : State) : Host.Outcome State Fault Refusal := serve .clearStoreLatch clearStoreLatchOwner s

/-- READ_DAY_RECORD at its owner (R171). The read names all 96 words of the slot (assumption 40). -/
def readDayRecordOwner (index : Byte) (s : State) : State :=
  if 7 < index.toNat then refuse .param s
  else if s.day.newestSlot = 0 then refuse .empty s
  else
    let slot := ringBack 8 s.day.newestSlot index.toNat
    awaitRead ((List.range 96).map (addrRecord slot)) (.dayRecord slot) s

/-- READ_DAY_RECORD (R171). -/
def execReadDayRecord (index : Byte) (s : State) : Host.Outcome State Fault Refusal :=
  serve (.readDayRecord index) (readDayRecordOwner index) s

/-- READ_FAULTS at its owner (R184). The fault count and the newest entry returned are those of the taking
(assumption 42). -/
def readFaultsOwner (index : Byte) (s : State) : State :=
  if 5 < index.toNat then refuse .param s
  else if s.hlm.newestFault = 0 then refuse .empty s
  else
    let slot := ringBack 6 s.hlm.newestFault index.toNat
    awaitRead ((List.range 8).map (addrFaultEntry slot)) (.fault s.hlm.faultCount s.hlm.newestFault slot) s

/-- READ_FAULTS (R184). -/
def execReadFaults (index : Byte) (s : State) : Host.Outcome State Fault Refusal :=
  serve (.readFaults index) (readFaultsOwner index) s

end Sys2Proof.Machine
end

