-- ==== Sys2Proof/Machine/HostPort.lean ====
section
/-! DEFINITION. HPT, the host port, with the health monitor's readings (chapters 10 and 11): configuration, start and
soft reset, the event queue, the time of day, and the station's own reports. -/

namespace Sys2Proof.Machine

/-! ### SELECTION_END -/

/-- SELECTION_END (R186). -/
def execSelectionEnd (mosi : List Byte) (s : State) : Host.Outcome State Fault Refusal := .next (selection mosi s)

/-! ### CONFIGURE (R192) -/

/-- Every field of CONFIGURE lies in its range (Table 11-6). -/
def configInRange (c : ConfigBlock) : Bool :=
  [50, 100, 200].contains c.rate.toNat && [4, 8, 16, 32].contains c.filterLength.toNat && within 4 c.window.toNat 32
    && within 0 c.timeout.toNat 8 && within 0 c.tracking.toNat 1 && within 1 c.span.toNat 16777215
    && [1, 5, 10].contains c.rounding.toNat && within 0 c.ticketMode.toNat 1 && [99, 999].contains c.wrap.toNat
    && (decide (c.expiry.toNat = 0) || within 5 c.expiry.toNat 60)
    && within 0 c.lowZeroUse.toNat 99 && within 0 c.lowOverloads.toNat 99 && within 0 c.lowMotion.toNat 99
    && within 0 c.lowStore.toNat 99 && within 0 c.lowRetries.toNat 99 && within 0 c.lowMismatch.toNat 99

/-- The settings of the weighing channel (R1, R17). -/
def configWeighing (c : ConfigBlock) (bz : Nat) (w : Weighing) : Weighing :=
  { w with
    rate := c.rate.toNat
    filterLength := c.filterLength.toNat
    windowLength := c.window.toNat
    tracking := decide (c.tracking.toNat = 1)
    zcal := c.zcal.toInt
    span := c.span.toNat
    clamp := trackingClamp bz c.span.toNat }

/-- The ticket mode and wrap (R70). -/
def configTickets (c : ConfigBlock) : TicketConfig :=
  { untracked := decide (c.ticketMode.toNat = 1), wrap := c.wrap.toNat }

/-- The six thresholds (R178). -/
def configThresholds (c : ConfigBlock) (h : Attributes) : Attributes :=
  { zeroUse := { h.zeroUse with threshold := some c.lowZeroUse.toNat }
    overloads := { h.overloads with threshold := some c.lowOverloads.toNat }
    motionTimeouts := { h.motionTimeouts with threshold := some c.lowMotion.toNat }
    storeErrors := { h.storeErrors with threshold := some c.lowStore.toNat }
    linkRetries := { h.linkRetries with threshold := some c.lowRetries.toNat }
    viewMismatch := { h.viewMismatch with threshold := some c.lowMismatch.toNat } }

/-- Every block takes its settings (R192). -/
def takeSettings (c : ConfigBlock) (s : State) : State :=
  { s with
    hpt.configured := true
    wch := configWeighing c s.figures.zeroBand s.wch
    cap := { s.cap with
      timeout := if c.timeout.toNat = 0 then 3 else c.timeout.toNat
      rounding := c.rounding.toNat }
    tkt.config := some (configTickets c)
    clt.expiryMinutes := if c.expiry.toNat = 0 then 20 else c.expiry.toNat
    hlm.attributes := configThresholds c s.hlm.attributes }

/-- The strap fault (R191). -/
def State.strapFault (s : State) : Bool := (capacityClass s.hpt.straps.cap).isNone

/-- CONFIGURE at its owner (R192). The run state, the strap fault and an earlier CONFIGURE are judged before the fields
(assumption 46). -/
def configureOwner (c : ConfigBlock) (s : State) : State :=
  if s.hpt.runState ≠ .config ∨ s.strapFault = true ∨ s.hpt.configured = true then refuse .wrongState s
  else if configInRange c then evaluateLowFlags (takeSettings c (answer .ok [] s))
  else refuse .param s

/-- CONFIGURE (R178, R192). -/
def execConfigure (c : ConfigBlock) (s : State) : Host.Outcome State Fault Refusal :=
  serve (.configure c) (configureOwner c) s

/-! ### START and RESTART -/

/-- The station begins: JOINING, weighing, and a fresh census (R1, R64, R193). -/
def beginStation (s : State) : State :=
  beginWeighing { s with hpt.runState := .joining, lnk := Link.joining, clt.censusOpen := 0 }

/-- START at its owner (R193): with the strap fault CONFIGURE is never taken. -/
def startOwner (s : State) : State :=
  if s.hpt.runState ≠ .config ∨ s.strapFault = true ∨ s.hpt.configured = false then refuse .wrongState s
  else beginStation (answer .ok [] s)

/-- START (R193). -/
def execStart (s : State) : Host.Outcome State Fault Refusal := serve .start startOwner s

/-- Every block takes its soft-reset values (Tables 1-11, 3-9, 4-8, 5-7, 7-3, 8-8, 9-3, 10-7, 11-8; R26, R116, R127). -/
def softReset (s : State) : State :=
  beginStation
    { s with
      hpt := { s.hpt with events := [], overflow := 0 }
      cap := { s.cap with capture := .idle, slots := s.cap.slots.update fun _ v => v.cleared }
      lbl := { s.lbl with records := [], reservations := 0 }
      tkt := { TicketUnit.atReset with config := s.tkt.config }
      clt := { ClerkTable.atReset with expiryMinutes := s.clt.expiryMinutes }
      day := { s.day with highest := s.day.day, behind := false, latch := none, deferred := [] } }

/-- RESTART at its owner (R194): the response is placed after the effects. -/
def restartOwner (s : State) : State :=
  if s.hpt.runState = .storePrep ∨ s.hpt.runState = .config then refuse .wrongState s
  else answer .ok [] (evaluateLowFlags (softReset s))

/-- RESTART (R178, R194). -/
def execRestart (s : State) : Host.Outcome State Fault Refusal := serve .restart restartOwner s

/-! ### Time of day -/

/-- SET_TIME at its owner: the next advance comes one second after the request (R190). -/
def setTimeOwner (time : BitVec 24) (s : State) : State :=
  if 86399 < time.toNat then refuse .param s
  else answer .ok [] { s with hpt.timeOfDay := time.toNat, hpt.second := unitsPerSecond }

/-- SET_TIME (R190). -/
def execSetTime (time : BitVec 24) (s : State) : Host.Outcome State Fault Refusal :=
  serve (.setTime time) (setTimeOwner time) s

/-- TIME_OF_DAY_TICK (R190): a second has passed and the next begins. Without power or in reset none is counted, and a
second that a reset, a SET_TIME or an advance has just begun is not over (assumption 3). -/
def execTimeOfDayTick (s : State) : Host.Outcome State Fault Refusal :=
  .next (
    if s.working && hasRun (some s.hpt.second) unitsPerSecond then
      { s with
        hpt.timeOfDay := if 86399 ≤ s.hpt.timeOfDay then 0 else s.hpt.timeOfDay + 1
        hpt.second := unitsPerSecond }
    else s)

/-! ### READ_STATUS -/

/-- The straps as response fields: station number, class or strap fault, ISSUER (R195). -/
def strapFields (p : Straps) : List Field := [.num 1 p.station.toNat, .num 1 (capNumber p.cap), .flag p.issuer]

/-- Walk progress in percent (R195). -/
def walkProgress (done : Nat) : Nat := 10 * (10 * done / 2048)

/-- The walk kind and progress as response fields (R195). -/
def walkFields (w : Option Walk) : List Field :=
  match w with
  | none => [.num 1 0, .num 1 0]
  | some w => [.num 1 w.kind.number, .num 1 (walkProgress w.done)]

/-- The data of READ_STATUS (R195). -/
def statusFields (s : State) : List Field :=
  match s.hpt.runState with
  | .storePrep => [.num 1 RunState.storePrep.number] ++ walkFields s.tst.walk ++ strapFields s.hpt.straps
  | .config | .joining | .running =>
    [.num 1 s.hpt.runState.number] ++ strapFields s.hpt.straps
    ++ [.flag s.hpt.configured, .num 1 s.cap.capture.number, .flag s.lockedOut, .num 2 s.day.day, .flag s.day.behind,
        .flag s.day.latch.isSome, .num 1 s.day.copiesPending, .num 1 s.lnk.state.number, .num 1 s.hpt.events.length,
        .num 1 s.hpt.overflow, .num 1 s.hpt.nextTag, .num 3 s.hpt.timeOfDay]

/-- READ_STATUS at its owner (R195). -/
def readStatusOwner (s : State) : State := answer .ok (statusFields s) s

/-- READ_STATUS (R195). -/
def execReadStatus (s : State) : Host.Outcome State Fault Refusal := serve .readStatus readStatusOwner s

/-! ### TAKE_EVENT -/

/-- A record's bytes as response fields. -/
def EventRecord.fields (r : EventRecord) : List Field := r.bytes.map fun b => .num 1 b.toNat

/-- TAKE_EVENT at its owner (R189). -/
def takeEventOwner (s : State) : State :=
  match s.hpt.events with
  | [] => refuse .empty s
  | r :: rest =>
    answer .ok (r.fields ++ [.num 1 rest.length, .num 1 s.hpt.overflow]) { s with hpt.events := rest }

/-- TAKE_EVENT (R189). -/
def execTakeEvent (s : State) : Host.Outcome State Fault Refusal := serve .takeEvent takeEventOwner s

/-! ### READ_HEALTH -/

/-- The data fields of an attribute record (R183). -/
def attributeFields (h : Attributes) (a : Attribute) : List Field :=
  let r := h.get a
  [.num 1 a.number, .flag a.advisory, .num 2 r.raw, .num 1 r.normalized, .num 1 r.worst, .optional 1 r.threshold,
   .flag r.low]

/-- READ_HEALTH at its owner (R183). -/
def readHealthOwner (s : State) : State :=
  answer .ok (allAttributes.flatMap (attributeFields s.hlm.attributes) ++ [.flag s.lockedOut]) s

/-- READ_HEALTH (R183). -/
def execReadHealth (s : State) : Host.Outcome State Fault Refusal := serve .readHealth readHealthOwner s

end Sys2Proof.Machine
end

