-- ==== Sys2Proof/Machine/Reset.lean ====
section
/-! DEFINITION. The supply and the RESET pin (R144, R153, R154, R191, R197), and the passing of time. -/

namespace Sys2Proof.Machine

/-! ### Power and reset -/

/-- The walk that a start with retained words takes: initialization when the store state word reads with the mark set,
verification otherwise (R154). This first read is no judgement of the walk: the store state word counts, for the latch, the
counts and the first uncorrectable address, in its place of the address order alone (assumption 47). -/
def retainedWalk (m : Memory) : WalkKind :=
  let j := Memory.read m addrStoreState
  if j.judge ≠ .uncorrectable ∧ hasFlag j.data 1 = true then .fresh else .verify

/-- Store preparation begins with a walk. The initialization walk writes the mark at its start (R156; assumption 16). -/
def beginPreparation (kind : WalkKind) (straps : Straps) (m : Memory) (pending : List Instr) : State :=
  let m' := match kind with
    | .verify => m
    | .fresh => Memory.write m addrStoreState 1
  State.fresh .on straps m' (some (Walk.begun kind)) pending

/-- The words of the store once the listed operations have been performed on the retention supply (R144). -/
def State.settled (s : State) : Memory := drainOps s.tst.mem s.tst.ops

/-- The part held by RESET (R197, Table 11-7): nothing volatile remains and no walk runs. -/
def State.held (straps : Straps) (m : Memory) (pending : List Instr) : State :=
  State.fresh .resetLow straps m none pending

/-- POWER_ON (R153, R191): the straps and RETAIN_OK are sampled and a walk begins. Taken while main power is applied it
stands for a failure of the supply and its return. With RESET low the part is held until the release (R197), its
preparation cut short as it begins: the mark that RETAIN_OK negated calls for stands in the store (both assumption 17). -/
def execPowerOn (straps : Straps) (retainOk : Bool) (s : State) : Host.Outcome State Fault Refusal :=
  let m := s.settled
  let begun := beginPreparation (if retainOk then retainedWalk m else .fresh) straps m s.pending
  .next (if s.power.pinLow then State.held straps begun.tst.mem s.pending else begun)

/-- MAIN_POWER_FAIL (R144): the listed operations are completed and everything volatile is lost. The level of RESET is
that of the pin, whatever the supply does. -/
def execMainPowerFail (s : State) : Host.Outcome State Fault Refusal :=
  .next (State.fresh (if s.power.pinLow then .offLow else .off) s.hpt.straps s.settled none s.pending)

/-- RESET_ASSERT (R144, Table 11-7): the listed operations are completed and the part is held. Without main power only
the pin's level changes; a pin that is low does not fall (assumption 17). -/
def execResetAssert (s : State) : Host.Outcome State Fault Refusal :=
  .next (
    match s.power with
    | .off => { s with power := .offLow }
    | .offLow => s
    | .resetLow => s
    | .on => State.held s.hpt.straps s.settled s.pending)

/-- RESET_RELEASE (R153, R197): the straps are sampled and store preparation begins with the verification walk, or the
initialization walk when the mark is found (R154). Without main power only the pin's level changes; a pin that was not low
is not released (assumption 17). -/
def execResetRelease (straps : Straps) (s : State) : Host.Outcome State Fault Refusal :=
  .next (
    match s.power with
    | .off => s
    | .on => s
    | .offLow => { s with power := .off }
    | .resetLow => beginPreparation (retainedWalk s.tst.mem) straps s.tst.mem s.pending)

/-! ### Time (assumption 3) -/

/-- A timer with one unit less, held at 0 until its expiry is commanded. -/
def countDown (timer : Option Nat) : Option Nat := timer.map fun t => t - 1

/-- The timer of a capture with one unit less. -/
def Capture.countDown (c : Capture) : Capture :=
  match c with
  | .idle => .idle
  | .waiting r j t => .waiting r j (t - 1)
  | .held i set t => .held i set (t - 1)

/-- A roster entry one unit older, its age held at 20 s. -/
def RosterEntry.older (e : RosterEntry) : RosterEntry := { e with age := min (e.age + 1) (20 * unitsPerSecond) }

/-- An objection lasts one bit time; a frame goes on (R58). -/
def LinkDrive.after (d : LinkDrive) : LinkDrive :=
  match d with
  | .recessive => .recessive
  | .sending => .sending
  | .objectionSlot => .recessive
  | .objectionTruncated => .recessive

/-- One unit of time passes: one word of a walk, and every running timer counts (R12, R30, R61, R63, R64, R111, R122,
R153, R190). -/
def tick (s : State) : State :=
  if s.working then
    let s' := walkWord s
    { s' with
      hpt.second := s'.hpt.second - 1
      wch.watchdog := countDown s'.wch.watchdog
      cap.capture := s'.cap.capture.countDown
      clt.orders := Table.mapValues s'.clt.orders fun o => { o with timer := countDown o.timer }
      lnk := { s'.lnk with
        roster := Table.mapValues s'.lnk.roster RosterEntry.older
        censusTimer := countDown s'.lnk.censusTimer
        beaconTimer := countDown s'.lnk.beaconTimer
        drive := s'.lnk.drive.after } }
  else s

end Sys2Proof.Machine
end

