-- ==== Sys2Proof/Machine/Dispatch.lean ====
section
/-! DEFINITION. The meaning of every command, one arm per constructor, in the order of the operation table. -/

namespace Sys2Proof.Machine

/-- The effect of a command on everything but the queue. -/
def exec (i : Instr) (s : State) : Host.Outcome State Fault Refusal :=
  match i with
  | .powerOn straps retainOk => Sys2Proof.Machine.execPowerOn straps retainOk s
  | .mainPowerFail => Sys2Proof.Machine.execMainPowerFail s
  | .resetAssert => Sys2Proof.Machine.execResetAssert s
  | .resetRelease straps => Sys2Proof.Machine.execResetRelease straps s
  | .verificationWalkEnd => Sys2Proof.Machine.execVerificationWalkEnd s
  | .initializationWalkEnd => Sys2Proof.Machine.execInitializationWalkEnd s
  | .selectionEnd mosi => Sys2Proof.Machine.execSelectionEnd mosi s
  | .configure fields => Sys2Proof.Machine.execConfigure fields s
  | .start => Sys2Proof.Machine.execStart s
  | .restart => Sys2Proof.Machine.execRestart s
  | .setTime time => Sys2Proof.Machine.execSetTime time s
  | .readStatus => Sys2Proof.Machine.execReadStatus s
  | .takeEvent => Sys2Proof.Machine.execTakeEvent s
  | .zero => Sys2Proof.Machine.execZero s
  | .tareWeigh => Sys2Proof.Machine.execTareWeigh s
  | .tareSet grams => Sys2Proof.Machine.execTareSet grams s
  | .tareClear => Sys2Proof.Machine.execTareClear s
  | .readWeight => Sys2Proof.Machine.execReadWeight s
  | .weighItem clerk plu dept price tareGiven tare => Sys2Proof.Machine.execWeighItem clerk plu dept price tareGiven tare s
  | .countItem clerk plu dept price quantity => Sys2Proof.Machine.execCountItem clerk plu dept price quantity s
  | .abortCapture => Sys2Proof.Machine.execAbortCapture s
  | .releaseHeld => Sys2Proof.Machine.execReleaseHeld s
  | .discardHeld => Sys2Proof.Machine.execDiscardHeld s
  | .setWatch slot form kind value action enable => Sys2Proof.Machine.execSetWatch slot form kind value action enable s
  | .clearWatchStatus slots => Sys2Proof.Machine.execClearWatchStatus slots s
  | .readWatches => Sys2Proof.Machine.execReadWatches s
  | .takeLabel => Sys2Proof.Machine.execTakeLabel s
  | .readJournal index => Sys2Proof.Machine.execReadJournal index s
  | .issueTicket => Sys2Proof.Machine.execIssueTicket s
  | .callNext clerk => Sys2Proof.Machine.execCallNext clerk s
  | .passTicket clerk => Sys2Proof.Machine.execPassTicket clerk s
  | .readTickets => Sys2Proof.Machine.execReadTickets s
  | .totalOrder clerk => Sys2Proof.Machine.execTotalOrder clerk s
  | .cancelOrder clerk => Sys2Proof.Machine.execCancelOrder clerk s
  | .voidLine clerk line => Sys2Proof.Machine.execVoidLine clerk line s
  | .readOrder clerk => Sys2Proof.Machine.execReadOrder clerk s
  | .closeDay forced => Sys2Proof.Machine.execCloseDay forced s
  | .joinDay => Sys2Proof.Machine.execJoinDay s
  | .askDaysum day => Sys2Proof.Machine.execAskDaysum day s
  | .readDayRecord index => Sys2Proof.Machine.execReadDayRecord index s
  | .readTotals group => Sys2Proof.Machine.execReadTotals group s
  | .readHealth => Sys2Proof.Machine.execReadHealth s
  | .readFaults index => Sys2Proof.Machine.execReadFaults index s
  | .clearStoreLatch => Sys2Proof.Machine.execClearStoreLatch s
  | .readRoster => Sys2Proof.Machine.execReadRoster s
  | .sampleArrival bits value => Sys2Proof.Machine.execSampleArrival bits value s
  | .sampleWatchdogExpiry => Sys2Proof.Machine.execSampleWatchdogExpiry s
  | .captureTimerExpiry => Sys2Proof.Machine.execCaptureTimerExpiry s
  | .holdTimerExpiry => Sys2Proof.Machine.execHoldTimerExpiry s
  | .beaconTimerExpiry => Sys2Proof.Machine.execBeaconTimerExpiry s
  | .censusTimerExpiry => Sys2Proof.Machine.execCensusTimerExpiry s
  | .rosterAgeExpiry station => Sys2Proof.Machine.execRosterAgeExpiry station s
  | .orderExpiry clerk => Sys2Proof.Machine.execOrderExpiry clerk s
  | .timeOfDayTick => Sys2Proof.Machine.execTimeOfDayTick s
  | .scrubRequest => Sys2Proof.Machine.execScrubRequest s
  | .storeRead => Sys2Proof.Machine.execStoreRead s
  | .storeUpdate => Sys2Proof.Machine.execStoreUpdate s
  | .itemPosting => Sys2Proof.Machine.execItemPosting s
  | .journalAppend => Sys2Proof.Machine.execJournalAppend s
  | .takenFlagUpdate => Sys2Proof.Machine.execTakenFlagUpdate s
  | .counterUpdate => Sys2Proof.Machine.execCounterUpdate s
  | .recordWrite => Sys2Proof.Machine.execRecordWrite s
  | .closeCopy => Sys2Proof.Machine.execCloseCopy s
  | .linkAttemptStart => Sys2Proof.Machine.execLinkAttemptStart s
  | .arbitrationLost => Sys2Proof.Machine.execArbitrationLost s
  | .attemptBitError => Sys2Proof.Machine.execAttemptBitError s
  | .attemptObjected => Sys2Proof.Machine.execAttemptObjected s
  | .frameDamaged frame => Sys2Proof.Machine.execFrameDamaged frame s
  | .dayCloseAccepted origin p => Sys2Proof.Machine.execDayCloseAccepted origin p s
  | .callAccepted origin p => Sys2Proof.Machine.execCallAccepted origin p s
  | .issueAccepted origin p => Sys2Proof.Machine.execIssueAccepted origin p s
  | .passAccepted origin p => Sys2Proof.Machine.execPassAccepted origin p s
  | .txCloseAccepted origin p => Sys2Proof.Machine.execTxCloseAccepted origin p s
  | .txCancelAccepted origin p => Sys2Proof.Machine.execTxCancelAccepted origin p s
  | .voidAccepted origin p => Sys2Proof.Machine.execVoidAccepted origin p s
  | .itemAccepted origin p => Sys2Proof.Machine.execItemAccepted origin p s
  | .daysumAccepted origin p => Sys2Proof.Machine.execDaysumAccepted origin p s
  | .daysumAskAccepted origin day => Sys2Proof.Machine.execDaysumAskAccepted origin day s
  | .censusAskAccepted origin => Sys2Proof.Machine.execCensusAskAccepted origin s
  | .censusReplyAccepted origin p => Sys2Proof.Machine.execCensusReplyAccepted origin p s
  | .censusTxAccepted origin p => Sys2Proof.Machine.execCensusTxAccepted origin p s
  | .beaconAccepted origin p => Sys2Proof.Machine.execBeaconAccepted origin p s
  | .closeStart => Sys2Proof.Machine.execCloseStart s
  | .vretDisturbance address flips => Sys2Proof.Machine.execVretDisturbance address flips s

end Sys2Proof.Machine
end

