-- ==== Sys2Proof/Safety.lean ====
section
/-! DEFINITION. What counts as a sound state: the statements that the manual makes about every state of a station. Each is
kept by every step from every state that meets it, and the state after reset meets them all. -/

namespace Sys2Proof.Machine

/-- The words of the store are in canonical form: addresses rising and below 2048, no sound zero listed. -/
def State.StoreCanonical (s : State) : Prop := Memory.wf s.tst.mem = true

/-- At most 12 request frames and at most 4 station frames are queued (R49). -/
def State.QueueBounded (s : State) : Prop := s.lnk.requestFrames ≤ 12 ∧ s.lnk.stationFrames ≤ 4

/-- At most 32 event records and three recent requests are held, the next tag lies in 1..255, and the time of day and what is
left of its second lie in their ranges (R188 to R190). -/
def State.PortBounded (s : State) : Prop :=
  s.hpt.events.length ≤ 32 ∧ s.hpt.overflow ≤ 255 ∧ s.hpt.ring.length ≤ 3 ∧ 1 ≤ s.hpt.nextTag ∧ s.hpt.nextTag ≤ 255
    ∧ s.hpt.timeOfDay ≤ 86399 ∧ s.hpt.second ≤ unitsPerSecond

/-- A latched close exists only while the capture unit is WAITING or HELD (R165). -/
def State.LatchedWhileBusy (s : State) : Prop := s.day.latch ≠ none → s.cap.capture ≠ .idle

/-- The waiting list holds at most 48 entries, no ticket twice, and no ticket bound to an OPEN order (R73); the wrap that
numbers them is 99 or 999 (R70). -/
def State.WaitingSound (s : State) : Prop :=
  (∀ c, s.tkt.config = some c → c.wrap = 99 ∨ c.wrap = 999)
    ∧ s.tkt.waiting.length ≤ 48
    ∧ (s.tkt.waiting.map WaitEntry.ticket).Nodup
    ∧ ∀ e ∈ s.tkt.waiting, s.bound e.ticket = false

/-- The non-void lines of a list (R92). -/
def liveLines (lines : List Line) : List Line := lines.filter fun l => !l.voided

/-- An order with a list: its lines are numbered 1 up to its line count, at most 40, and its item count and amount are
the count and price sum of its non-void lines (R92, R93). -/
def Order.Sound (o : Order) : Prop :=
  ∀ lines, o.lines = some lines →
    o.lineCount ≤ 40
      ∧ lines.map Line.number = List.range' 1 o.lineCount
      ∧ o.itemCount = (liveLines lines).length
      ∧ o.amount = ((liveLines lines).map Line.price).sum

/-- Each clerk has at most one order and every order is sound (R92); the frames that wait to be applied were accepted
with their fields in range. -/
def State.OrdersSound (s : State) : Prop :=
  Table.sorted s.clt.orders = true
    ∧ (∀ e ∈ s.clt.orders, e.2.Sound)
    ∧ ∀ f ∈ s.day.deferred, payloadInRange f.payload = true

/-- The attempt under way is of the head frame, from this station, and carries the current day tag (R49, R51). -/
def State.AttemptSound (s : State) : Prop :=
  ∀ f, s.lnk.attempt = some f →
    ∃ h, s.lnk.queue.head? = some h
      ∧ h.cls = payloadClass f.payload
      ∧ f.origin = s.hpt.straps.station
      ∧ (h.isDayScoped = true → dayTagOf f.payload = dayTag s.day.day)

/-- Records and reservations take at most the 8 label places, and one reservation is held for each TXCLOSE or VOID frame
queued (R129); the link is OFF before START, and then nothing is queued (R58, R64). -/
def State.LabelsSound (s : State) : Prop :=
  s.lbl.records.length + s.lbl.reservations ≤ 8
    ∧ s.lbl.reservations = (s.lnk.queue.filter TxFrame.reserves).length
    ∧ s.AttemptSound
    ∧ (s.hpt.runState = .storePrep ∨ s.hpt.runState = .config → s.lnk.state = .off)
    ∧ (s.lnk.state = .off → s.lnk.queue = [])

/-- The zero adjustment lies inside the band (R14, R17): without a CONFIGURE it stands at the reference; with one, the
clamp is the one that CONFIGURE computed. -/
def State.ZeroSound (s : State) : Prop :=
  (s.hpt.configured = false → s.wch.zadj = s.wch.zref)
    ∧ (s.hpt.configured = true → 1 ≤ s.wch.span ∧ s.wch.clamp = trackingClamp s.figures.zeroBand s.wch.span)
    ∧ (s.hpt.runState = .joining ∨ s.hpt.runState = .running → s.hpt.configured = true)
    ∧ s.wch.zeroUse ≤ s.figures.zeroBand

/-! ### The amounts of the running region (R146) -/

/-- The words of the station item amount and of the eight department amounts. -/
def amountAddresses : List Nat := [80, 8, 11, 14, 17, 20, 23, 26, 29]

/-- The station item amount, as read, is the sum of the eight department amounts. -/
def Memory.AmountsAgree (m : Memory) : Prop :=
  (Memory.read m 80).data = ((List.range 8).map fun d => (Memory.read m (8 + 3 * d)).data).sum

/-- One of the amounts is marked: its word reads UNCORRECTABLE (R141, R145). -/
def Memory.AmountMarked (m : Memory) : Prop := ∃ a ∈ amountAddresses, (Memory.read m a).judge = .uncorrectable

/-- The store state word reads with the initialization mark (R156). -/
def Memory.InitMarked (m : Memory) : Prop := (Memory.read m 4).data % 2 = 1

/-- An operation that leaves the amounts to the item posting, which names a department 1..8, and the store state word to
the walks (Table 8-5). -/
def Op.SparesAmounts (op : Op) : Prop :=
  match op with
  | .update additions => ∀ p ∈ additions, p.1 ∉ 4 :: amountAddresses
  | .recordWrite words => ∀ p ∈ words, p.1 ∉ 4 :: amountAddresses
  | .itemPosting dept _ _ => 1 ≤ dept ∧ dept ≤ 8
  | .read .. => True
  | .journalAppend .. => True
  | .takenFlag .. => True
  | .counterUpdate .. => True
  | .closeCopy _ => True

/-- The department of the capture under way. -/
def Capture.dept? (c : Capture) : Option Nat :=
  match c with
  | .idle => none
  | .waiting r _ _ => some r.dept
  | .held i _ _ => some i.request.dept

/-- The amounts are in step (R146): they agree or one of them is marked. While an initialization walk runs, the amounts
that it has passed are zero and the mark stands; a walk that was cut off leaves the mark, which the next start finds
(R154, R156). No amount has more than two wrong bits and the store state word at most one, the listed operations and the
capture under way name departments 1..8, and a walk runs in STORE_PREP alone. -/
def State.AmountsInStep (s : State) : Prop :=
  (∀ op ∈ s.tst.ops, op.SparesAmounts)
    ∧ (∀ d, s.cap.capture.dept? = some d → 1 ≤ d ∧ d ≤ 8)
    ∧ (∀ a ∈ amountAddresses, (Memory.word s.tst.mem a).wrongBits ≤ 2)
    ∧ (Memory.word s.tst.mem 4).wrongBits ≤ 1
    ∧ (match s.tst.walk with
       | none =>
         Memory.AmountsAgree s.tst.mem ∨ Memory.AmountMarked s.tst.mem
           ∨ (s.hpt.runState = .storePrep ∧ Memory.InitMarked s.tst.mem)
       | some w =>
         s.hpt.runState = .storePrep
           ∧ match w.kind with
             | .verify => Memory.AmountsAgree s.tst.mem ∨ Memory.AmountMarked s.tst.mem
             | .fresh =>
               Memory.InitMarked s.tst.mem
                 ∧ ∀ a ∈ amountAddresses, a < w.done → (Memory.word s.tst.mem a).written = 0)

/-! ### Terms of the statements -/

/-- The block that stands PENDING is that of the request. -/
def State.asked (s : State) (i : Instr) : Prop := ∃ b, requestBlock i = some b ∧ s.hpt.slot = .taken b

/-- The request is answered OK with the parts of data given, one after another, and nothing changes but the slot. -/
def State.Answers (s : State) (i : Instr) (parts : List (List Field)) : Prop :=
  exec i s = .next { s with hpt.slot := .ready { result := .ok, data := parts.flatten } }

/-- The slot takes a new block: it is EMPTY or READY (R186). -/
def State.slotFree (s : State) : Prop := s.hpt.slot = .empty ∨ ∃ r, s.hpt.slot = .ready r

/-- The block that the host shifts out of a free slot (R186). -/
def State.shiftedBlock (s : State) : List Byte :=
  match s.hpt.slot with
  | .empty => emptySlotBytes
  | .ready r => r.bytes
  | .taken _ => notReadyBytes
  | .awaiting => notReadyBytes

/-- A station takes an accepted frame of classes 1..7 of its present business day (R58, R59, R161). -/
def State.hearsToday (s : State) (p : Payload) : Prop :=
  s.receives = true ∧ payloadInRange p = true ∧ dayTagOf p = dayTag s.day.day

/-- The fields that WEIGH_ITEM and COUNT_ITEM share lie in their ranges (R27, R28). -/
def ItemFieldsInRange (clerk : Byte) (plu : BitVec 24) (dept : Byte) (price : BitVec 24) : Prop :=
  clerk.toNat ≤ 24 ∧ 1 ≤ plu.toNat ∧ plu.toNat ≤ 99999 ∧ 1 ≤ dept.toNat ∧ dept.toNat ≤ 8 ∧ 1 ≤ price.toNat
    ∧ price.toNat ≤ 999999

/-- The clerk's order has 40 lines (Table 2-3). -/
def State.linesFull (s : State) (clerk : Nat) : Prop := ∃ o, s.order clerk = some o ∧ o.lineCount = 40

/-- None of the conditions 2 to 5, 7 and 8 of Table 2-3 holds. -/
def State.TakesCapture (s : State) (clerk : Nat) : Prop :=
  s.hpt.runState = .running ∧ s.cap.capture = .idle ∧ s.day.copiesPending = 0 ∧ s.day.behind = false
    ∧ (clerk ≠ 0 → ¬s.linesFull clerk ∧ s.lnk.state ≠ .silent)

/-- The station as an accepted request leaves it: the answer ACCEPTED with its tag, and the tag taken (R188). -/
def State.accepted (s : State) : State :=
  { s with
    hpt := { s.hpt with
      slot := .ready { result := .accepted, data := [.num 1 (s.hpt.nextTag : Nat)] }
      nextTag := if s.hpt.nextTag = 255 then 1 else s.hpt.nextTag + 1 } }

/-- An event queued now, as its record (R189). -/
def State.record (s : State) (e : Event) : EventRecord := { event := e, time := s.hpt.timeOfDay }

/-- Slot `k` is PROGRAMMED with a watch whose condition the item meets (R118). -/
def State.watchMatches (s : State) (i : Item) (k : Nat) : Bool := (s.cap.slots.get k).watch.any fun w => w.holds i

/-- Slot `k` matches the item, is enabled and has the action (R121). -/
def State.watchActs (s : State) (i : Item) (a : WatchAction) (k : Nat) : Bool :=
  (s.cap.slots.get k).watch.any fun w => w.holds i && w.enable && decide (w.action = a)

/-- An enabled HOLD watch matches the item (R121, R122). -/
def State.heldBack (s : State) (i : Item) : Bool := (List.range 4).any (s.watchActs i .hold)

/-- An offered request frame is taken (R49). -/
def State.TakesFrame (s : State) : Prop := (s.lnk.state = .live ∨ s.lnk.state = .joining) ∧ s.lnk.requestFrames < 12

/-- The rows of a table of refusals in their order: a request is refused with the code of the first condition that
holds, and nothing changes but the slot. -/
def State.FirstRefusal (s : State) (i : Instr) : List (Prop × ResultCode) → Prop
  | [] => True
  | (condition, code) :: rest =>
    (condition → exec i s = .next (refuse code s)) ∧ (¬condition → s.FirstRefusal i rest)

/-- The two rows that end every table of a request which places a frame (R49). -/
def State.linkRefusals (s : State) : List (Prop × ResultCode) :=
  [(s.lnk.state = .silent, .linkSilent), (12 ≤ s.lnk.requestFrames, .linkFull)]

/-- The rows of the table of a request which places a frame, in their order, with the two that end every such table. -/
def State.FirstFrameRefusal (s : State) (i : Instr) (rows : List (Prop × ResultCode)) : Prop :=
  s.FirstRefusal i (rows ++ s.linkRefusals)

/-- The clerk's order holds lines (R93). -/
def State.ServesLines (s : State) (clerk : Nat) : Prop := ∃ o, s.order clerk = some o ∧ 0 < o.itemCount

/-- A label record placed between two states (R131, R132, R135): it joins the tail with the next serial and the common
fields of the earlier state, its journal slot is the one after the newest, and the working values move on. -/
def State.Places (s t : State) (r : LabelRecord) (clerk : Nat) (body : LabelBody) : Prop :=
  r = { serial := s.lbl.nextSerial, station := s.hpt.straps.station.toNat, day := s.day.day, time := s.hpt.timeOfDay,
        clerk := clerk, body := body, slot := ringNext 128 s.lbl.newest }
    ∧ t.lbl.records = s.lbl.records ++ [r]
    ∧ t.lbl.nextSerial = (if 999999 ≤ s.lbl.nextSerial then 1 else s.lbl.nextSerial + 1)
    ∧ t.lbl.newest = r.slot

/-- The journal append that placing a record hands (R135, R136): the entry in its slot, and the label word with the next
serial and that slot (both packed by assumption 7). -/
def LabelRecord.appended (r : LabelRecord) (next : Nat) : Op :=
  .journalAppend r.slot (journalEntry r) (labelWord next r.slot)

/-- The update that a late item posts (R108). -/
def unattachedPosting (price : Nat) : Op :=
  .update [(addrRunning offUnattachedCount, 1), (addrRunning offUnattachedAmount, price)]

/-- The record write of a fault entry recorded in the earlier state and kept by the later one (R181; packed by assumption 7,
the places of absent requests by assumption 41). -/
def State.faultWrite (s t : State) (k : FaultKind) : Op :=
  .recordWrite (addressed (addrFaultEntry t.hlm.newestFault 0) (faultEntry k s)
    ++ [(addrFault, faultWord t.hlm.newestFault t.hlm.faultCount)])

/-- What posting an item leaves (R42 to R44, R121): its label record, the journal append and the item posting handed in
this order, a WATCH_NOTE for each of the slots named, the ITEM frame of a clerk's item or its late item, and
CAPTURE_DONE. -/
def State.Posts (s t : State) (i : Item) (notes : List Nat) : Prop :=
  ∃ r, s.Places t r i.request.clerk (.item i)
    ∧ t.lbl.reservations = s.lbl.reservations
    ∧ t.cap.capture = .idle ∧ t.cap.timeout = s.cap.timeout ∧ t.cap.rounding = s.cap.rounding
    ∧ (i.request.clerk = 0 ∨ s.TakesFrame →
        t.tst.ops = s.tst.ops
            ++ [r.appended t.lbl.nextSerial, .itemPosting i.request.dept i.price i.measure.weight?]
          ∧ t.hpt.events = s.hpt.events ++ (notes.map fun k => s.record (.watchNote k r.serial))
            ++ [s.record (.captureDone i.request.tag .ok r.serial)]
          ∧ t.lnk = (if i.request.clerk = 0 then s.lnk
              else { s.lnk with queue := s.lnk.queue ++ [.item (itemFrame i r.serial)] })
          ∧ t.hlm = s.hlm)
    ∧ (i.request.clerk ≠ 0 → ¬s.TakesFrame →
        t.tst.ops = s.tst.ops
            ++ [r.appended t.lbl.nextSerial, .itemPosting i.request.dept i.price i.measure.weight?,
                unattachedPosting i.price, s.faultWrite t .lateItem]
          ∧ t.hpt.events = s.hpt.events ++ (notes.map fun k => s.record (.watchNote k r.serial))
            ++ [s.record (.lateItem r.serial i.request.clerk .linkFull),
                s.record (.captureDone i.request.tag .ok r.serial)]
          ∧ t.lnk = s.lnk
          ∧ t.hlm.faultCount = min (s.hlm.faultCount + 1) 65535
          ∧ t.hlm.attributes = s.hlm.attributes)
    ∧ t.tkt = s.tkt ∧ t.clt = s.clt ∧ t.day = s.day ∧ t.tst.mem = s.tst.mem

/-- What completion makes of an item within the price limit (R40, R118, R119, R122): held when an enabled HOLD watch
matches it, ended with LABEL_FULL when no label place is free, posted otherwise; the matching slots are set with the
serial 0, or with the item's serial when it is posted. -/
def State.Completes (s t : State) (i : Item) : Prop :=
  (s.heldBack i = true →
    ∃ set, t.cap.capture = .held i set (120 * unitsPerSecond)
      ∧ set.map Match.slot = (List.range 4).filter (s.watchMatches i)
      ∧ (∀ m ∈ set, ∃ w, (s.cap.slots.get m.slot).watch = some w ∧ m.action = w.action ∧ m.enable = w.enable)
      ∧ t.hpt.events = s.hpt.events
          ++ [s.record (.itemHeld i.request.tag ((List.range 4).filter (s.watchActs i .hold)))]
      ∧ t.lbl = s.lbl ∧ t.lnk = s.lnk ∧ t.tst = s.tst)
  ∧ (s.heldBack i = false → 8 ≤ s.lbl.records.length + s.lbl.reservations →
    t.cap.capture = .idle
      ∧ t.hpt.events = s.hpt.events ++ [s.record (.captureDone i.request.tag .labelFull 0)]
      ∧ t.lbl = s.lbl ∧ t.lnk = s.lnk ∧ t.tst = s.tst)
  ∧ (s.heldBack i = false → s.lbl.records.length + s.lbl.reservations < 8 →
    s.Posts t i ((List.range 4).filter (s.watchActs i .note)))
  ∧ (∀ k < 4, t.cap.slots.get k
      = if s.watchMatches i k then
          { s.cap.slots.get k with
            matched := true
            serial := if s.heldBack i = false ∧ s.lbl.records.length + s.lbl.reservations < 8 then s.lbl.nextSerial
              else 0 }
        else s.cap.slots.get k)

/-- An ordinary arrival at a weighing station whose zero is taken, with the filter full, no tracking test due and the
window full with it: the gross weight is g, the state LIVE and the window stable (R6, R7, R8, R11). -/
def State.StableArrival (s : State) (v : BitVec 24) (g : Int) : Prop :=
  s.power = .on ∧ (s.hpt.runState = .joining ∨ s.hpt.runState = .running)
    ∧ v.toInt ≠ -8388608 ∧ v.toInt ≠ 8388607
    ∧ 1 ≤ s.wch.filterLength ∧ s.wch.filter.length = s.wch.filterLength
    ∧ 1 ≤ s.wch.windowLength ∧ s.wch.window.length = s.wch.windowLength
    ∧ s.wch.zeroTaken = true ∧ s.wch.trackCount + 1 < s.wch.rate ∧ s.wch.restorePending = false
    ∧ g = rhaDiv (((s.wch.filter.drop 1 ++ [v.toInt]).sum - s.wch.filterLength * (s.wch.zcal + s.wch.zadj)) * s.wch.span)
        (s.wch.filterLength * 1048576)
    ∧ s.figures.underload ≤ g ∧ g ≤ s.figures.overload
    ∧ ∀ x ∈ s.wch.window.drop 1 ++ [g], ∀ y ∈ s.wch.window.drop 1 ++ [g], x - y ≤ s.figures.spread

/-- The weighing state by lines 3 to 5 of Table 1-4. -/
def State.judged (s : State) (g : Int) : WeighState :=
  if s.figures.overload < g then .over else if g < s.figures.underload then .under else .live

/-- A report that brings an attribute's raw value to `raw` (R176 to R178): held at 65,535; when the value changes the
normalized value follows Table 10-1, the worst-ever value is the lower of itself and that, the low flag is set at the
threshold, and a flag that was clear and is set queues ATTRIBUTE_LOW (the queue having room). -/
def State.Moves (s t : State) (a : Attribute) (raw : Nat) : Prop :=
  let r := s.hlm.attributes.get a
  let r' := t.hlm.attributes.get a
  (min raw 65535 = r.raw → r' = r)
    ∧ (min raw 65535 ≠ r.raw →
        r'.raw = min raw 65535
          ∧ r'.normalized = normalizedValue a (min raw 65535) s.figures.zeroBand
          ∧ r'.worst = min r.worst r'.normalized
          ∧ r'.threshold = r.threshold
          ∧ (r'.low = true ↔ ∃ x, r.threshold = some x ∧ r'.normalized ≤ x)
          ∧ (r'.low = true → r.low = false → s.hpt.events.length < 28 →
              s.record (.attributeLow a r'.normalized) ∈ t.hpt.events))

/-- VIEW_MISMATCH is raised once between two states, with a kind, a clerk and a ticket (R77): the event, and one mismatch
reported for the attribute. -/
def State.Mismatches (s t : State) (kind : MismatchKind) (clerk ticket : Option Nat) : Prop :=
  s.record (.viewMismatch kind clerk ticket) ∈ t.hpt.events
    ∧ s.Moves t .viewMismatch (s.hlm.attributes.viewMismatch.raw + 1)

/-- What a report that moves an attribute hands and queues when it is all that a step reports (R176, R178): one record write
of the record's two words (packed by assumption 7) for a changed raw value, ATTRIBUTE_LOW for a flag that was clear and is
set, and nothing else; the other attributes and the fault history are kept. -/
def State.ReportsOnly (s t : State) (a : Attribute) (raw : Nat) : Prop :=
  let r := s.hlm.attributes.get a
  let r' := t.hlm.attributes.get a
  s.Moves t a raw
    ∧ t.tst.ops = s.tst.ops
        ++ (if min raw 65535 = r.raw then []
            else [.recordWrite [(1384 + 2 * (a.number - 1), BitVec.ofNat 32 r'.raw),
                (1384 + 2 * (a.number - 1) + 1, BitVec.ofNat 32 (r'.normalized + r'.worst * 256))]])
    ∧ t.hpt = { s.hpt with events := s.hpt.events
        ++ (if min raw 65535 ≠ r.raw ∧ r'.low = true ∧ r.low = false then [s.record (.attributeLow a r'.normalized)]
            else []) }
    ∧ (∀ b, b ≠ a → t.hlm.attributes.get b = s.hlm.attributes.get b)
    ∧ t.hlm.newestFault = s.hlm.newestFault ∧ t.hlm.faultCount = s.hlm.faultCount

/-- The one operation that a fault recorded in a state hands (Table 10-5, R181, R182): the eight words of its entry and the
fault word, packed by assumption 7; a request of the ring with its code and its first four parameter bytes, missing ones as
0, the requests held first and the absent places after them (assumption 41). -/
def State.faultRecord (s : State) (kind slot count : Nat) : Op :=
  let code (k : Nat) : Nat := (s.hpt.ring[k]?.map fun e => e.code.toNat).getD 0
  let bytes (k : Nat) : Nat :=
    (s.hpt.ring[k]?.map fun e =>
      (e.params.getD 0 0).toNat * 16777216 + (e.params.getD 1 0).toNat * 65536 + (e.params.getD 2 0).toNat * 256
        + (e.params.getD 3 0).toNat).getD 0
  let at0 := 1400 + 8 * (slot - 1)
  .recordWrite
    [(at0, BitVec.ofNat 32 (kind + s.hpt.runState.number * 256 + s.cap.capture.number * 65536)),
     (at0 + 1, BitVec.ofNat 32 s.hpt.timeOfDay), (at0 + 2, BitVec.ofNat 32 s.day.day),
     (at0 + 3, BitVec.ofNat 32 (code 0 + code 1 * 256 + code 2 * 65536)),
     (at0 + 4, BitVec.ofNat 32 (bytes 0)), (at0 + 5, BitVec.ofNat 32 (bytes 1)), (at0 + 6, BitVec.ofNat 32 (bytes 2)),
     (at0 + 7, 0), (3, BitVec.ofNat 32 (count + slot * 65536))]

/-- An event that finds 32 records queued (R189): it is dropped, the overflow count rises by one up to 255, and one
EVENT_OVERFLOW fault is recorded and its write handed. -/
def State.DropsEvent (s t : State) : Prop :=
  t.hpt.events = s.hpt.events
    ∧ t.hpt.overflow = min (s.hpt.overflow + 1) 255
    ∧ t.hlm = { s.hlm with
        newestFault := if s.hlm.newestFault = 0 ∨ 6 ≤ s.hlm.newestFault then 1 else s.hlm.newestFault + 1
        faultCount := min (s.hlm.faultCount + 1) 65535 }
    ∧ t.tst = { s.tst with ops := s.tst.ops ++ [s.faultRecord 7 t.hlm.newestFault t.hlm.faultCount] }

/-- The link at a receiver after an accepted frame (R56, R59): it is kept but for the roster, and an attempt under way for
another frame is over (assumption 12). -/
def State.linkHeard (s t : State) : Link :=
  { s.lnk with attempt := none, formWaiting := false, drive := .recessive, roster := t.lnk.roster }

/-- The link at the sender after its head frame is accepted, with the frames that its queue then holds (R56, R63, R67): the
counts return to 0, and the beacon timer restarts while the link is LIVE. -/
def State.linkSent (s t : State) (queue : List TxFrame) : Link :=
  { s.lnk with
    queue := queue
    attempt := none
    attemptCount := 0
    formWaiting := false
    clash := 0
    beaconTimer := if s.lnk.state = .live then some (5 * unitsPerSecond) else s.lnk.beaconTimer
    drive := .recessive
    roster := t.lnk.roster }

/-- The sender's link, `rest` being the frames that stay of those behind the head: station frames may have moved up behind
them, and nothing moves up from an empty backlog (R50, R56). -/
def State.Sent (s t : State) (rest : List TxFrame) : Prop :=
  ∃ moved, t.lnk = { s.linkSent t (rest ++ moved) with backlog := t.lnk.backlog }
    ∧ (∀ f ∈ moved, f.isRequest = false)
    ∧ (s.lnk.backlog = Backlog.none → moved = [] ∧ t.lnk.backlog = Backlog.none)

/-- The link after an accepted frame that brings nothing into the queue, at a receiver and at its sender. -/
def State.LinkAfter (s t : State) (f : Frame) : Prop :=
  (s.sends f = false → t.lnk = s.linkHeard t)
    ∧ ∀ head rest, s.sends f = true → s.lnk.queue = head :: rest → s.Sent t rest

/-- The addresses of the four station figures of a record (R172). -/
def figureAddresses (slot : Nat) : List Nat :=
  [104 + 96 * (slot - 1) + 72, 104 + 96 * (slot - 1) + 73, 104 + 96 * (slot - 1) + 83, 104 + 96 * (slot - 1) + 74]

/-- A DAYSUM read bears a number that no read of these operations bears (assumption 50). -/
def FreshRead (number : Nat) (ops : List Op) : Prop := ∀ addresses, Op.read addresses (.daysum number) ∉ ops

/-- The first item of the backlog takes the one free station place behind `rest` (R50): the CENSUS_REPLY, else the
CENSUS_TX of the lowest clerk, the FREE clerks before it removed without a frame, else the DAYSUM of the first day with the
read of its figures (R172). -/
def State.MovesFirst (s t : State) (rest : List TxFrame) : Prop :=
  let b := s.lnk.backlog
  let due := b.clerks.dropWhile fun c => (s.order c).isNone
  (b.replyDue = true →
    t.lnk.queue = rest ++ [.censusReply] ∧ t.lnk.backlog = { b with replyDue := false })
  ∧ (b.replyDue = false → ∀ c later, due = c :: later →
    t.lnk.queue = rest ++ [.censusTx c] ∧ t.lnk.backlog = { b with clerks := later })
  ∧ (b.replyDue = false → due = [] → ∀ d later, b.days = d :: later →
    ∃ n, t.lnk.queue = rest ++ [.daysum d n none]
      ∧ t.lnk.backlog = { replyDue := false, clerks := [], days := later }
      ∧ ∀ slot, s.recordSlot d = some slot →
          FreshRead n s.tst.ops ∧ .read (figureAddresses slot) (.daysum n) ∈ t.tst.ops)
  ∧ (b.replyDue = false → due = [] → b.days = [] → t.lnk.queue = rest ∧ t.lnk.backlog = Backlog.none)

/-- What a joiner takes from the figures of a CENSUS_REPLY or a BEACON of its own mode and wrap (R87 steps 2 and 3): the
newer of each, and when it took one in tracked mode the list rebuilt from highest called to highest issued, at most 48
entries, bound tickets left out (the cut first, assumption 19; figures above the own W by assumption 34). -/
def State.TakesFigures (s t : State) (issued called : Nat) : Prop :=
  let wrap := s.ticketConfig.wrap
  let taken := newer wrap issued s.tkt.issued = true ∨ newer wrap called s.tkt.called = true
  t.tkt.issued = (if newer wrap issued s.tkt.issued then issued else s.tkt.issued)
    ∧ t.tkt.called = (if newer wrap called s.tkt.called then called else s.tkt.called)
    ∧ (s.ticketConfig.untracked = true ∨ ¬taken → t.tkt.waiting = s.tkt.waiting)
    ∧ (s.ticketConfig.untracked = false → taken → t.tkt.issued ≤ wrap → t.tkt.called ≤ wrap → ∀ span : Nat,
        span = (if newer wrap t.tkt.issued t.tkt.called then
            (if t.tkt.called = 0 then t.tkt.issued else (t.tkt.issued + wrap - t.tkt.called) % wrap)
          else 0) →
        t.tkt.waiting
          = (((List.range (min span 48)).map fun k => (t.tkt.called + k) % wrap + 1).filter
              fun n => !s.bound n).map fun n => { ticket := n, time := none, station := none, passes := 0 })
    ∧ t.tkt.nowServing = s.tkt.nowServing ∧ t.tkt.conflict = s.tkt.conflict ∧ t.tkt.passes = s.tkt.passes
    ∧ t.tkt.config = s.tkt.config

/-- The head frame of a request is removed at its formation with a code (Table 3-5). Of two conditions of a CALL the empty
list comes first (assumption 33). -/
def State.RemovesHead (s : State) (f : TxFrame) (code : ResultCode) : Prop :=
  let next := if s.tkt.issued = s.ticketConfig.wrap then 1 else s.tkt.issued + 1
  match f with
  | .call _ clerk =>
    (code = .noWaiting ∧ s.ticketConfig.untracked = false ∧ s.tkt.waiting = [])
      ∨ (code = .clerkBusy ∧ (s.ticketConfig.untracked = true ∨ s.tkt.waiting ≠ [])
          ∧ ∃ o, s.order clerk = some o ∧ 0 < o.itemCount)
  | .issue _ =>
    code = .waitingFull ∧ (48 ≤ s.tkt.waiting.length ∨ s.waits next = true ∨ s.bound next = true)
  | .pass _ clerk =>
    code = .clerkBusy ∧ ∀ o, s.order clerk = some o → o.ticket = none ∨ 0 < o.itemCount
  | .voidLine _ clerk line =>
    (code = .noOrder ∧ s.order clerk = none)
      ∨ (code = .param ∧ ∃ o, s.order clerk = some o ∧ ∀ l, o.line line = some l → l.voided = true)
  | .txClose _ clerk =>
    (code = .noOrder ∧ s.order clerk = none) ∨ (code = .empty ∧ ∃ o, s.order clerk = some o ∧ o.itemCount = 0)
  | .cancelHost _ clerk => code = .noOrder ∧ s.order clerk = none
  | .dayClose _ _ forced => code = .openOrders ∧ forced = false ∧ s.clt.orders ≠ []
  | .item _ | .cancelExpiry _ | .daysum .. | .daysumAsk .. | .censusAsk | .censusReply | .censusTx _ | .beacon => False

/-- The head frame is removed at its formation without an event (Table 3-5). -/
def State.RemovesQuietly (s : State) (f : TxFrame) : Prop :=
  match f with
  | .cancelExpiry clerk => ∀ o, s.order clerk = some o → o.expiryMark = false
  | .daysum day _ _ => s.recordSlot day = none
  | .censusTx clerk => s.order clerk = none
  | .call .. | .issue _ | .pass .. | .voidLine .. | .txClose .. | .cancelHost .. | .dayClose .. | .item _ | .daysumAsk ..
  | .censusAsk | .censusReply | .beacon => False

/-- The ITEM frame at the head is removed at its formation as a late item with a reason (R107). -/
def State.MakesLate (s : State) (f : ItemFrame) (reason : LateReason) : Prop :=
  (reason = .closed ∧ s.order f.clerk = none ∧ f.openAtCapture = true)
    ∨ (reason = .linesFull ∧ ∃ o, s.order f.clerk = some o ∧ 40 ≤ o.lineCount)

/-- Reads of day records that frames moved up from the backlog bring with them (R50, R172). -/
def DaysumReads (reads : List Op) : Prop :=
  ∀ op ∈ reads, ∃ slot read, op = .read (daysumAddresses slot) (.daysum read)

/-- The event queue has room for what a step may queue and no threshold lies above the range of Table 11-6, so that a raw
value that falls to 0 queues nothing (R178). -/
def State.CloseRoom (s : State) : Prop :=
  s.hpt.events.length + s.lnk.queue.length ≤ 32 ∧ ∀ a x, (s.hlm.attributes.get a).threshold = some x → x ≤ 99

/-- The commands that start a close of the day while the capture unit is IDLE: DAYCLOSE_ACCEPTED of the present or of a later
day, at a receiver or at the sender of the queue's head, CLOSE_START with a latched close, and JOIN_DAY (R164, R165, R169);
with the close, the station that a DAYCLOSE is heard from, the tag of the sender's request, and what the slot holds then. -/
def State.StartsClose (s : State) (i : Instr) (c : LatchedClose) (heard : Option (BitVec 4)) (own : Option Nat)
    (slot : Slot) : Prop :=
  s.cap.capture = .idle
    ∧ ((∃ (origin : BitVec 4) (p : DayClosePayload), i = .dayCloseAccepted origin p ∧ s.receives = true
          ∧ p.day.toNat ≠ 0 ∧ s.day.latch = none
          ∧ ((p.day.toNat = s.day.day ∧ c.newDay = (if s.day.day = 65535 then 1 else s.day.day + 1) ∧ c.late = false)
            ∨ (laterDay p.day.toNat s.day.day = true ∧ c.late = true
                ∧ c.newDay = if p.day.toNat = 65535 then 1 else p.day.toNat + 1))
          ∧ c.forced = p.forced ∧ heard = some origin ∧ slot = s.hpt.slot
          ∧ ((s.sends ⟨origin, .dayClose p⟩ = false ∧ own = none)
            ∨ (s.sends ⟨origin, .dayClose p⟩ = true
                ∧ ∃ tag day forced rest, s.lnk.queue = .dayClose tag day forced :: rest ∧ own = some tag)))
      ∨ (i = .closeStart ∧ s.day.latch = some c ∧ heard = none ∧ own = none ∧ slot = s.hpt.slot)
      ∨ (i = .joinDay ∧ s.asked .joinDay ∧ s.hpt.runState = .running ∧ s.day.behind = true
          ∧ c = { newDay := s.day.highest, late := true, forced := false } ∧ heard = none ∧ own = none
          ∧ slot = .ready { result := .ok, data := [] }))

/-- The record write of an attribute's two words (R176; packed by assumption 7). -/
def AttributeRecord.stored (r : AttributeRecord) (a : Attribute) : Op :=
  .recordWrite [(1384 + 2 * (a.number - 1), BitVec.ofNat 32 r.raw),
    (1384 + 2 * (a.number - 1) + 1, BitVec.ofNat 32 (r.normalized + r.worst * 256))]

/-- A day-scoped attribute after a close start (R167 step 5, R177): a raw value other than 0 returns to 0, and with it the
normalized value to 100 and the low flag below its threshold; the worst-ever value is kept. -/
def AttributeRecord.closed (r : AttributeRecord) : AttributeRecord :=
  if r.raw = 0 then r
  else { r with raw := 0, normalized := 100, worst := min r.worst 100, low := r.threshold.any fun x => decide (100 ≤ x) }

/-- The link after a close start of which no own request is part (R57, R167 step 3): `before` with the frames of classes 1..7
taken out; a head of these classes under way is withdrawn, and another goes on (assumption 43). -/
def Link.closed (before : Link) : Link :=
  let head := before.queue.head?.any TxFrame.isDayScoped
  { before with
    queue := before.queue.filter fun f => !f.isDayScoped
    attempt := if head then none else before.attempt
    attemptCount := if head then 0 else before.attemptCount
    drive := if head && before.attempt.isSome then .recessive else before.drive }

/-- A DAYCLOSE that starts no close (R164, R165): at a receiver the link alone may follow, as R56 and R59 say; at the sender
frames may move up from the backlog, with the reads of DAYSUM frames (R50, R172). -/
def State.KeepsAllBut (s t : State) (f : Frame) : Prop :=
  t.power = s.power ∧ t.wch = s.wch ∧ t.cap = s.cap ∧ t.lbl = s.lbl ∧ t.tkt = s.tkt ∧ t.clt = s.clt
    ∧ (s.sends f = false → t.hpt = s.hpt ∧ t.tst = s.tst ∧ t.hlm = s.hlm ∧ t.lnk = s.linkHeard t)
    ∧ (s.sends f = true → s.hpt.events.length < 32 → t.hlm = s.hlm ∧ ∃ reads, DaysumReads reads
        ∧ (s.lnk.backlog = Backlog.none → reads = []) ∧ t.tst = { s.tst with ops := s.tst.ops ++ reads })

/-- The attribute record that store preparation loads from its two words (R180): the raw value as stored, the normalized
value recomputed, the worst-ever value the lower of that and the stored one (0 stands for none); 0, 100 and 100 when one of
the words is UNCORRECTABLE (a number read outside its range by assumption 45, the second word's packing by assumption 7). -/
def State.loaded (s : State) (a : Attribute) : AttributeRecord :=
  let first := Memory.read s.tst.mem (1384 + 2 * (a.number - 1))
  let second := Memory.read s.tst.mem (1384 + 2 * (a.number - 1) + 1)
  let n := normalizedValue a first.data s.figures.zeroBand
  if first.judge = .uncorrectable ∨ second.judge = .uncorrectable then
    { raw := 0, normalized := 100, worst := 100, threshold := none, low := false }
  else
    { raw := first.data, normalized := n, worst := if second.data / 256 = 0 then n else min (second.data / 256) n,
      threshold := none, low := false }

/-- An attribute record is written back at the load: one of its words is UNCORRECTABLE, or its stored words differ from what
is loaded (R180). -/
def State.writtenBack (s : State) (a : Attribute) : Bool :=
  let first := Memory.read s.tst.mem (1384 + 2 * (a.number - 1))
  let second := Memory.read s.tst.mem (1384 + 2 * (a.number - 1) + 1)
  decide (first.judge = .uncorrectable ∨ second.judge = .uncorrectable
    ∨ second.data ≠ (s.loaded a).normalized + (s.loaded a).worst * 256)

/-- What the loads of store preparation write back, in order (R160, R180): the business day word and the history word that
read UNCORRECTABLE, the attribute records, and the fault word that reads UNCORRECTABLE. -/
def State.writeBacks (s : State) (newestSlot : Nat) : List Op :=
  (if (Memory.read s.tst.mem 0).judge = .uncorrectable then [.recordWrite [(0, 1)]] else [])
    ++ (if (Memory.read s.tst.mem 2).judge = .uncorrectable then [.recordWrite [(2, BitVec.ofNat 32 newestSlot)]] else [])
    ++ ((allAttributes.filter s.writtenBack).map fun a => (s.loaded a).stored a)
    ++ (if (Memory.read s.tst.mem 3).judge = .uncorrectable then [.recordWrite [(3, 0)]] else [])

/-- The row of the operation table that performs an operation (Table 8-4). -/
def Op.command (op : Op) : Instr :=
  match op with
  | .read .. => .storeRead
  | .update _ => .storeUpdate
  | .itemPosting .. => .itemPosting
  | .journalAppend .. => .journalAppend
  | .takenFlag .. => .takenFlagUpdate
  | .counterUpdate .. => .counterUpdate
  | .recordWrite _ => .recordWrite
  | .closeCopy _ => .closeCopy

end Sys2Proof.Machine

namespace Sys2Proof

/-- The row that accepts a frame. -/
def Frame.command (f : Frame) : Instr :=
  match f.payload with
  | .dayClose p => .dayCloseAccepted f.origin p
  | .call p => .callAccepted f.origin p
  | .issue p => .issueAccepted f.origin p
  | .pass p => .passAccepted f.origin p
  | .txClose p => .txCloseAccepted f.origin p
  | .txCancel p => .txCancelAccepted f.origin p
  | .voidLine p => .voidAccepted f.origin p
  | .item p => .itemAccepted f.origin p
  | .daysum p => .daysumAccepted f.origin p
  | .daysumAsk d => .daysumAskAccepted f.origin d
  | .censusAsk => .censusAskAccepted f.origin
  | .censusReply p => .censusReplyAccepted f.origin p
  | .censusTx p => .censusTxAccepted f.origin p
  | .beacon p => .beaconAccepted f.origin p

/-- The commands in which a word of the store may change: the resets, which complete the listed operations, the walks,
the store's own operations and scrub steps, and a disturbance of the retention supply (R141, R144, R158). -/
def Instr.reachesWords (i : Instr) : Bool :=
  match i with
  | .powerOn _ _ | .mainPowerFail | .resetAssert | .resetRelease _ | .verificationWalkEnd | .initializationWalkEnd
  | .scrubRequest | .storeRead | .storeUpdate | .itemPosting | .journalAppend | .takenFlagUpdate | .counterUpdate
  | .recordWrite | .closeCopy | .vretDisturbance _ _ => true
  | .selectionEnd _ | .configure _ | .start | .restart | .setTime _ | .readStatus | .takeEvent | .zero | .tareWeigh
  | .tareSet _ | .tareClear | .readWeight | .weighItem _ _ _ _ _ _ | .countItem _ _ _ _ _ | .abortCapture
  | .releaseHeld | .discardHeld | .setWatch _ _ _ _ _ _ | .clearWatchStatus _ | .readWatches | .takeLabel
  | .readJournal _ | .issueTicket | .callNext _ | .passTicket _ | .readTickets | .totalOrder _ | .cancelOrder _
  | .voidLine _ _ | .readOrder _ | .closeDay _ | .joinDay | .askDaysum _ | .readDayRecord _ | .readTotals _
  | .readHealth | .readFaults _ | .clearStoreLatch | .readRoster | .sampleArrival _ _ | .sampleWatchdogExpiry
  | .captureTimerExpiry | .holdTimerExpiry | .beaconTimerExpiry | .censusTimerExpiry | .rosterAgeExpiry _
  | .orderExpiry _ | .timeOfDayTick | .linkAttemptStart | .arbitrationLost | .attemptBitError | .attemptObjected
  | .frameDamaged _ | .dayCloseAccepted _ _ | .callAccepted _ _ | .issueAccepted _ _ | .passAccepted _ _
  | .txCloseAccepted _ _ | .txCancelAccepted _ _ | .voidAccepted _ _ | .itemAccepted _ _ | .daysumAccepted _ _
  | .daysumAskAccepted _ _ | .censusAskAccepted _ | .censusReplyAccepted _ _ | .censusTxAccepted _ _
  | .beaconAccepted _ _ | .closeStart => false

end Sys2Proof
end

