-- ==== Sys2Proof/Certificates/Slice0/Obligations.lean ====
section
/-! DEFINITION. The statements for the provers: what the commands do by the numbered rules of the manual, what every step
keeps, and where every command completes. A request is stated at the owner's taking of its PENDING block
(`State.asked`); `Obligations.RequestFromAFreeSlot` carries each of them over to a request that the host shifts into a free
slot. Statements that rest on a choice of the model name its log entry. -/

open Sys2Proof Sys2Proof.Machine

/-! ### The machine -/

/-- A step runs the command at the front of the queue on the state with the rest of the queue. -/
def Obligations.StepRunsFrontCommand : Prop :=
  ∀ (s : State) (c : Instr) (rest : List Instr), s.pending = c :: rest → step s = exec c { s with pending := rest }

/-- Every command ends in a next state and leaves the queue alone: the part has no stop (the model's choice, log 6). -/
def Obligations.EveryCommandHasANextState : Prop :=
  ∀ (i : Instr) (s : State), ∃ t, exec i s = .next t ∧ t.pending = s.pending

/-- What a power-on leaves in the volatile blocks, before the walk has ended. -/
def Obligations.ResetLeavesStorePreparation : Prop :=
  State.reset.pending = [] ∧ State.reset.hpt.runState = .storePrep ∧ State.reset.hpt.configured = false
    ∧ State.reset.hpt.slot = .empty ∧ State.reset.hpt.nextTag = 1 ∧ State.reset.hpt.ring = []
    ∧ State.reset.hpt.events = [] ∧ State.reset.attn = false ∧ State.reset.hpt.overflow = 0
    ∧ State.reset.hpt.timeOfDay = 0
    ∧ State.reset.wch.state = .filling ∧ State.reset.wch.zadj = 0 ∧ State.reset.wch.zref = 0
    ∧ State.reset.wch.zeroTaken = false ∧ State.reset.wch.tare = none ∧ State.reset.wch.filter = []
    ∧ State.reset.wch.window = [] ∧ State.reset.wch.gross = none ∧ State.reset.wch.trackCount = 0
    ∧ State.reset.wch.watchdog = none ∧ State.reset.wch.restorePending = false
    ∧ State.reset.cap.capture = .idle ∧ (∀ k, (State.reset.cap.slots.get k) = ⟨none, false, 0⟩)
    ∧ State.reset.lbl.records = [] ∧ State.reset.lbl.reservations = 0
    ∧ State.reset.lnk.state = .off ∧ State.reset.lnk.queue = [] ∧ State.reset.lnk.clash = 0
    ∧ State.reset.lnk.roster = [] ∧ State.reset.lnk.censusTimer = none ∧ State.reset.lnk.beaconTimer = none
    ∧ State.reset.tkt.config = none ∧ State.reset.tkt.issued = 0 ∧ State.reset.tkt.called = 0
    ∧ State.reset.tkt.nowServing = none ∧ State.reset.tkt.waiting = [] ∧ State.reset.tkt.passes = []
    ∧ State.reset.tkt.conflict = false
    ∧ State.reset.clt.orders = []
    ∧ State.reset.day.latch = none ∧ State.reset.day.deferred = [] ∧ State.reset.day.behind = false
    ∧ State.reset.day.copiesPending = 0
    ∧ State.reset.tst.ops = [] ∧ State.reset.tst.latch = .empty ∧ State.reset.tst.scrubPending = 0
    ∧ State.reset.tst.walk.isSome = true ∧ State.reset.lockedOut = false

/-! ### What every step keeps -/

/-- The state after reset meets every invariant. -/
def Obligations.ResetMeetsTheInvariants : Prop :=
  State.reset.StoreCanonical ∧ State.reset.QueueBounded ∧ State.reset.PortBounded ∧ State.reset.LatchedWhileBusy
    ∧ State.reset.WaitingSound ∧ State.reset.OrdersSound ∧ State.reset.LabelsSound ∧ State.reset.ZeroSound
    ∧ State.reset.AmountsInStep

/-- Every step keeps the words of the store in canonical form (the form is the model's, log 5). -/
def Obligations.StepKeepsTheStoreCanonical : Prop :=
  ∀ s t : State, s.StoreCanonical → step s = .next t → t.StoreCanonical

/-- Every step keeps at most 12 request frames and 4 station frames in the transmit queue. -/
def Obligations.StepKeepsTheQueueBounded : Prop :=
  ∀ s t : State, s.QueueBounded → step s = .next t → t.QueueBounded

/-- Every step keeps the event queue, the ring, the overflow count, the next tag and the time of day in their bounds. -/
def Obligations.StepKeepsThePortBounded : Prop :=
  ∀ s t : State, s.PortBounded → step s = .next t → t.PortBounded

/-- A latched close exists only while the capture unit is WAITING or HELD, after every step. -/
def Obligations.StepKeepsTheLatchWhileBusy : Prop :=
  ∀ s t : State, s.LatchedWhileBusy → step s = .next t → t.LatchedWhileBusy

/-- After every step the waiting list holds at most 48 entries, no ticket twice and none bound to an OPEN order. -/
def Obligations.StepKeepsTheWaitingListSound : Prop :=
  ∀ s t : State, s.WaitingSound → step s = .next t → t.WaitingSound

/-- After every step each clerk has at most one order, and an order with a list has its figures from its lines. -/
def Obligations.StepKeepsTheOrdersSound : Prop :=
  ∀ s t : State, s.OrdersSound → step s = .next t → t.OrdersSound

/-- After every step records and reservations fit the 8 label places, and each reservation has its queued frame. -/
def Obligations.StepKeepsTheLabelPlaces : Prop :=
  ∀ s t : State, s.LabelsSound → step s = .next t → t.LabelsSound

/-- After every step the zero-use figure is at most the zero band. -/
def Obligations.StepKeepsTheZeroInTheBand : Prop :=
  ∀ s t : State, s.ZeroSound → step s = .next t → t.ZeroSound

/-- The words of the store change only by the walks, the store's operations and scrub steps, a disturbance of the
supply, and the operations that a reset completes. -/
def Obligations.OnlyStoreStepsChangeWords : Prop :=
  ∀ (i : Instr) (s t : State), i.reachesWords = false → exec i s = .next t → t.tst.mem = s.tst.mem

/-! ### Encodings -/

/-- A frame whose fields are in range is read back whole from the envelope in which it is sent. -/
def Obligations.SentFramesAreReadBack : Prop :=
  ∀ f : Frame, payloadInRange f.payload = true → receivedFrame (sentEnvelope f) = some f

/-- A request block and the command that it calls for spell each other. -/
def Obligations.RequestBlocksAreReadBack : Prop :=
  ∀ (i : Instr) (b : RequestBlock), requestBlock i = some b ↔ requestCommand b = some i

/-! ### The host port -/

/-- SELECTION_END, in whole bytes (log 51). That a block of the code byte alone is answered PARAM, whatever its code, is the
model's choice (log 54). -/
def Obligations.SelectionTakesOrDiscards : Prop :=
  ∀ (s : State), s.power = .on →
    exec (.selectionEnd []) s = .next s
    ∧ (∀ mosi, mosi ≠ [] → ¬s.slotFree →
        exec (.selectionEnd mosi) s = .next { s with hpt.miso := shiftedOut [0x3C, 0, 0, 0] mosi.length })
    ∧ (∀ rest, s.slotFree →
        exec (.selectionEnd (0 :: rest)) s
          = .next { s with
              hpt.miso := shiftedOut s.shiftedBlock (rest.length + 1)
              hpt.slot := .empty })
    ∧ (∀ (code : Byte) (params extra : List Byte), s.slotFree → code ≠ 0 →
        requestLength code.toNat = some params.length →
        let mosi := code :: BitVec.ofNat 8 params.length :: (params ++ extra)
        let ring := s.hpt.ring ++ [{ code := code, params := (params ++ [0, 0, 0, 0]).take 4 }]
        exec (.selectionEnd mosi) s
          = .next { s with
              hpt.miso := shiftedOut s.shiftedBlock mosi.length
              hpt.ring := ring.drop (ring.length - 3)
              hpt.slot :=
                if s.hpt.runState = .storePrep ∧ code ≠ 5 then .ready { result := .wrongState, data := [] }
                else .taken { code := code, params := params } })
    ∧ (∀ (code : Byte) (rest : List Byte), s.slotFree → code ≠ 0 →
        (requestLength code.toNat = none ∨ rest = []
          ∨ (∃ n r, rest = n :: r ∧ (requestLength code.toNat ≠ some n.toNat ∨ r.length < n.toNat))) →
        ∃ t, exec (.selectionEnd (code :: rest)) s = .next t
          ∧ t.hpt.slot = .ready { result := .param, data := [] }
          ∧ (t.hpt.ring.getLast?.map RingEntry.code) = some code
          ∧ { t with hpt := s.hpt } = s)

/-- A request command when its block is not the one PENDING (the model's choice, log 2): it stands for the selection that
carries its block, and then for the owner's taking. -/
def Obligations.RequestFromAFreeSlot : Prop :=
  ∀ (i : Instr) (b : RequestBlock) (s : State), requestBlock i = some b →
    (s.power = .on → s.slotFree → s.hpt.runState ≠ .storePrep ∨ i = .readStatus →
      ∃ t, exec (.selectionEnd (blockBytes b)) s = .next t ∧ t.asked i ∧ exec i s = exec i t)
    ∧ (s.power = .on → s.slotFree → s.hpt.runState = .storePrep → i ≠ .readStatus →
      exec i s = exec (.selectionEnd (blockBytes b)) s)
    ∧ (s.power = .on → ¬s.slotFree → s.hpt.slot ≠ .taken b →
      exec i s = .next { s with hpt.miso := shiftedOut [0x3C, 0, 0, 0] (b.params.length + 2) })
    ∧ (s.power ≠ .on → ¬s.asked i → exec i s = .next s)

/-- CONFIGURE. That the run state, the strap fault and an earlier CONFIGURE are judged before the fields is the model's choice
(log 46). -/
def Obligations.ConfigureSetsTheBlocks : Prop :=
  ∀ (c : ConfigBlock) (s : State), s.asked (.configure c) →
    (s.hpt.runState ≠ .config ∨ s.hpt.straps.cap = 3 ∨ s.hpt.configured = true →
      exec (.configure c) s = .next (refuse .wrongState s))
    ∧ (s.hpt.runState = .config → s.hpt.straps.cap ≠ 3 → s.hpt.configured = false → configInRange c = false →
      exec (.configure c) s = .next (refuse .param s))
    ∧ (s.hpt.runState = .config → s.hpt.straps.cap ≠ 3 → s.hpt.configured = false → configInRange c = true →
      ∀ threshold : Attribute → Nat,
      threshold = (fun a => match a with
        | .zeroUse => c.lowZeroUse.toNat
        | .overloads => c.lowOverloads.toNat
        | .motionTimeouts => c.lowMotion.toNat
        | .storeErrors => c.lowStore.toNat
        | .linkRetries => c.lowRetries.toNat
        | .viewMismatch => c.lowMismatch.toNat) →
      ∃ t, exec (.configure c) s = .next t
        ∧ t.hpt.configured = true ∧ t.hpt.slot = .ready { result := .ok, data := [] } ∧ t.hpt.runState = .config
        ∧ t.wch = { s.wch with
            rate := c.rate.toNat
            filterLength := c.filterLength.toNat
            windowLength := c.window.toNat
            tracking := decide (c.tracking.toNat = 1)
            zcal := c.zcal.toInt
            span := c.span.toNat
            clamp := trackingClamp s.figures.zeroBand c.span.toNat }
        ∧ t.cap = { s.cap with
            timeout := if c.timeout.toNat = 0 then 3 else c.timeout.toNat
            rounding := c.rounding.toNat }
        ∧ t.tkt = { s.tkt with
            config := some { untracked := decide (c.ticketMode.toNat = 1), wrap := c.wrap.toNat } }
        ∧ t.clt = { s.clt with expiryMinutes := if c.expiry.toNat = 0 then 20 else c.expiry.toNat }
        ∧ (∀ a, let r := s.hlm.attributes.get a
            t.hlm.attributes.get a
              = { r with threshold := some (threshold a), low := decide (r.normalized ≤ threshold a) })
        -- an ATTRIBUTE_LOW for each attribute found low, in attribute order (R178)
        ∧ (s.hpt.events.length ≤ 26 →
            t.hpt = { s.hpt with
                configured := true
                slot := .ready { result := .ok, data := [] }
                events := s.hpt.events
                  ++ (allAttributes.filter fun a => decide ((s.hlm.attributes.get a).normalized ≤ threshold a)).map
                      (fun a => s.record (.attributeLow a (s.hlm.attributes.get a).normalized)) }
              ∧ t.tst = s.tst ∧ t.hlm.newestFault = s.hlm.newestFault ∧ t.hlm.faultCount = s.hlm.faultCount)
        ∧ t.pending = s.pending ∧ t.power = s.power ∧ t.lbl = s.lbl ∧ t.lnk = s.lnk ∧ t.day = s.day
        ∧ t.tst.mem = s.tst.mem)

/-- START and RESTART. -/
def Obligations.StartAndRestartBeginACensus : Prop :=
  (∀ s : State, s.asked .start →
    (s.hpt.runState ≠ .config ∨ s.hpt.configured = false → exec .start s = .next (refuse .wrongState s))
    ∧ (s.hpt.runState = .config → s.hpt.configured = true → s.hpt.straps.cap ≠ 3 →
      exec .start s = .next { s with
        hpt := { s.hpt with runState := .joining, slot := .ready { result := .ok, data := [] } }
        wch := { s.wch with
          filter := [], window := [], gross := none, state := .filling, tare := none, trackCount := 0,
          watchdog := some (4000 * unitsPerMilli / s.wch.rate), restorePending := false }
        lnk := { Link.atReset with
          state := .joining, queue := [.censusAsk], censusTimer := some (400 * unitsPerMilli) }
        clt := { s.clt with censusOpen := 0 } }))
  ∧ (∀ s : State, s.asked .restart →
    (s.hpt.runState = .storePrep ∨ s.hpt.runState = .config → exec .restart s = .next (refuse .wrongState s))
    ∧ (s.hpt.runState = .joining ∨ s.hpt.runState = .running →
      ∃ t, exec .restart s = .next t
        ∧ t.hpt.runState = .joining ∧ t.hpt.slot = .ready { result := .ok, data := [] }
        ∧ t.hpt.events = (allAttributes.filter fun a => (s.hlm.attributes.get a).isLow).map (fun a =>
            { event := .attributeLow a (s.hlm.attributes.get a).normalized, time := s.hpt.timeOfDay })
        ∧ t.hpt.overflow = 0 ∧ t.hpt.timeOfDay = s.hpt.timeOfDay ∧ t.hpt.second = s.hpt.second
        ∧ t.hpt.nextTag = s.hpt.nextTag
        ∧ t.wch = { s.wch with
            filter := [], window := [], gross := none, state := .filling, tare := none, trackCount := 0,
            watchdog := some (4000 * unitsPerMilli / s.wch.rate), restorePending := false }
        ∧ t.cap.capture = .idle
        ∧ (∀ k, t.cap.slots.get k = { s.cap.slots.get k with matched := false, serial := 0 })
        ∧ t.lbl = { s.lbl with records := [], reservations := 0 }
        ∧ t.lnk = { Link.atReset with
            state := .joining, queue := [.censusAsk], censusTimer := some (400 * unitsPerMilli) }
        ∧ t.tkt = { TicketUnit.atReset with config := s.tkt.config }
        ∧ t.clt.orders = [] ∧ t.clt.expiryMinutes = s.clt.expiryMinutes
        ∧ t.day = { s.day with highest := s.day.day, behind := false, latch := none, deferred := [] }
        ∧ t.tst = s.tst ∧ t.power = s.power
        ∧ t.hpt.configured = s.hpt.configured ∧ t.hpt.straps = s.hpt.straps ∧ t.hpt.ring = s.hpt.ring
        ∧ t.hpt.miso = s.hpt.miso
        ∧ t.cap.timeout = s.cap.timeout ∧ t.cap.rounding = s.cap.rounding
        ∧ t.hlm.newestFault = s.hlm.newestFault ∧ t.hlm.faultCount = s.hlm.faultCount
        ∧ (∀ a, let r := s.hlm.attributes.get a
            (t.hlm.attributes.get a) = { r with low := (t.hlm.attributes.get a).low }
              ∧ ((t.hlm.attributes.get a).low = true ↔ ∃ x, r.threshold = some x ∧ r.normalized ≤ x))))

/-- SET_TIME and TIME_OF_DAY_TICK; and the passing of time. The tick ends a second, 4000 quarters of a millisecond, and begins
the next; the second that a SET_TIME, a reset or an advance taken first has just begun is not over. The model's choices
(log 3): that the row otherwise acts with any part of the second left, and that a step on an empty queue lets one quarter of
a millisecond pass: one word of the walk under way, one unit off every running timer, which waits at 0 for its row, one unit
on every age up to 20 s, and an objection's one bit time. -/
def Obligations.TimeIsSetAndPasses : Prop :=
  (∀ (v : BitVec 24) (s : State), s.asked (.setTime v) →
    (86399 < v.toNat → exec (.setTime v) s = .next (refuse .param s))
    ∧ (v.toNat ≤ 86399 →
      exec (.setTime v) s
        = .next { s with hpt := { s.hpt with
            timeOfDay := v.toNat, second := 4000, slot := .ready { result := .ok, data := [] } } }))
  ∧ (∀ s : State, s.power = .on → s.hpt.timeOfDay ≤ 86399 → s.hpt.second < 4000 →
      exec .timeOfDayTick s
        = .next { s with hpt := { s.hpt with timeOfDay := (s.hpt.timeOfDay + 1) % 86400, second := 4000 } })
  ∧ (∀ s : State, s.power ≠ .on ∨ s.hpt.second = 4000 → exec .timeOfDayTick s = .next s)
  -- a step on an empty queue
  ∧ (∀ s : State, s.pending = [] → s.power ≠ .on → step s = .next s)
  ∧ (∀ s : State, s.pending = [] → s.power = .on →
    ∃ store : Store, step s = .next { s with
        hpt.second := s.hpt.second - 1
        wch.watchdog := s.wch.watchdog.map fun left => left - 1
        cap.capture := match s.cap.capture with
          | .idle => .idle
          | .waiting request judgement left => .waiting request judgement (left - 1)
          | .held item set left => .held item set (left - 1)
        clt.orders := s.clt.orders.map fun e => (e.1, { e.2 with timer := e.2.timer.map fun left => left - 1 })
        lnk := { s.lnk with
          roster := s.lnk.roster.map fun e => (e.1, { e.2 with age := min (e.2.age + 1) 80000 })
          censusTimer := s.lnk.censusTimer.map fun left => left - 1
          beaconTimer := s.lnk.beaconTimer.map fun left => left - 1
          drive := match s.lnk.drive with
            | .recessive => .recessive
            | .sending => .sending
            | .objectionSlot => .recessive
            | .objectionTruncated => .recessive }
        tst := store }
      ∧ (s.tst.walk = none → store = s.tst)
      ∧ ∀ w, s.tst.walk = some w →
        (2048 ≤ w.done → store = s.tst)
        -- one word of the verification walk (R148, R154)
        ∧ (w.done < 2048 → w.kind = .verify →
          ((Memory.read s.tst.mem w.done).judge = .sound →
            store = { s.tst with walk := some { w with done := w.done + 1 } })
          ∧ ((Memory.read s.tst.mem w.done).judge = .corrected →
            store = { s.tst with
              mem := Memory.write s.tst.mem w.done (Memory.read s.tst.mem w.done).data
              walk := some { w with done := w.done + 1, corrected := w.corrected + 1 }
              latch := match s.tst.latch with
                | .empty => .corrected w.done
                | .corrected _ => .corrected w.done
                | .uncorrectable a => .uncorrectable a })
          ∧ ((Memory.read s.tst.mem w.done).judge = .uncorrectable →
            store = { s.tst with
              walk := some { w with
                done := w.done + 1
                uncorrectable := w.uncorrectable + 1
                firstBad := match w.firstBad with
                  | none => some w.done
                  | some a => some a }
              latch := match s.tst.latch with
                | .empty => .uncorrectable w.done
                | .corrected _ => .uncorrectable w.done
                | .uncorrectable a => .uncorrectable a }))
        -- one word of the initialization walk: the store state word with the mark, then the others in order (R156)
        ∧ (w.done < 2048 → w.kind = .fresh →
          store = { s.tst with
            mem := if w.done = 0 then Memory.write s.tst.mem 4 1
              else Memory.write s.tst.mem (if w.done ≤ 4 then w.done - 1 else w.done) 0
            walk := some { w with done := w.done + 1 } }))

/-- The requests that read working values: each is answered with the fields its rule lists, and no state changes. What R187
leaves open of the layout is log 10, also the two bytes of the held item's weight; of the held item log 35, and a PLU tare 0
sent as 0 log 52. -/
def Obligations.ReadingRequestsChangeOnlyTheSlot : Prop :=
  (∀ (s : State) (locked : Bool),
    (locked = true ↔ ∃ x, s.hlm.attributes.zeroUse.threshold = some x ∧ s.hlm.attributes.zeroUse.normalized ≤ x) →
    -- READ_STATUS (R195)
    (s.asked .readStatus →
      (s.hpt.runState = .storePrep →
        s.Answers .readStatus
          [[.num 1 0],
           match s.tst.walk with
           | none => [.num 1 0, .num 1 0]
           | some w =>
             [.num 1 (match w.kind with | .verify => 0 | .fresh => 1), .num 1 (10 * (10 * w.done / 2048) : Nat)],
           [.num 1 s.hpt.straps.station.toNat, .num 1 s.hpt.straps.cap.toNat,
            .num 1 (if s.hpt.straps.issuer then 1 else 0)]])
      ∧ (∀ n : Nat, s.hpt.runState = .config ∧ n = 1 ∨ s.hpt.runState = .joining ∧ n = 2
            ∨ s.hpt.runState = .running ∧ n = 3 →
        s.Answers .readStatus
          [[.num 1 n, .num 1 s.hpt.straps.station.toNat, .num 1 s.hpt.straps.cap.toNat,
           .num 1 (if s.hpt.straps.issuer then 1 else 0), .num 1 (if s.hpt.configured then 1 else 0),
           .num 1 (match s.cap.capture with | .idle => 0 | .waiting .. => 1 | .held .. => 2),
           .num 1 (if locked then 1 else 0), .num 2 s.day.day, .num 1 (if s.day.behind then 1 else 0),
           .num 1 (if s.day.latch.isSome then 1 else 0), .num 1 s.day.copiesPending,
           .num 1 (match s.lnk.state with | .off => 0 | .joining => 1 | .live => 2 | .silent => 3),
           .num 1 s.hpt.events.length, .num 1 s.hpt.overflow, .num 1 s.hpt.nextTag, .num 3 s.hpt.timeOfDay]]))
    -- READ_ROSTER (R60, R62): the own entry stands in its place by number
    ∧ (s.asked .readRoster → ∀ r : List (Nat × RosterEntry),
      r = Table.put s.lnk.roster s.hpt.straps.station.toNat
        { day := some s.day.day, lockout := some locked, age := 0 } →
      s.Answers .readRoster
        [[.num 1 r.length],
         r.flatMap fun e =>
           [.num 1 e.1, .opt e.2.day.isSome [(2, (e.2.day.getD 0 : Nat))],
            .opt e.2.lockout.isSome [(1, if e.2.lockout = some true then 1 else 0)], .num 1 (e.2.age / 4000 : Nat)],
         [.num 1 (match s.lnk.state with | .off => 0 | .joining => 1 | .live => 2 | .silent => 3),
          .num 1 s.lnk.clash, .num 1 s.lnk.requestFrames, .num 1 s.lnk.stationFrames]])
    -- READ_HEALTH (R183)
    ∧ (s.asked .readHealth → ∀ h : Attributes, h = s.hlm.attributes →
      s.Answers .readHealth
        [[(1, 0, h.zeroUse), (2, 1, h.overloads), (3, 1, h.motionTimeouts), (4, 1, h.storeErrors), (5, 1, h.linkRetries),
          (6, 1, h.viewMismatch)].flatMap fun (a : Nat × Nat × AttributeRecord) =>
           [.num 1 a.1, .num 1 a.2.1, .num 2 a.2.2.raw, .num 1 a.2.2.normalized, .num 1 a.2.2.worst,
            .opt a.2.2.threshold.isSome [(1, (a.2.2.threshold.getD 0 : Nat))], .num 1 (if a.2.2.low then 1 else 0)],
         [.num 1 (if locked then 1 else 0)]]))
  -- READ_WEIGHT (R9, R10, R22, Table 1-10)
  ∧ (∀ (s : State) (g net : Int) (e : Nat) (stable : Bool) (taken tare use : Field), s.asked .readWeight →
    g = s.wch.gross.getD 0 → net = g - (s.wch.tare.getD 0 : Nat) →
    e = (if net.natAbs ≤ 10 * s.figures.cap1 then s.figures.e1 else s.figures.e2) →
    (stable = true ↔ s.wch.window ≠ [] ∧ s.wch.window.length = s.wch.windowLength
      ∧ ∀ x ∈ s.wch.window, ∀ y ∈ s.wch.window, x - y ≤ 10 * (s.figures.e1 : Int)) →
    taken = .num 1 (if s.wch.zeroTaken then 1 else 0) →
    tare = .opt s.wch.tare.isSome [(3, (s.wch.tare.getD 0 : Nat))] →
    use = .num 2 (rhaDiv ((s.wch.zadj - s.wch.zref) * s.wch.span) 1048576).natAbs →
    (s.wch.state = .live →
      s.Answers .readWeight
        [[.num 1 5, .num 1 (if stable then 1 else 0), taken, .opt true [(4, g)], tare, .opt true [(4, net)],
         .opt true [(4, e * rhaDiv net (10 * e))], .opt true [(1, (e : Nat))], use]])
    ∧ (s.wch.state = .zeroWait →
      s.Answers .readWeight
        [[.num 1 2, .num 1 (if stable then 1 else 0), taken, .opt true [(4, g)], tare, .opt false [(4, 0)],
         .opt false [(4, 0)], .opt false [(1, 0)], use]])
    ∧ (∀ n : Nat, s.wch.state = .filling ∧ n = 0 ∨ s.wch.state = .sampleLost ∧ n = 1 ∨ s.wch.state = .over ∧ n = 3
          ∨ s.wch.state = .under ∧ n = 4 →
      s.Answers .readWeight
        [[.num 1 n, .num 1 0, taken, .opt false [(4, 0)], tare, .opt false [(4, 0)], .opt false [(4, 0)],
         .opt false [(1, 0)], use]]))
  -- READ_WATCHES (R128)
  ∧ (∀ (s : State) (slots : List Field), s.asked .readWatches →
    slots = List.flatten ([s.cap.slots.s0, s.cap.slots.s1, s.cap.slots.s2, s.cap.slots.s3].map fun v =>
      List.append
        (match v.watch with
          | none => [.num 1 0, .opt false [(1, 0)], .opt false [(3, 0)], .opt false [(1, 0)], .opt false [(1, 0)]]
          | some w =>
            [.num 1 1,
             .opt true [(1, match w.kind with
               | .pluEqual => 0 | .deptEqual => 1 | .clerkEqual => 2 | .priceAtLeast => 3 | .weightAtLeast => 4)],
             .opt true [(3, (w.value : Nat))], .opt true [(1, match w.action with | .note => 0 | .hold => 1)],
             .opt true [(1, if w.enable then 1 else 0)]])
        [.num 1 (if v.matched then 1 else 0), .num 3 v.serial]) →
    (s.cap.capture = .idle → s.Answers .readWatches [slots, [.num 1 0]])
    ∧ (∀ r j n, s.cap.capture = .waiting r j n → s.Answers .readWatches [slots, [.num 1 1]])
    ∧ (∀ (i : Item) (set : List Match) (n : Nat), s.cap.capture = .held i set n →
      s.Answers .readWatches
        [slots,
         [.num 1 2, .num 1 i.request.tag, .num 1 i.request.clerk, .num 3 i.request.plu, .num 1 i.request.dept],
         match i.measure with
         | .weight _ tare source _ w d =>
           [.num 1 0, .opt true [(2, w)], .opt true [(1, (d : Nat))], .opt false [(1, 0)],
            .opt true [(1, if tare.isSome then 1 else 0), (3, (tare.getD 0 : Nat)),
              (1, match source with | .plu => 0 | .station => 1 | .none => 2)]]
         | .count q =>
           [.num 1 1, .opt false [(2, 0)], .opt false [(1, 0)], .opt true [(1, (q : Nat))],
            .opt false [(1, 0), (3, 0), (1, 0)]],
         [.num 3 i.request.unitPrice, .num 3 i.price, .opt i.ticket.isSome [(2, (i.ticket.getD 0 : Nat))],
          .opt (decide (i.request.clerk ≠ 0)) [(1, if i.request.clerk ≠ 0 ∧ i.openAtCapture = true then 1 else 0)],
          .num 1 set.length],
         set.flatMap fun m =>
           [.num 1 m.slot, .num 1 (match m.action with | .note => 0 | .hold => 1), .num 1 (if m.enable then 1 else 0)],
         [.num 1 (n / 4000 : Nat)]]))
  -- READ_TICKETS (R73, R85)
  ∧ (∀ s : State, s.asked .readTickets →
    s.Answers .readTickets
      [match s.tkt.config with
       | none => [.opt false [(1, 0)], .opt false [(2, 0)]]
       | some c => [.opt true [(1, if c.untracked then 1 else 0)], .opt true [(2, (c.wrap : Nat))]],
       [.num 2 s.tkt.issued, .num 2 s.tkt.called,
        match s.tkt.nowServing with
        | none => .opt false [(2, 0), (1, 0), (1, 0)]
        | some r => .opt true [(2, (r.ticket : Nat)), (1, (r.clerk : Nat)), (1, (r.station : Nat))],
        .num 1 (if s.tkt.conflict then 1 else 0), .num 1 s.tkt.waiting.length],
       s.tkt.waiting.flatMap fun e =>
         [.num 2 e.ticket, .opt e.time.isSome [(3, (e.time.getD 0 : Nat))],
          .opt e.station.isSome [(1, (e.station.getD 0 : Nat))], .num 1 e.passes]])
  -- READ_ORDER (R106, Tables 5-1 and 5-2)
  ∧ (∀ (s : State) (clerk : Byte), s.asked (.readOrder clerk) →
    (clerk.toNat = 0 ∨ 24 < clerk.toNat → exec (.readOrder clerk) s = .next (refuse .param s))
    ∧ (1 ≤ clerk.toNat → clerk.toNat ≤ 24 →
      (s.order clerk.toNat = none → s.Answers (.readOrder clerk) [[.num 1 0]])
      ∧ (∀ (o : Order) (lines : List Line), s.order clerk.toNat = some o → lines = o.lines.getD [] →
        s.Answers (.readOrder clerk)
          [[.num 1 1, .opt o.ticket.isSome [(2, (o.ticket.getD 0 : Nat))],
            .opt o.opened.isSome [(3, (o.opened.getD 0 : Nat))], .num 1 o.holder, .num 1 o.lineCount,
            .num 1 o.itemCount, .num 4 o.amount, .num 1 (if o.lines = none then 1 else 0), .num 3 o.lastActivity,
            .opt o.timer.isSome [(4, (o.timer.getD 0 / 4000 : Nat))], .num 1 (if o.expiryMark then 1 else 0),
            .num 1 lines.length],
           lines.flatMap fun l =>
             [.num 1 l.number, .num 1 l.station, .num 3 l.serial, .num 3 l.plu, .num 1 l.dept,
              .num 1 (if l.byCount then 1 else 0), .opt (!l.byCount) [(2, if l.byCount then 0 else (l.measure : Nat))],
              .opt l.byCount [(1, if l.byCount then (l.measure : Nat) else 0)], .num 3 l.price,
              .num 1 (if l.voided then 1 else 0)]])))

/-- TAKE_EVENT with the 12 bytes of every record, TAKE_LABEL with the fields of Table 7-1 and CLEAR_STORE_LATCH (that the latch
is answered as its state and an address with a presence byte of its own, the presence bytes of a label record and the bare
count byte of its summaries are the model's choice, log 10; a PLU tare 0 sent as 0 g, log 52); and an event that finds 32 records held, which
is dropped and counted with an EVENT_OVERFLOW fault (its write packed by logs 7 and 41). -/
def Obligations.TakingRequestsReturnWhatTheyRemove : Prop :=
  ((∀ s : State, s.asked .takeEvent → s.hpt.events = [] → exec .takeEvent s = .next (refuse .empty s))
  ∧ (∀ (s : State) (r : EventRecord) (rest : List EventRecord), s.asked .takeEvent → s.hpt.events = r :: rest →
      exec .takeEvent s = .next { s with
        hpt := { s.hpt with
          events := rest
          slot := .ready
            { result := .ok,
              data := r.bytes.map (fun b => .num 1 b.toNat)
                ++ [.num 1 (rest.length : Nat), .num 1 (s.hpt.overflow : Nat)] } } })
  ∧ ∀ r : EventRecord, r.bytes.length = 12)
  ∧ (∀ s : State, s.asked .takeLabel →
    (s.lbl.records = [] → exec .takeLabel s = .next (refuse .empty s))
    ∧ (∀ (r : LabelRecord) (rest : List LabelRecord) (first : List Field), s.lbl.records = r :: rest →
      first = [.num 3 r.serial, .num 1 r.station, .num 2 r.day, .num 3 r.time, .num 1 r.clerk] →
      exec .takeLabel s = .next { s with
        hpt.slot := .ready
          { result := .ok
            data := (match r.body with
              | .item i =>
                .num 1 0 :: first
                ++ [.opt true [(3, (i.request.plu : Nat))], .opt true [(1, (i.request.dept : Nat))]]
                ++ (match i.measure with
                  | .weight _ tare source _ w d =>
                    [.opt true [(1, 0)], .opt true [(2, w)], .opt true [(1, (d : Nat))], .opt false [(1, 0)],
                     (match tare with
                      | none => .opt false [(4, 0), (1, 0)]
                      | some x =>
                        .opt true [(4, (x / 10 : Nat)), (1, match source with | .plu => 0 | .station => 1 | .none => 2)])]
                  | .count q =>
                    [.opt true [(1, 1)], .opt false [(2, 0)], .opt false [(1, 0)], .opt true [(1, (q : Nat))],
                     .opt false [(4, 0), (1, 0)]])
                ++ [.opt true [(3, (i.request.unitPrice : Nat))], .opt true [(3, (i.price : Nat))],
                    .opt i.ticket.isSome [(2, (i.ticket.getD 0 : Nat))], .opt false [(1, 0)], .opt false [(4, 0)],
                    .opt false [(1, 0)], .num 1 0, .opt false [(1, 0)], .opt false [(3, 0)]]
              | .total ticket items amount listing =>
                .num 1 1 :: first
                ++ [.opt false [(3, 0)], .opt false [(1, 0)], .opt false [(1, 0)], .opt false [(2, 0)],
                    .opt false [(1, 0)], .opt false [(1, 0)], .opt false [(4, 0), (1, 0)], .opt false [(3, 0)],
                    .opt false [(3, 0)], .opt ticket.isSome [(2, (ticket.getD 0 : Nat))], .opt true [(1, (items : Nat))],
                    .opt true [(4, (amount : Nat))], .opt true [(1, if listing.isSome then 0 else 1)],
                    .num 1 (listing.getD []).length]
                ++ ((listing.getD []).flatMap fun l =>
                    [.num 1 l.line, .num 1 l.station, .num 3 l.plu, .num 3 l.price, .num 1 (if l.voided then 1 else 0)])
                ++ [.opt false [(1, 0)], .opt false [(3, 0)]]
              | .void line price =>
                .num 1 2 :: first
                ++ [.opt false [(3, 0)], .opt false [(1, 0)], .opt false [(1, 0)], .opt false [(2, 0)],
                    .opt false [(1, 0)], .opt false [(1, 0)], .opt false [(4, 0), (1, 0)], .opt false [(3, 0)],
                    .opt false [(3, 0)], .opt false [(2, 0)], .opt false [(1, 0)], .opt false [(4, 0)],
                    .opt false [(1, 0)], .num 1 0, .opt true [(1, (line : Nat))], .opt true [(3, (price : Nat))]]) }
        lbl.records := rest
        tst.ops := s.tst.ops ++ [.takenFlag r.slot r.serial r.day] }))
  ∧ (∀ s : State, s.asked .clearStoreLatch →
    exec .clearStoreLatch s = .next { s with
      tst.latch := .empty
      hpt.slot := .ready
        { result := .ok,
          data := match s.tst.latch with
            | .empty => [.num 1 0, .opt false [(2, 0)]]
            | .corrected a => [.num 1 1, .opt true [(2, (a : Nat))]]
            | .uncorrectable a => [.num 1 2, .opt true [(2, (a : Nat))]] } })
  -- an event that finds the queue full (R189), at commands that queue one event
  ∧ (∀ s : State, 32 ≤ s.hpt.events.length →
    (∀ (origin : BitVec 4) (p : IssuePayload), s.hearsToday (.issue p) → s.ticketConfig.untracked = true →
      s.sends ⟨origin, .issue p⟩ = false →
      ∃ t, exec (.issueAccepted origin p) s = .next t ∧ s.DropsEvent t)
    ∧ (∀ (r : CaptureRequest) (j : StableJudgement) (n : Nat), s.asked .abortCapture → s.hpt.runState = .running →
      s.cap.capture = .waiting r j n → s.day.latch = none →
      ∃ t, exec .abortCapture s = .next t ∧ s.DropsEvent t ∧ t.cap.capture = .idle)
    ∧ (∀ (clerk : Byte) (o : Order) (left : Nat), s.order clerk.toNat = some o → o.timer = some left →
      left < s.expiryDuration o.holder → o.expiryMark = false →
      ∃ t, exec (.orderExpiry clerk) s = .next t ∧ s.DropsEvent t))

/-! ### Supply, RESET and store preparation -/

/-- POWER_ON and RESET_RELEASE begin store preparation with the walk that RETAIN_OK and the store state word call for; while
RESET is low, with or without main power, the part is held and no walk runs. MAIN_POWER_FAIL and RESET_ASSERT perform the
listed operations in order. Everything volatile takes its reset values. The model's choices: POWER_ON while powered stands
for a failure and a return of the supply, and a power-on with RESET low and RETAIN_OK negated leaves the initialization mark
for the release to find (log 17), the mark is written as the walk begins (log 16) and is bit 0 of the store state word (log
7), State.fresh holds the values that stand before the loads and before CONFIGURE (log 24), and the first read of the store
state word, here of a word that reads CORRECTED or UNCORRECTABLE too, is no judgement: the error latch is EMPTY after it
(log 47). -/
def Obligations.SupplyAndResetKeepTheWords : Prop :=
  (∀ (straps : Straps) (s : State) (m : Memory), m = drainOps s.tst.mem s.tst.ops →
    -- POWER_ON
    (s.power = .on ∨ s.power = .off →
      exec (.powerOn straps false) s
        = .next (State.fresh .on straps (Memory.write m 4 1) (some (Walk.begun .fresh)) s.pending)
      ∧ (((Memory.read m 4).judge = .uncorrectable ∨ (Memory.read m 4).data % 2 = 0) →
        exec (.powerOn straps true) s = .next (State.fresh .on straps m (some (Walk.begun .verify)) s.pending))
      ∧ ((Memory.read m 4).judge ≠ .uncorrectable → (Memory.read m 4).data % 2 = 1 →
        exec (.powerOn straps true) s
          = .next (State.fresh .on straps (Memory.write m 4 1) (some (Walk.begun .fresh)) s.pending)))
    -- POWER_ON while RESET is low (R197)
    ∧ (s.power = .resetLow ∨ s.power = .offLow →
      exec (.powerOn straps false) s = .next (State.fresh .resetLow straps (Memory.write m 4 1) none s.pending)
      ∧ (((Memory.read m 4).judge = .uncorrectable ∨ (Memory.read m 4).data % 2 = 0) →
        exec (.powerOn straps true) s = .next (State.fresh .resetLow straps m none s.pending))
      ∧ ((Memory.read m 4).judge ≠ .uncorrectable → (Memory.read m 4).data % 2 = 1 →
        exec (.powerOn straps true) s = .next (State.fresh .resetLow straps (Memory.write m 4 1) none s.pending)))
    -- RESET_RELEASE
    ∧ (s.power = .resetLow →
      (((Memory.read s.tst.mem 4).judge = .uncorrectable ∨ (Memory.read s.tst.mem 4).data % 2 = 0) →
        exec (.resetRelease straps) s
          = .next (State.fresh .on straps s.tst.mem (some (Walk.begun .verify)) s.pending))
      ∧ ((Memory.read s.tst.mem 4).judge ≠ .uncorrectable → (Memory.read s.tst.mem 4).data % 2 = 1 →
        exec (.resetRelease straps) s
          = .next (State.fresh .on straps (Memory.write s.tst.mem 4 1) (some (Walk.begun .fresh)) s.pending)))
    ∧ (s.power = .offLow → exec (.resetRelease straps) s = .next { s with power := .off })
    ∧ (s.power = .on ∨ s.power = .off → exec (.resetRelease straps) s = .next s))
  ∧ (∀ (s : State) (m : Memory), m = s.tst.ops.foldl (fun m op => (runOp m op).mem) s.tst.mem →
    -- MAIN_POWER_FAIL: the level of RESET stays
    (s.power = .on ∨ s.power = .off → exec .mainPowerFail s = .next (State.fresh .off s.hpt.straps m none s.pending))
    ∧ (s.power = .resetLow ∨ s.power = .offLow →
      exec .mainPowerFail s = .next (State.fresh .offLow s.hpt.straps m none s.pending))
    -- RESET_ASSERT
    ∧ (s.power = .on → exec .resetAssert s = .next (State.fresh .resetLow s.hpt.straps m none s.pending))
    ∧ (s.power = .off → exec .resetAssert s = .next { s with power := .offLow })
    ∧ (s.power = .resetLow ∨ s.power = .offLow → exec .resetAssert s = .next s))

/-- VERIFICATION_WALK_END, with the walk at any of its 2048 words: over sound words the walk changes no word and reports
nothing; over damaged ones it repairs what reads CORRECTED, reports both counts, and one STORE_ERROR of kind WALK with one
STORE fault when a word is UNCORRECTABLE. What a step of the walk counts is `Obligations.TimeIsSetAndPasses`.
The working values come from the control words, and from none of them that is UNCORRECTABLE; each attribute from its two
words, its normalized value recomputed and its worst-ever value the lower of that and the stored one, then ZERO_USE from the
figure 0 and STORE_ERRORS from the walk's counts; what reads UNCORRECTABLE and each attribute record that differs from its
stored words is written back (the layouts of the label word, the fault word and an attribute's second
word are the model's, log 7; the order of the reports log 21; that a number read outside its range is loaded as read
log 45). That the first read of the store state word is no judgement of its own, so that this word is counted once and the
first uncorrectable address is the lowest of the 2048 also when it is the store state word's, is the model's choice (log
47). -/
def Obligations.VerificationWalkLoadsTheWorkingValues : Prop :=
  (∀ s : State, s.preparing = true → (∃ w, s.tst.walk = some w ∧ w.kind = .verify) →
    ∃ t c u, exec .verificationWalkEnd s = .next t ∧ t.hpt.runState = .config ∧ t.tst.walk = none
      ∧ t.tst.walkResult = { kind := .verify, corrected := c, uncorrectable := u })
  -- a walk at any of its words that has met no uncorrectable one, over sound words
  ∧ (∀ (s : State) (w : Walk), s.preparing = true → s.tst.walk = some w → w.kind = .verify → w.uncorrectable = 0 →
    w.firstBad = none → (∀ a < 2048, (Memory.read s.tst.mem a).judge = .sound) →
    ∃ t, exec .verificationWalkEnd s = .next t
      ∧ t.hpt = { s.hpt with runState := .config }
      ∧ t.tst.mem = s.tst.mem ∧ t.tst.walk = none ∧ t.tst.latch = s.tst.latch
      ∧ t.tst.walkResult = { kind := .verify, corrected := w.corrected, uncorrectable := 0 }
      ∧ t.tst.scrubPointer = 0 ∧ t.tst.scrubPending = 0
      ∧ t.day.day = (if (Memory.read s.tst.mem 0).data = 0 then 1 else (Memory.read s.tst.mem 0).data)
      ∧ t.day.newestSlot = (Memory.read s.tst.mem 2).data
      ∧ t.day.highest = t.day.day ∧ t.day.behind = false ∧ t.day.latch = none ∧ t.day.deferred = []
      ∧ t.day.copiesPending = 0
      ∧ (∀ k, 1 ≤ k → k ≤ 8 → Table.get t.day.held k
          = if (Memory.read s.tst.mem (104 + 96 * (k - 1) + 85)).data = 0 then none
            else some (Memory.read s.tst.mem (104 + 96 * (k - 1) + 85)).data)
      ∧ t.lbl.nextSerial
          = (if (Memory.read s.tst.mem 1).data % 1048576 = 0 then 1 else (Memory.read s.tst.mem 1).data % 1048576)
      ∧ t.lbl.newest = (Memory.read s.tst.mem 1).data / 1048576
      ∧ t.hlm.attributes.zeroUse.raw = 0
      ∧ t.hlm.attributes.overloads.raw = (Memory.read s.tst.mem 1386).data
      ∧ t.wch = s.wch ∧ t.cap = s.cap ∧ t.lnk = s.lnk ∧ t.tkt = s.tkt ∧ t.clt = s.clt ∧ t.power = s.power)
  -- a walk at any of its words: it counts on from what it has counted, and the words it has passed are left
  ∧ (∀ (s : State) (w : Walk) (c u : Nat), s.preparing = true → s.tst.walk = some w → w.kind = .verify →
    c = w.corrected + ((List.range 2048).filter fun a =>
      decide (w.done ≤ a ∧ (Memory.read s.tst.mem a).judge = .corrected)).length →
    u = w.uncorrectable + ((List.range 2048).filter fun a =>
      decide (w.done ≤ a ∧ (Memory.read s.tst.mem a).judge = .uncorrectable)).length →
    ∃ t, exec .verificationWalkEnd s = .next t
      ∧ t.tst.walkResult = { kind := .verify, corrected := c, uncorrectable := u }
      ∧ (∀ a < 2048, w.done ≤ a → (Memory.read s.tst.mem a).judge = .corrected →
          Memory.read t.tst.mem a = { address := a, judge := .sound, data := (Memory.read s.tst.mem a).data })
      ∧ (∀ a < 2048, a < w.done ∨ (Memory.read s.tst.mem a).judge ≠ .corrected →
          Memory.read t.tst.mem a = Memory.read s.tst.mem a)
      ∧ ((∀ a ∈ loadAddresses, (Memory.read s.tst.mem a).judge ≠ .uncorrectable) → s.hpt.events.length < 32 →
          t.hlm.attributes.storeErrors.raw = min ((Memory.read s.tst.mem 1390).data + c + 25 * u) 65535
            ∧ t.hpt.events = s.hpt.events
                ++ ((w.firstBad.or ((List.range 2048).find? fun a =>
                    decide (w.done ≤ a ∧ (Memory.read s.tst.mem a).judge = .uncorrectable))).map
                    fun a => s.record (.storeError a .walk)).toList
            ∧ t.hlm.faultCount
                = (if u = 0 then (Memory.read s.tst.mem 3).data % 65536
                   else min ((Memory.read s.tst.mem 3).data % 65536 + 1) 65535))
      -- the attributes with readable words (R180)
      ∧ (∀ (a : Attribute) (first raw n stored worst : Nat), first = 1384 + 2 * (a.number - 1) →
          (Memory.read s.tst.mem first).judge ≠ .uncorrectable →
          (Memory.read s.tst.mem (first + 1)).judge ≠ .uncorrectable →
          raw = (Memory.read s.tst.mem first).data → n = normalizedValue a raw s.figures.zeroBand →
          stored = (Memory.read s.tst.mem (first + 1)).data / 256 → worst = (if stored = 0 then n else min stored n) →
          (a = .zeroUse → t.hlm.attributes.get a
              = { raw := 0, normalized := 100, worst := worst, threshold := none, low := false })
            ∧ (a ≠ .zeroUse → a ≠ .storeErrors → t.hlm.attributes.get a
              = { raw := raw, normalized := n, worst := worst, threshold := none, low := false })
            ∧ (a = .storeErrors → (∀ x ∈ loadAddresses, (Memory.read s.tst.mem x).judge ≠ .uncorrectable) →
              ∀ r : AttributeRecord, r = t.hlm.attributes.storeErrors →
              r.raw = min (raw + c + 25 * u) 65535 ∧ r.normalized = max 1 (100 - r.raw) ∧ r.worst = min worst r.normalized
                ∧ r.threshold = none ∧ r.low = false))
      ∧ ((Memory.read s.tst.mem 1).judge = .uncorrectable → t.lbl.nextSerial = 1 ∧ t.lbl.newest = 0)
      ∧ ((Memory.read s.tst.mem 0).judge = .uncorrectable →
          t.day.day = 1 ∧ t.day.highest = 1 ∧ .recordWrite [(0, 1)] ∈ t.tst.ops)
      ∧ ((Memory.read s.tst.mem 2).judge = .uncorrectable →
          .recordWrite [(2, BitVec.ofNat 32 t.day.newestSlot)] ∈ t.tst.ops
            ∧ (t.day.held = [] → t.day.newestSlot = 0)
            ∧ (t.day.held ≠ [] → ∃ x, (t.day.newestSlot, x) ∈ t.day.held
                ∧ ∀ e ∈ t.day.held, (t.day.day + 65536 - x) % 65536 ≤ (t.day.day + 65536 - e.2) % 65536))
      ∧ (∀ a, a ≠ .storeErrors → (Memory.read s.tst.mem (addrAttribute a)).judge = .uncorrectable
            ∨ (Memory.read s.tst.mem (addrAttribute a + 1)).judge = .uncorrectable →
          (t.hlm.attributes.get a).raw = 0 ∧ (t.hlm.attributes.get a).normalized = 100
            ∧ (t.hlm.attributes.get a).worst = 100)
      ∧ ((Memory.read s.tst.mem 3).judge = .uncorrectable →
          (∀ a < 2048, a ≠ 3 → (Memory.read s.tst.mem a).judge ≠ .uncorrectable) →
          (w.done ≤ 3 ∧ s.tst.latch = .empty) ∨ s.tst.latch = .uncorrectable 3 → s.hpt.events.length < 32 →
          t.hlm.newestFault = (if u = 0 then 0 else 1) ∧ t.hlm.faultCount = (if u = 0 then 0 else 1))
      -- the write-backs of the loads (R160, R180), and with readable words the reports after them: the figure 0, the
      -- counts of the walk, and the fault with the business day loaded (R177, R182)
      ∧ (s.hpt.events.length < 32 → ∃ more, t.tst.ops = s.tst.ops ++ s.writeBacks t.day.newestSlot ++ more
          ∧ ((∀ a ∈ loadAddresses, (Memory.read s.tst.mem a).judge ≠ .uncorrectable) →
            more = (if (s.loaded .zeroUse).raw = 0 then []
                else [({ s.loaded .zeroUse with raw := 0, normalized := 100 } : AttributeRecord).stored .zeroUse])
              ++ (if min ((s.loaded .storeErrors).raw + c + 25 * u) 65535 = (s.loaded .storeErrors).raw then []
                else [t.hlm.attributes.storeErrors.stored .storeErrors])
              ++ (if u = 0 then []
                else [({ s with day := t.day } : State).faultRecord 2 t.hlm.newestFault t.hlm.faultCount]))))

/-- INITIALIZATION_WALK_END, with the walk at any of its 2048 words, the store state word being the first of them: business
day 1, totals lost since open, and zero in every other word that the walk had still to write, one that it had written being
left. Unless such a word has been disturbed since, the store is as an initialized one, its working values are loaded, and
all six attribute records are written back (the flag's place and the packing by log 7). -/
def Obligations.InitializationWalkClearsTheStore : Prop :=
  ∀ (s : State) (w : Walk), s.preparing = true → s.StoreCanonical → s.tst.walk = some w → w.kind = .fresh →
    ∃ t, exec .initializationWalkEnd s = .next t
      ∧ t.hpt.runState = .config ∧ t.tst.walk = none
      ∧ t.tst.walkResult = { kind := .fresh, corrected := 0, uncorrectable := 0 }
      ∧ Memory.word t.tst.mem 0 = { written := 1, flips := 0 }
      ∧ Memory.word t.tst.mem 92 = { written := 1, flips := 0 }
      ∧ Memory.word t.tst.mem 4 = { written := 0, flips := 0 }
      ∧ (∀ a < 2048, a ≠ 0 → a ≠ 4 → a ≠ 92 → Memory.word t.tst.mem a
          = if w.done ≤ (if a < 4 then a + 1 else a) then { written := 0, flips := 0 } else Memory.word s.tst.mem a)
      ∧ t.wch = s.wch ∧ t.cap = s.cap ∧ t.lnk = s.lnk ∧ t.tkt = s.tkt ∧ t.clt = s.clt ∧ t.power = s.power
      ∧ ((∀ a < 2048, a ≠ 0 → a ≠ 4 → a ≠ 92 → (if a < 4 then a + 1 else a) < w.done →
            Memory.word s.tst.mem a = { written := 0, flips := 0 }) →
          t.hpt = { s.hpt with runState := .config }
          ∧ t.tst.mem = [(0, { written := 1, flips := 0 }), (92, { written := 1, flips := 0 })]
          ∧ t.tst.latch = .empty
          ∧ t.day = { DayUnit.atReset with day := 1, highest := 1 }
          ∧ t.lbl = { s.lbl with nextSerial := 1, newest := 0 }
          ∧ t.hlm.newestFault = 0 ∧ t.hlm.faultCount = 0
          ∧ (∀ a, t.hlm.attributes.get a
              = { raw := 0, normalized := 100, worst := 100, threshold := none, low := false })
          ∧ t.tst.ops = s.tst.ops ++ allAttributes.map fun a =>
              .recordWrite [(1384 + 2 * (a.number - 1), 0), (1384 + 2 * (a.number - 1) + 1, 100 + 100 * 256)])

/-! ### Weighing -/

/-- SAMPLE_ARRIVAL: what is no arrival, the limit codes, and an ordinary arrival into a filter that is not complete. -/
def Obligations.SampleArrivalsEnterTheFilter : Prop :=
  ∀ (n : Nat) (v : BitVec 24) (s : State),
    (n ≠ 24 ∨ s.power ≠ .on ∨ s.hpt.runState = .storePrep ∨ s.hpt.runState = .config →
      exec (.sampleArrival n v) s = .next s)
    ∧ (n = 24 → s.power = .on → s.hpt.runState = .joining ∨ s.hpt.runState = .running →
      ((v.toInt = -8388608 →
          exec (.sampleArrival n v) s = .next { s with
            wch := { s.wch with state := .under, watchdog := some (4000 * unitsPerMilli / s.wch.rate) } })
      ∧ (v.toInt = 8388607 →
          ∃ t, exec (.sampleArrival n v) s = .next t
            ∧ t.wch = { s.wch with state := .over, watchdog := some (4000 * unitsPerMilli / s.wch.rate) }
            ∧ t.hlm.attributes.overloads.raw
                = (if s.wch.state = .over then s.hlm.attributes.overloads.raw
                   else min (s.hlm.attributes.overloads.raw + 1) 65535)
            ∧ (s.wch.state ≠ .over → s.Moves t .overloads (s.hlm.attributes.overloads.raw + 1))
            ∧ t.cap = s.cap ∧ t.lbl = s.lbl ∧ t.lnk = s.lnk ∧ t.tkt = s.tkt ∧ t.clt = s.clt ∧ t.day = s.day
            ∧ t.tst.mem = s.tst.mem)
      ∧ (v.toInt ≠ -8388608 → v.toInt ≠ 8388607 → s.wch.filter.length + 1 < s.wch.filterLength →
          exec (.sampleArrival n v) s = .next { s with
            wch := { s.wch with
              filter := s.wch.filter ++ [v.toInt]
              trackCount := s.wch.trackCount + 1
              state := .filling
              watchdog := some (4000 * unitsPerMilli / s.wch.rate) } })))

/-- SAMPLE_ARRIVAL with the filter complete: the gross weight, the window and the weighing state, at an arrival that brings
no tracking test; the arrival that completes the filter after a loss; ZERO_WAIT and the initial zero; the tracking change,
kept within the clamp, whatever the capture unit does; and the tracking test that changes nothing. -/
def Obligations.CompleteFilterGivesTheState : Prop :=
  (∀ (v : BitVec 24) (s : State), s.power = .on → s.hpt.runState = .joining ∨ s.hpt.runState = .running →
    v.toInt ≠ -8388608 → v.toInt ≠ 8388607 →
    1 ≤ s.wch.filterLength → s.wch.filter.length = s.wch.filterLength → 1 ≤ s.wch.windowLength →
    s.wch.zeroTaken = true → s.wch.trackCount + 1 < s.wch.rate →
    ∃ t, exec (.sampleArrival 24 v) s = .next t
      ∧ t.wch.filter = s.wch.filter.drop 1 ++ [v.toInt]
      ∧ t.wch.gross = some (rhaDiv ((t.wch.filter.sum - s.wch.filterLength * (s.wch.zcal + s.wch.zadj)) * s.wch.span)
          (s.wch.filterLength * 1048576))
      ∧ (∀ g, t.wch.gross = some g →
          (s.figures.overload < g → t.wch.state = .over)
          ∧ (g < s.figures.underload → ¬s.figures.overload < g → t.wch.state = .under)
          ∧ (s.figures.underload ≤ g → g ≤ s.figures.overload → t.wch.state = .live)
          ∧ t.wch.window.getLast? = some g)
      ∧ t.wch.window.length ≤ max s.wch.window.length s.wch.windowLength
      ∧ t.wch.zadj = s.wch.zadj ∧ t.wch.zref = s.wch.zref ∧ t.wch.tare = s.wch.tare
      ∧ t.wch.trackCount = s.wch.trackCount + 1 ∧ t.wch.restorePending = false
      ∧ t.wch.watchdog = some (4000 * unitsPerMilli / s.wch.rate) ∧ t.tst.mem = s.tst.mem)
  ∧ (∀ (v : BitVec 24) (s : State) (filter : List Int), s.power = .on → s.hpt.runState = .joining ∨ s.hpt.runState = .running →
    v.toInt ≠ -8388608 → v.toInt ≠ 8388607 →
    filter = (s.wch.filter ++ [v.toInt]).drop (s.wch.filter.length + 1 - s.wch.filterLength) →
    filter.length = s.wch.filterLength → 1 ≤ s.wch.filterLength → s.hpt.events.length < 26 →
    -- the arrival that completes the filter after a loss (R13)
    (s.wch.restorePending = true →
      ∃ t, exec (.sampleArrival 24 v) s = .next t ∧ t.wch.restorePending = false ∧ t.wch.filter = filter
        ∧ s.record .samplesRestored ∈ t.hpt.events)
    ∧ (∀ (g : Int) (window : List Int),
      g = rhaDiv ((filter.sum - s.wch.filterLength * (s.wch.zcal + s.wch.zadj)) * s.wch.span)
        (s.wch.filterLength * 1048576) →
      window = (s.wch.window ++ [g]).drop (s.wch.window.length + 1 - s.wch.windowLength) → 2 ≤ s.wch.windowLength →
      -- what every such arrival leaves in the channel, the tracking count back at 0 when it came to S (R6, R16)
      ∀ w : Weighing, w = { s.wch with
          filter := filter
          window := window
          gross := some g
          state := s.judged g
          trackCount := if s.wch.rate ≤ s.wch.trackCount + 1 then 0 else s.wch.trackCount + 1
          watchdog := some (4000 * unitsPerMilli / s.wch.rate)
          restorePending := false } →
      -- before the initial zero (R6, R15)
      (s.wch.zeroTaken = false →
        (window.length ≠ s.wch.windowLength ∨ (∃ x ∈ window, ∃ y ∈ window, s.figures.spread < x - y)
            ∨ s.figures.initialBand < g.natAbs →
          ∃ t, exec (.sampleArrival 24 v) s = .next t ∧ t.wch = { w with state := .zeroWait }
            ∧ t.cap = s.cap ∧ t.lbl = s.lbl ∧ t.lnk = s.lnk ∧ t.tst = s.tst ∧ t.hlm = s.hlm)
        ∧ (window.length = s.wch.windowLength → (∀ x ∈ window, ∀ y ∈ window, x - y ≤ s.figures.spread) →
            g.natAbs ≤ s.figures.initialBand → ∀ z g' : Int,
            z = rhaDiv filter.sum s.wch.filterLength - s.wch.zcal →
            g' = rhaDiv ((filter.sum - s.wch.filterLength * (s.wch.zcal + z)) * s.wch.span)
              (s.wch.filterLength * 1048576) →
          ∃ t, exec (.sampleArrival 24 v) s = .next t
            ∧ t.wch = { w with
                zeroTaken := true, zadj := z, zref := z, gross := some g', window := [g'], state := s.judged g' }
            ∧ t.hlm.attributes.zeroUse.raw = 0
            ∧ t.cap = s.cap ∧ t.lbl = s.lbl ∧ t.lnk = s.lnk ∧ t.tst.mem = s.tst.mem))
      -- a tracking change (R16, R17)
      ∧ (s.wch.zeroTaken = true → s.wch.tracking = true → s.wch.tare = none → s.wch.rate ≤ s.wch.trackCount + 1 →
          s.figures.underload ≤ g → g ≤ s.figures.overload → g.natAbs ≤ s.figures.trackingWindow →
          window.length = s.wch.windowLength → (∀ x ∈ window, ∀ y ∈ window, x - y ≤ s.figures.spread) →
          ∀ p z g' : Int,
          p = rhaDiv filter.sum s.wch.filterLength - s.wch.zcal →
          z = (if s.wch.clamp < p - s.wch.zref then s.wch.zref + s.wch.clamp
            else if p - s.wch.zref < -s.wch.clamp then s.wch.zref - s.wch.clamp else p) →
          g' = rhaDiv ((filter.sum - s.wch.filterLength * (s.wch.zcal + z)) * s.wch.span)
            (s.wch.filterLength * 1048576) →
        ∃ t, exec (.sampleArrival 24 v) s = .next t
          ∧ t.wch = (if z = s.wch.zadj then w
              else { w with zadj := z, gross := some g', window := window.dropLast ++ [g'], state := s.judged g' })
          ∧ t.tst.mem = s.tst.mem
          ∧ (s.cap.capture = .idle →
              (z ≠ s.wch.zadj → t.hlm.attributes.zeroUse.raw
                = min (rhaDiv ((z - s.wch.zref) * s.wch.span) 1048576).natAbs 65535)
              ∧ (z = s.wch.zadj → t.hlm = s.hlm)
              ∧ t.cap = s.cap ∧ t.lbl = s.lbl ∧ t.lnk = s.lnk))
      -- a tracking test that finds a condition unmet changes nothing: the zero stays (R16)
      ∧ (s.wch.zeroTaken = true → s.wch.rate ≤ s.wch.trackCount + 1 →
          s.wch.tracking = false ∨ s.wch.tare ≠ none ∨ g < s.figures.underload ∨ s.figures.overload < g
            ∨ s.figures.trackingWindow < g.natAbs ∨ window.length ≠ s.wch.windowLength
            ∨ (∃ x ∈ window, ∃ y ∈ window, s.figures.spread < x - y) →
        ∃ t, exec (.sampleArrival 24 v) s = .next t ∧ t.wch = w ∧ t.tst.mem = s.tst.mem
          ∧ (s.cap.capture = .idle → t.hlm.attributes.zeroUse = s.hlm.attributes.zeroUse
            ∧ t.cap = s.cap ∧ t.lbl = s.lbl ∧ t.lnk = s.lnk))))

/-- SAMPLE_WATCHDOG_EXPIRY of a running watchdog, with the fault entry that it records (the packing of its words log 7, the
places of absent requests log 41); one that an arrival taken first has just restarted does not run out (that
the row otherwise acts at any time left is the model's choice, log 3). -/
def Obligations.WatchdogExpiryLosesTheSamples : Prop :=
  (∀ (s : State) (left : Nat), s.wch.watchdog = some left → left < 4000 * unitsPerMilli / s.wch.rate →
      s.wch.state ≠ .sampleLost →
    ∃ t, exec .sampleWatchdogExpiry s = .next t
      ∧ t.wch = { s.wch with
          state := .sampleLost, filter := [], window := [], gross := none, trackCount := 0, watchdog := none,
          restorePending := true }
      ∧ (s.wch.restorePending = true → { t with wch := s.wch } = s)
      ∧ (s.wch.restorePending = false → s.hpt.events.length < 32 →
          t.hpt.events = s.hpt.events ++ [{ event := .samplesLost, time := s.hpt.timeOfDay }]
            ∧ t.hlm.newestFault = (if s.hlm.newestFault = 0 ∨ 6 ≤ s.hlm.newestFault then 1 else s.hlm.newestFault + 1)
            ∧ t.hlm.faultCount = min (s.hlm.faultCount + 1) 65535
            ∧ t.tst.ops = s.tst.ops ++ [s.faultRecord 1 t.hlm.newestFault t.hlm.faultCount])
      ∧ t.cap = s.cap ∧ t.lbl = s.lbl ∧ t.lnk = s.lnk ∧ t.tkt = s.tkt ∧ t.clt = s.clt ∧ t.day = s.day
      ∧ t.tst.mem = s.tst.mem ∧ t.hlm.attributes = s.hlm.attributes)
  ∧ (∀ s : State, s.wch.watchdog = none ∨ s.wch.watchdog = some (4000 * unitsPerMilli / s.wch.rate)
      ∨ s.wch.state = .sampleLost → exec .sampleWatchdogExpiry s = .next s)

/-- ZERO. -/
def Obligations.ZeroTakesTheLoadAsZero : Prop :=
  ∀ s : State, s.asked .zero →
    (s.hpt.runState ≠ .running ∨ s.wch.state ≠ .live → exec .zero s = .next (refuse .wrongState s))
    ∧ (s.hpt.runState = .running → s.wch.state = .live →
      (s.windowStable = false → exec .zero s = .next (refuse .motion s))
      ∧ (s.windowStable = true →
        (s.wch.tare.isSome = true → exec .zero s = .next (refuse .tarePresent s))
        ∧ (s.wch.tare = none → ∀ z, z = rhaDiv s.wch.filter.sum s.wch.filterLength - s.wch.zcal →
          (s.figures.zeroBand < (rhaDiv ((z - s.wch.zref) * s.wch.span) 1048576).natAbs →
            exec .zero s = .next (refuse .zeroRange s))
          ∧ ((rhaDiv ((z - s.wch.zref) * s.wch.span) 1048576).natAbs ≤ s.figures.zeroBand →
            ∃ t g, exec .zero s = .next t
              ∧ g = rhaDiv ((s.wch.filter.sum - s.wch.filterLength * (s.wch.zcal + z)) * s.wch.span)
                  (s.wch.filterLength * 1048576)
              ∧ t.wch = { s.wch with zadj := z, gross := some g, window := [g] }
              ∧ t.hpt.slot = .ready { result := .ok, data := [] }
              ∧ t.hlm.attributes.zeroUse.raw
                  = min (rhaDiv ((z - s.wch.zref) * s.wch.span) 1048576).natAbs 65535
              -- the normalized value, and the lockout while it is low (R176 to R179)
              ∧ s.Moves t .zeroUse (rhaDiv ((z - s.wch.zref) * s.wch.span) 1048576).natAbs
              ∧ (t.lockedOut = true ↔ ∃ x, t.hlm.attributes.zeroUse.threshold = some x
                  ∧ t.hlm.attributes.zeroUse.normalized ≤ x)
              ∧ t.cap = s.cap ∧ t.lbl = s.lbl ∧ t.lnk = s.lnk ∧ t.tkt = s.tkt ∧ t.clt = s.clt ∧ t.day = s.day
              ∧ t.tst.mem = s.tst.mem))))

/-- TARE_SET. -/
def Obligations.TareSetTakesTheWeight : Prop :=
  (∀ (g : BitVec 16) (s : State), s.asked (.tareSet g) →
    (s.hpt.runState ≠ .running → exec (.tareSet g) s = .next (refuse .wrongState s))
    ∧ (s.hpt.runState = .running → g.toNat = 0 ∨ s.figures.cap1 < g.toNat ∨ g.toNat % s.figures.e1 ≠ 0 →
      exec (.tareSet g) s = .next (refuse .param s))
    ∧ (s.hpt.runState = .running → g.toNat ≠ 0 → g.toNat ≤ s.figures.cap1 → g.toNat % s.figures.e1 = 0 →
      exec (.tareSet g) s = .next { s with
        hpt.slot := .ready { result := .ok, data := [] }
        wch.tare := some (10 * g.toNat) }))
  ∧ (∀ (w : Weighing) (g tare : Nat), { w with tare := some (10 * tare) }.net g = (g : Int) - 10 * tare)
  ∧ (∀ s : State, s.asked (.tareSet 125) → s.hpt.runState = .running → s.hpt.straps.cap = 2 →
      exec (.tareSet 125) s = .next { s with
        hpt.slot := .ready { result := .ok, data := [] }
        wch.tare := some 1250 })
  ∧ (∀ s : State, s.asked (.tareSet 122) → s.hpt.runState = .running → s.hpt.straps.cap = 2 →
      exec (.tareSet 122) s = .next (refuse .param s))

/-- TARE_WEIGH and TARE_CLEAR. -/
def Obligations.TareWeighAndClear : Prop :=
  (∀ s : State, s.asked .tareWeigh →
    (s.hpt.runState ≠ .running ∨ s.wch.state ≠ .live → exec .tareWeigh s = .next (refuse .wrongState s))
    ∧ (s.hpt.runState = .running → s.wch.state = .live → s.windowStable = false →
      exec .tareWeigh s = .next (refuse .motion s))
    ∧ (s.hpt.runState = .running → s.wch.state = .live → s.windowStable = true → ∀ g r, s.wch.gross = some g →
        r = 10 * (s.figures.e1 : Int) * rhaDiv g (10 * s.figures.e1) →
      (g ≤ 0 ∨ 10 * (s.figures.cap1 : Int) < g ∨ r = 0 → exec .tareWeigh s = .next (refuse .param s))
      ∧ (0 < g → g ≤ 10 * (s.figures.cap1 : Int) → r ≠ 0 →
        exec .tareWeigh s = .next { s with
          hpt.slot := .ready { result := .ok, data := [] }
          wch.tare := some r.toNat })))
  ∧ (∀ s : State, s.asked .tareClear →
    (s.hpt.runState ≠ .running → exec .tareClear s = .next (refuse .wrongState s))
    ∧ (s.hpt.runState = .running →
      exec .tareClear s = .next { s with hpt.slot := .ready { result := .ok, data := [] }, wch.tare := none }))

/-! ### Captures -/

/-- R38: the price is the nearest multiple of the rounding unit, halves up, and a completed item carries it. -/
def Obligations.PriceIsTheNearestMultiple : Prop :=
  (∀ p r : Nat, 1 ≤ r →
    r ∣ roundPrice p r
      ∧ 2 * roundPrice p r ≤ 2 * p + r ∧ 2 * p < 2 * roundPrice p r + r
      ∧ roundPrice p r = r * ((2 * p + r) / (2 * r))
      ∧ roundPrice p 1 = p)
  ∧ (∀ (q : CaptureRequest) (m : Measure) (s : State),
      (completedItem q m s).price = roundPrice (completedItem q m s).basePrice s.cap.rounding
        ∧ (completedItem q m s).basePrice
            = (match m with
               | .weight _ _ _ _ w _ => ((w * q.unitPrice + 500) / 1000).toNat
               | .count n => n * q.unitPrice))
  ∧ (∀ (i : Item) (set : List Match) (serial : Nat) (s : State),
      .itemPosting i.request.dept i.price i.measure.weight? ∈ (postItem i set s).tst.ops
        ∧ (itemFrame i serial).price = i.price)

/-- WEIGH_ITEM with the refusals of Table 2-3 in their order, and the stable reading that judges, completes, holds or posts
a WAITING capture. The bytes of an absent tare may be any (the model's choice, log 20), and with the strap fault the tare
is judged with figures of 0 (log 11). -/
def Obligations.WeighItemWaitsForAReading : Prop :=
  (∀ (clerk : Byte) (plu : BitVec 24) (dept : Byte) (price : BitVec 24) (given : Byte) (tare : BitVec 16) (s : State),
    s.asked (.weighItem clerk plu dept price given tare) →
    (24 < clerk.toNat ∨ plu.toNat = 0 ∨ 99999 < plu.toNat ∨ dept.toNat = 0 ∨ 8 < dept.toNat ∨ price.toNat = 0
        ∨ 999999 < price.toNat
        ∨ (given.toNat = 1 ∧ (s.figures.cap1 < tare.toNat ∨ tare.toNat % s.figures.e1 ≠ 0)) →
      exec (.weighItem clerk plu dept price given tare) s = .next (refuse .param s))
    ∧ (clerk.toNat ≤ 24 → 1 ≤ plu.toNat → plu.toNat ≤ 99999 → 1 ≤ dept.toNat → dept.toNat ≤ 8 → 1 ≤ price.toNat →
        price.toNat ≤ 999999 →
        given.toNat = 0 ∨ (given.toNat = 1 ∧ tare.toNat ≤ s.figures.cap1 ∧ tare.toNat % s.figures.e1 = 0) →
      (s.hpt.runState ≠ .running →
        exec (.weighItem clerk plu dept price given tare) s = .next (refuse .wrongState s))
      ∧ (s.hpt.runState = .running → s.cap.capture ≠ .idle →
        exec (.weighItem clerk plu dept price given tare) s = .next (refuse .busy s))
      ∧ (s.hpt.runState = .running → s.cap.capture = .idle → 0 < s.day.copiesPending →
        exec (.weighItem clerk plu dept price given tare) s = .next (refuse .dayClosing s))
      ∧ (s.hpt.runState = .running → s.cap.capture = .idle → s.day.copiesPending = 0 → s.day.behind = true →
        exec (.weighItem clerk plu dept price given tare) s = .next (refuse .dayBehind s))
      ∧ (s.hpt.runState = .running → s.cap.capture = .idle → s.day.copiesPending = 0 → s.day.behind = false →
        (s.lockedOut = true → exec (.weighItem clerk plu dept price given tare) s = .next (refuse .locked s))
        ∧ (s.lockedOut = false → clerk.toNat ≠ 0 → s.linesFull clerk.toNat →
          exec (.weighItem clerk plu dept price given tare) s = .next (refuse .linesFull s))
        ∧ (s.lockedOut = false → clerk.toNat ≠ 0 → ¬s.linesFull clerk.toNat → s.lnk.state = .silent →
          exec (.weighItem clerk plu dept price given tare) s = .next (refuse .linkSilent s)))
      ∧ (s.hpt.runState = .running → s.cap.capture = .idle → s.day.copiesPending = 0 → s.day.behind = false →
          s.lockedOut = false →
          clerk.toNat = 0
            ∨ ((∀ o, s.order clerk.toNat = some o → o.lineCount ≠ 40) ∧ s.lnk.state ≠ .silent) →
        exec (.weighItem clerk plu dept price given tare) s = .next { s with
          hpt := { s.hpt with
            slot := .ready { result := .accepted, data := [.num 1 (s.hpt.nextTag : Nat)] }
            nextTag := if s.hpt.nextTag = 255 then 1 else s.hpt.nextTag + 1 }
          cap := { s.cap with
            capture := .waiting
              { tag := s.hpt.nextTag, clerk := clerk.toNat, plu := plu.toNat, dept := dept.toNat,
                unitPrice := price.toNat, pluTare := if given.toNat = 1 then some tare.toNat else none }
              .none (s.cap.timeout * unitsPerSecond) } })))
  ∧ (∀ (s : State) (v : BitVec 24) (g : Int) (r : CaptureRequest) (j : StableJudgement) (n : Nat),
    s.cap.capture = .waiting r j n → s.StableArrival v g → s.day.latch = none → s.hpt.events.length < 26 →
    (s.lockedOut = true →
      ∃ t, exec (.sampleArrival 24 v) s = .next t ∧ t.cap = { s.cap with capture := .idle }
        ∧ t.hpt = { s.hpt with events := s.hpt.events ++ [s.record (.captureDone r.tag .locked 0)] }
        ∧ t.lbl = s.lbl ∧ t.lnk = s.lnk ∧ t.tst = s.tst ∧ t.hlm = s.hlm)
    ∧ (s.lockedOut = false → ∀ (tare : Option Nat) (source : TareSource) (net w : Int),
        (tare, source) = (match r.pluTare, s.wch.tare with
          | some x, _ => (some (10 * x), .plu)
          | none, some x => (some x, .station)
          | none, none => (none, .none)) →
        net = g - (tare.getD 0 : Nat) → w = s.figures.display net →
      (w < s.figures.minimum →
        ∃ t, exec (.sampleArrival 24 v) s = .next t ∧ t.cap = { s.cap with capture := .waiting r .belowMin n }
          ∧ t.hpt = s.hpt ∧ t.lbl = s.lbl ∧ t.lnk = s.lnk ∧ t.tst = s.tst)
      ∧ (s.figures.minimum ≤ w → (s.figures.max : Int) < w →
        ∃ t, exec (.sampleArrival 24 v) s = .next t ∧ t.cap = { s.cap with capture := .waiting r .aboveMax n }
          ∧ t.hpt = s.hpt ∧ t.lbl = s.lbl ∧ t.lnk = s.lnk ∧ t.tst = s.tst)
      ∧ (s.figures.minimum ≤ w → w ≤ s.figures.max → ∀ (p : Nat) (i : Item),
          p = ((w * r.unitPrice + 500) / 1000).toNat →
          i = { request := r
                measure := .weight g tare source net w (if net.natAbs ≤ 10 * s.figures.cap1 then s.figures.e1 else s.figures.e2)
                basePrice := p
                price := s.cap.rounding * ((2 * p + s.cap.rounding) / (2 * s.cap.rounding))
                openAtCapture := decide (r.clerk ≠ 0) && (s.order r.clerk).isSome
                ticket := if r.clerk = 0 then none else (s.order r.clerk).bind Order.ticket } →
        ∃ t, exec (.sampleArrival 24 v) s = .next t
          ∧ t.hpt = { s.hpt with events := t.hpt.events }
          ∧ (999999 < i.price →
              t.cap = { s.cap with capture := .idle }
                ∧ t.hpt.events = s.hpt.events ++ [s.record (.captureDone r.tag .priceRange 0)]
                ∧ t.lbl = s.lbl ∧ t.lnk = s.lnk ∧ t.tst = s.tst)
          ∧ (i.price ≤ 999999 → s.Completes t i))))

/-- COUNT_ITEM: refused by the first condition of Table 2-3 that holds; otherwise accepted and completed at once, ended with
PRICE_RANGE, held, ended with LABEL_FULL, or posted, its ITEM frame queued or the item late. No close is latched. -/
def Obligations.CountItemIsPosted : Prop :=
  ∀ (clerk : Byte) (plu : BitVec 24) (dept : Byte) (price : BitVec 24) (quantity : Byte) (s : State),
    s.asked (.countItem clerk plu dept price quantity) →
    (¬ItemFieldsInRange clerk plu dept price ∨ quantity.toNat = 0 ∨ 99 < quantity.toNat →
      exec (.countItem clerk plu dept price quantity) s = .next (refuse .param s))
    ∧ (ItemFieldsInRange clerk plu dept price → 1 ≤ quantity.toNat → quantity.toNat ≤ 99 →
      (s.hpt.runState ≠ .running → exec (.countItem clerk plu dept price quantity) s = .next (refuse .wrongState s))
      ∧ (s.hpt.runState = .running → s.cap.capture ≠ .idle →
        exec (.countItem clerk plu dept price quantity) s = .next (refuse .busy s))
      ∧ (s.hpt.runState = .running → s.cap.capture = .idle →
        (0 < s.day.copiesPending → exec (.countItem clerk plu dept price quantity) s = .next (refuse .dayClosing s))
        ∧ (s.day.copiesPending = 0 →
          (s.day.behind = true → exec (.countItem clerk plu dept price quantity) s = .next (refuse .dayBehind s))
          ∧ (s.day.behind = false → clerk.toNat ≠ 0 →
            (s.linesFull clerk.toNat → exec (.countItem clerk plu dept price quantity) s = .next (refuse .linesFull s))
            ∧ (¬s.linesFull clerk.toNat → s.lnk.state = .silent →
              exec (.countItem clerk plu dept price quantity) s = .next (refuse .linkSilent s)))))
      ∧ (s.TakesCapture clerk.toNat → s.day.latch = none → s.hpt.events.length < 26 → ∀ (p : Nat) (i : Item),
          p = quantity.toNat * price.toNat →
          i = { request := { tag := s.hpt.nextTag, clerk := clerk.toNat, plu := plu.toNat, dept := dept.toNat,
                             unitPrice := price.toNat, pluTare := none }
                measure := .count quantity.toNat
                basePrice := p
                price := s.cap.rounding * ((2 * p + s.cap.rounding) / (2 * s.cap.rounding))
                openAtCapture := decide (clerk.toNat ≠ 0) && (s.order clerk.toNat).isSome
                ticket := if clerk.toNat = 0 then none else (s.order clerk.toNat).bind Order.ticket } →
        (999999 < i.price →
          exec (.countItem clerk plu dept price quantity) s = .next { s.accepted with
            hpt.events := s.hpt.events ++ [s.record (.captureDone s.hpt.nextTag .priceRange 0)] })
        ∧ (i.price ≤ 999999 →
          ∃ t, exec (.countItem clerk plu dept price quantity) s = .next t
            ∧ t.hpt = { s.accepted.hpt with events := t.hpt.events }
            ∧ s.Completes t i
            ∧ t.wch = s.wch ∧ t.tkt = s.tkt ∧ t.clt = s.clt ∧ t.day = s.day ∧ t.tst.mem = s.tst.mem)))

/-- ABORT_CAPTURE is refused unless a capture waits; it and CAPTURE_TIMER_EXPIRY end a waiting capture. A latched close
starts at once, within the same step (log 15); that the expiry acts at any time left is the model's choice (log 3). -/
def Obligations.WaitingCaptureEnds : Prop :=
  (∀ (s : State) (r : CaptureRequest) (j : StableJudgement) (n : Nat),
    s.cap.capture = .waiting r j n → s.day.latch = none → s.hpt.events.length < 31 →
    (s.asked .abortCapture → s.hpt.runState = .running →
      exec .abortCapture s = .next { s with
        hpt := { s.hpt with
          slot := .ready { result := .ok, data := [] }
          events := s.hpt.events ++ [{ event := .captureDone r.tag .aborted 0, time := s.hpt.timeOfDay }] }
        cap := { s.cap with capture := .idle } })
    ∧ (∃ t code, exec .captureTimerExpiry s = .next t
        ∧ code =
            (if s.wch.state = .sampleLost then .sampleLost
             else if s.wch.zeroTaken = false then .notZeroed
             else if s.wch.state = .over ∨ j = .aboveMax then .over
             else if s.wch.state = .under ∨ j = .belowMin then .underMin
             else .motion)
        ∧ { event := .captureDone r.tag code 0, time := s.hpt.timeOfDay } ∈ t.hpt.events
        ∧ t.cap = { s.cap with capture := .idle }
        ∧ t.hlm.attributes.motionTimeouts.raw
            = (if code = .motion then min (s.hlm.attributes.motionTimeouts.raw + 1) 65535
               else s.hlm.attributes.motionTimeouts.raw)
        ∧ (code = .motion → s.Moves t .motionTimeouts (s.hlm.attributes.motionTimeouts.raw + 1))
        ∧ t.wch = s.wch ∧ t.lbl = s.lbl ∧ t.lnk = s.lnk ∧ t.tkt = s.tkt ∧ t.clt = s.clt ∧ t.day = s.day
        ∧ t.tst.mem = s.tst.mem))
  ∧ (∀ (s : State) (r : CaptureRequest) (j : StableJudgement) (n : Nat) (c : LatchedClose) (code : ResultCode),
    s.cap.capture = .waiting r j n → s.day.latch = some c → s.hpt.events.length < 31 →
    (s.asked .abortCapture → s.hpt.runState = .running →
      ∃ t, exec .abortCapture s = .next t ∧ t.hpt.slot = .ready { result := .ok, data := [] }
        ∧ s.hpt.events ++ [s.record (.captureDone r.tag .aborted 0)] <+: t.hpt.events
        ∧ t.cap = { s.cap with capture := .idle } ∧ t.day.day = c.newDay ∧ t.day.latch = none)
    ∧ (code = (if s.wch.state = .sampleLost then .sampleLost
               else if s.wch.zeroTaken = false then .notZeroed
               else if s.wch.state = .over ∨ j = .aboveMax then .over
               else if s.wch.state = .under ∨ j = .belowMin then .underMin
               else .motion) →
      ∃ t, exec .captureTimerExpiry s = .next t ∧ s.record (.captureDone r.tag code 0) ∈ t.hpt.events
        ∧ t.cap = { s.cap with capture := .idle } ∧ t.day.day = c.newDay ∧ t.day.latch = none))
  ∧ (∀ s : State, s.asked .abortCapture →
    (s.hpt.runState ≠ .running → exec .abortCapture s = .next (refuse .wrongState s))
    ∧ (s.hpt.runState = .running → s.cap.capture = .idle → exec .abortCapture s = .next (refuse .notHeld s))
    ∧ (s.hpt.runState = .running → (∃ i set n, s.cap.capture = .held i set n) →
      exec .abortCapture s = .next (refuse .wrongState s)))

/-- RELEASE_HELD without a held item is refused; with one it posts the held item, with the serial written back into the
slots of its matching set that still await it. A latched close starts at once, within the same step (log 15), and the item
belongs to the day closed. -/
def Obligations.ReleaseHeldPostsTheItem : Prop :=
  (∀ s : State, s.asked .releaseHeld → (∀ i set n, s.cap.capture ≠ .held i set n) →
    (s.hpt.runState ≠ .running → exec .releaseHeld s = .next (refuse .wrongState s))
    ∧ (s.hpt.runState = .running → exec .releaseHeld s = .next (refuse .notHeld s)))
  ∧ ∀ (s : State) (i : Item) (set : List Match) (n : Nat), s.asked .releaseHeld → s.cap.capture = .held i set n →
    (s.hpt.runState ≠ .running → exec .releaseHeld s = .next (refuse .wrongState s))
    ∧ (s.hpt.runState = .running →
      (s.lockedOut = true → (∃ g a b c d e, i.measure = .weight g a b c d e) →
        exec .releaseHeld s = .next (refuse .locked s))
      ∧ (s.lockedOut = false ∨ (∃ q, i.measure = .count q) →
        (8 ≤ s.lbl.records.length + s.lbl.reservations → exec .releaseHeld s = .next (refuse .labelFull s))
        ∧ (s.lbl.records.length + s.lbl.reservations < 8 → s.day.latch = none → s.hpt.events.length < 26 →
            set.length ≤ 4 →
          ∃ t, exec .releaseHeld s = .next t
            ∧ s.Posts t i ((set.filter fun m => m.enable && decide (m.action = .note)).map Match.slot)
            ∧ t.hpt = { s.hpt with events := t.hpt.events, slot := .ready { result := .ok, data := [] } }
            ∧ (∀ k < 4, t.cap.slots.get k
                = (let v := s.cap.slots.get k
                   if v.matched = true ∧ v.serial = 0 ∧ (set.any fun m => decide (m.slot = k)) = true then
                     { v with serial := s.lbl.nextSerial }
                   else v))
            ∧ t.wch = s.wch)
        ∧ (∀ c, s.lbl.records.length + s.lbl.reservations < 8 → s.day.latch = some c →
          ∃ t r, exec .releaseHeld s = .next t ∧ t.hpt.slot = .ready { result := .ok, data := [] }
            ∧ t.lbl.records = s.lbl.records ++ [r] ∧ r.body = .item i ∧ r.serial = s.lbl.nextSerial
            ∧ r.clerk = i.request.clerk ∧ r.day = s.day.day ∧ r.slot = ringNext 128 s.lbl.newest
            ∧ s.tst.ops ++ [r.appended (if 999999 ≤ s.lbl.nextSerial then 1 else s.lbl.nextSerial + 1),
                .itemPosting i.request.dept i.price i.measure.weight?] <+: t.tst.ops
            ∧ t.cap.capture = .idle ∧ t.day.day = c.newDay ∧ t.day.latch = none
            ∧ (∀ f ∈ t.lnk.queue, f.isDayScoped = false))))

/-- DISCARD_HELD drops the held item; so does HOLD_TIMER_EXPIRY, with its event. A latched close starts at once, within the
same step (log 15). That the expiry acts at any time left is the model's choice (log 3). -/
def Obligations.HeldItemIsDropped : Prop :=
  ∀ s : State,
    (s.asked .discardHeld →
      (s.hpt.runState ≠ .running → exec .discardHeld s = .next (refuse .wrongState s))
      ∧ (s.hpt.runState = .running → (∀ i set n, s.cap.capture ≠ .held i set n) →
        exec .discardHeld s = .next (refuse .notHeld s))
      ∧ (s.hpt.runState = .running → (∃ i set n, s.cap.capture = .held i set n) →
        (s.day.latch = none →
          exec .discardHeld s = .next { s with
            hpt.slot := .ready { result := .ok, data := [] }
            cap.capture := .idle
            tst.ops := s.tst.ops ++ [.update [(addrRunning offHeldDiscarded, 1)]] })
        ∧ (∀ c, s.day.latch = some c →
          ∃ t before, exec .discardHeld s = .next t ∧ t.hpt.slot = .ready { result := .ok, data := [] }
            ∧ t.cap = { s.cap with capture := .idle } ∧ t.day.day = c.newDay ∧ t.day.latch = none
            ∧ t.tst.ops = s.tst.ops ++ .update [(addrRunning offHeldDiscarded, 1)] :: before)))
    ∧ ((∃ i set n, s.cap.capture = .held i set n) →
      (s.day.latch = none → s.hpt.events.length < 32 →
        exec .holdTimerExpiry s = .next { s with
          hpt.events := s.hpt.events ++ [{ event := .holdExpired, time := s.hpt.timeOfDay }]
          cap.capture := .idle
          tst.ops := s.tst.ops ++ [.update [(addrRunning offHeldDiscarded, 1)]] })
      ∧ (∀ c, s.day.latch = some c →
        ∃ t before, exec .holdTimerExpiry s = .next t ∧ t.cap = { s.cap with capture := .idle }
          ∧ t.day.day = c.newDay ∧ t.day.latch = none
          ∧ t.tst.ops = s.tst.ops ++ .update [(addrRunning offHeldDiscarded, 1)] :: before
          ∧ (s.hpt.events.length < 32 → s.hpt.events ++ [s.record .holdExpired] <+: t.hpt.events)))

/-- SET_WATCH; the bytes after the form EMPTY may be any (the model's choice, log 20), and a CLEAR_WATCH_STATUS that names a
slot above 3 is PARAM (the model's choice, log 14). -/
def Obligations.SetWatchWritesTheSlot : Prop :=
  (∀ (slot form kind : Byte) (value : BitVec 24) (action enable : Byte) (s : State),
    s.asked (.setWatch slot form kind value action enable) →
    (3 < slot.toNat → exec (.setWatch slot form kind value action enable) s = .next (refuse .param s))
    ∧ (slot.toNat ≤ 3 → form.toNat = 0 →
      exec (.setWatch slot form kind value action enable) s = .next { s with
        hpt.slot := .ready { result := .ok, data := [] }
        cap.slots := s.cap.slots.set slot.toNat { watch := none, matched := false, serial := 0 } })
    ∧ (slot.toNat ≤ 3 → form.toNat = 1 → action.toNat ≤ 1 → enable.toNat ≤ 1 → ∀ k,
        (kind.toNat = 0 ∧ k = WatchKind.pluEqual ∧ 1 ≤ value.toNat ∧ value.toNat ≤ 99999)
          ∨ (kind.toNat = 1 ∧ k = WatchKind.deptEqual ∧ 1 ≤ value.toNat ∧ value.toNat ≤ 8)
          ∨ (kind.toNat = 2 ∧ k = WatchKind.clerkEqual ∧ value.toNat ≤ 24)
          ∨ (kind.toNat = 3 ∧ k = WatchKind.priceAtLeast ∧ value.toNat ≤ 999999)
          ∨ (kind.toNat = 4 ∧ k = WatchKind.weightAtLeast ∧ 1 ≤ value.toNat ∧ value.toNat ≤ 30000) →
      exec (.setWatch slot form kind value action enable) s = .next { s with
        hpt.slot := .ready { result := .ok, data := [] }
        cap.slots := s.cap.slots.set slot.toNat
          { watch := some
              { kind := k, value := value.toNat, action := if action.toNat = 0 then .note else .hold,
                enable := decide (enable.toNat = 1) }
            matched := false
            serial := 0 } })
    ∧ (slot.toNat ≤ 3 → form.toNat = 1 →
        1 < action.toNat ∨ 4 < kind.toNat
          ∨ (kind.toNat = 0 ∧ (value.toNat = 0 ∨ 99999 < value.toNat))
          ∨ (kind.toNat = 1 ∧ (value.toNat = 0 ∨ 8 < value.toNat))
          ∨ (kind.toNat = 2 ∧ 24 < value.toNat)
          ∨ (kind.toNat = 3 ∧ 999999 < value.toNat)
          ∨ (kind.toNat = 4 ∧ (value.toNat = 0 ∨ 30000 < value.toNat)) →
      exec (.setWatch slot form kind value action enable) s = .next (refuse .param s)))
  ∧ (∀ (set : Byte) (s : State), s.asked (.clearWatchStatus set) → 15 < set.toNat →
    exec (.clearWatchStatus set) s = .next (refuse .param s))

/-- R120: CLEAR_WATCH_STATUS. -/
def Obligations.ClearWatchStatusClearsTheSelected : Prop :=
  ∀ (set : Byte) (s : State), s.asked (.clearWatchStatus set) →
    (set.toNat = 0 → exec (.clearWatchStatus set) s = .next (refuse .param s))
    ∧ (1 ≤ set.toNat → set.toNat ≤ 15 →
      ∃ slots : WatchSlots,
        exec (.clearWatchStatus set) s = .next { s with
          hpt.slot := .ready { result := .ok, data := [] }
          cap.slots := slots }
        ∧ ∀ k < 4, slots.get k
            = if set.getLsbD k then { s.cap.slots.get k with matched := false, serial := 0 } else s.cap.slots.get k)

/-! ### Labels and requests that read the store -/

/-- READ_JOURNAL, READ_TOTALS, READ_DAY_RECORD and READ_FAULTS: the read joins the operation list and the slot stays
PENDING; nothing else changes. When STORE_READ performs it the request is answered with the words read (the packing of the
words is the model's, log 7, and the layout of the answers log 10; so are an entry read as empty from an UNCORRECTABLE word,
log 38, the 96 words that READ_DAY_RECORD reads, log 40, the pointer and counts of the taking and group STORE at the turn of
its read, log 42, and wrong bits above a field of a word dropped, log 49). -/
def Obligations.StoreReadingRequestsWait : Prop :=
  (∀ s : State,
    (∀ n : Byte, s.asked (.readJournal n) →
      (127 < n.toNat → exec (.readJournal n) s = .next (refuse .param s))
      ∧ (n.toNat ≤ 127 → s.lbl.newest = 0 → exec (.readJournal n) s = .next (refuse .empty s))
      ∧ (n.toNat ≤ 127 → 1 ≤ s.lbl.newest → s.lbl.newest ≤ 128 → ∀ k : Nat,
          (k : Int) = ((s.lbl.newest : Int) - 1 - n.toNat) % 128 + 1 →
        exec (.readJournal n) s = .next { s with
          hpt.slot := .awaiting
          tst.ops := s.tst.ops
            ++ [.read [872 + 4 * (k - 1), 872 + 4 * (k - 1) + 1, 872 + 4 * (k - 1) + 2, 872 + 4 * (k - 1) + 3]
                (.journal s.lbl.newest k)] }))
    ∧ (∀ n : Byte, s.asked (.readDayRecord n) →
      (7 < n.toNat → exec (.readDayRecord n) s = .next (refuse .param s))
      ∧ (n.toNat ≤ 7 → s.day.newestSlot = 0 → exec (.readDayRecord n) s = .next (refuse .empty s))
      ∧ (n.toNat ≤ 7 → 1 ≤ s.day.newestSlot → s.day.newestSlot ≤ 8 → ∀ k : Nat,
          (k : Int) = ((s.day.newestSlot : Int) - 1 - n.toNat) % 8 + 1 →
        exec (.readDayRecord n) s = .next { s with
          hpt.slot := .awaiting
          tst.ops := s.tst.ops ++ [.read ((List.range 96).map fun o => 104 + 96 * (k - 1) + o) (.dayRecord k)] }))
    ∧ (∀ n : Byte, s.asked (.readFaults n) →
      (5 < n.toNat → exec (.readFaults n) s = .next (refuse .param s))
      ∧ (n.toNat ≤ 5 → s.hlm.newestFault = 0 → exec (.readFaults n) s = .next (refuse .empty s))
      ∧ (n.toNat ≤ 5 → 1 ≤ s.hlm.newestFault → s.hlm.newestFault ≤ 6 → ∀ k : Nat,
          (k : Int) = ((s.hlm.newestFault : Int) - 1 - n.toNat) % 6 + 1 →
        exec (.readFaults n) s = .next { s with
          hpt.slot := .awaiting
          tst.ops := s.tst.ops
            ++ [.read ((List.range 8).map fun o => 1400 + 8 * (k - 1) + o)
                (.fault s.hlm.faultCount s.hlm.newestFault k)] }))
    ∧ (∀ n : Byte, s.asked (.readTotals n) →
      (3 < n.toNat → exec (.readTotals n) s = .next (refuse .param s))
      ∧ (∀ g addresses,
          (n.toNat = 0 ∧ g = .departments ∧ addresses = (List.range 24).map (8 + ·))
            ∨ (n.toNat = 1 ∧ g = .clerks ∧ addresses = (List.range 48).map fun k => 8 + (24 + k))
            ∨ (n.toNat = 2 ∧ g = .station ∧ addresses = (List.range 13).map fun k => 8 + (72 + k))
            ∨ (n.toNat = 3 ∧ g = .store ∧ addresses = []) →
        exec (.readTotals n) s = .next { s with
          hpt.slot := .awaiting
          tst.ops := s.tst.ops ++ [.read addresses (.totals g)] })))
  ∧ (∀ (s : State) (addresses : List Nat) (purpose : ReadPurpose) (rest : List Op) (words : List JudgedWord)
      (w : Nat → Nat) (bad : Nat → Field) (answer : Response),
    s.power = .on → s.hpt.runState ≠ .storePrep → s.hpt.slot = .awaiting →
    s.tst.ops = .read addresses purpose :: rest →
    words = addresses.map (Memory.read s.tst.mem) →
    w = (fun k => (words[k]?.map JudgedWord.data).getD 0) →
    bad = (fun k => .flag (decide (words[k]?.map JudgedWord.judge = some .uncorrectable))) →
    -- READ_JOURNAL (R138)
    (∃ newest k, purpose = .journal newest k
        ∧ answer = (if w 0 % 1048576 = 0 then { result := .empty, data := [] }
            else { result := .ok
                   data := [.num 1 newest, .num 1 k, .num 3 (w 0 % 1048576), .num 1 (w 0 / 1048576 % 4),
                     .num 2 (w 1 % 65536), .num 3 (w 2 % 131072), .num 1 (w 0 / 8388608 % 32),
                     .num 3 (w 0 / 268435456 % 2 * 65536 + w 1 / 65536), .num 4 (w 3), .num 2 (w 2 / 131072),
                     .flag (decide (w 0 / 4194304 % 2 = 1)),
                     .flag (words.any fun j => decide (j.judge = .uncorrectable))] }))
      -- READ_TOTALS (R157)
      ∨ ((purpose = .totals .departments ∨ purpose = .totals .clerks)
        ∧ answer = { result := .ok
                     data := words.flatMap fun j => [.num 4 j.data, .flag (decide (j.judge = .uncorrectable))] })
      ∨ (purpose = .totals .station ∧ addresses = (List.range 13).map (fun k => 8 + (72 + k))
        ∧ answer = { result := .ok
                     data := ((List.range 12).flatMap fun k => [.num 4 (w k), bad k])
                       ++ [.flag (decide (w 12 % 2 = 1)), .flag (decide (w 12 / 2 % 2 = 1)),
                           .flag (decide (w 12 / 4 % 2 = 1))] })
      ∨ (purpose = .totals .store ∧ addresses = []
        ∧ answer = { result := .ok
                     data := (match s.tst.latch with
                         | .empty => [.num 1 0, .opt false [(2, 0)]]
                         | .corrected a => [.num 1 1, .opt true [(2, (a : Nat))]]
                         | .uncorrectable a => [.num 1 2, .opt true [(2, (a : Nat))]])
                       ++ [.num 2 s.tst.scrubPointer, .num 1 s.tst.scrubPending, .num 1 s.tst.walkResult.kind.number,
                           .num 4 s.tst.walkResult.corrected, .num 4 s.tst.walkResult.uncorrectable] })
      -- READ_DAY_RECORD (R171)
      ∨ (∃ k, purpose = .dayRecord k ∧ addresses = (List.range 96).map (fun o => 104 + 96 * (k - 1) + o)
        ∧ answer = (if w 85 = 0 then { result := .empty, data := [] }
            else { result := .ok
                   data := [.num 1 k, .num 2 (w 85), bad 85, .num 3 (w 86), bad 86,
                       .flag (decide (w 84 / 8 % 2 = 1)), .flag (decide (w 84 / 16 % 2 = 1)),
                       .flag (decide (w 84 % 2 = 1)), .flag (decide (w 84 / 2 % 2 = 1)),
                       .flag (decide (w 84 / 4 % 2 = 1)), bad 84]
                     ++ ((List.range 84).flatMap fun o => [.num 4 (w o), bad o])
                     ++ [.num 2 (w 87 % 65536 : Nat), bad 87, .num 2 (w 88 % 65536 : Nat),
                         .flag (decide (w 88 / 65536 % 2 = 1)), bad 88, .num 4 (w 89), bad 89, .num 4 (w 90), bad 90,
                         .num 4 (w 91), bad 91, .num 4 (w 92), bad 92] }))
      -- READ_FAULTS (R184)
      ∨ (∃ count newest k, purpose = .fault count newest k
        ∧ answer = (if w 0 % 256 = 0 then { result := .empty, data := [] }
            else { result := .ok
                   data := [.num 2 count, .num 1 newest, .num 1 k, .num 1 (w 0 % 256), .num 3 (w 1), .num 2 (w 2),
                     .num 1 (w 0 / 256 % 256), .num 1 (w 0 / 65536 % 256),
                     .opt (decide (w 3 % 256 ≠ 0)) [(1, (w 3 % 256 : Nat)), (4, w 4)],
                     .opt (decide (w 3 / 256 % 256 ≠ 0)) [(1, (w 3 / 256 % 256 : Nat)), (4, w 5)],
                     .opt (decide (w 3 / 65536 % 256 ≠ 0)) [(1, (w 3 / 65536 % 256 : Nat)), (4, w 6)],
                     .flag (words.any fun j => decide (j.judge = .uncorrectable))] })) →
    ∃ t, exec .storeRead s = .next t ∧ t.hpt.slot = .ready answer
      ∧ (s.tst.scrubPending = 0 → t.tst.mem = s.tst.mem))

/-! ### Requests that place a frame -/

/-- ISSUE_TICKET, CALL_NEXT, PASS_TICKET, TOTAL_ORDER, CANCEL_ORDER, VOID_LINE, CLOSE_DAY and ASK_DAYSUM when no refusal
applies: the frame joins the tail and the request is answered ACCEPTED with its tag (the successor of a highest issued above
W is the model's, log 34). -/
def Obligations.FrameRequestsAreAccepted : Prop :=
  ∀ s t : State, s.hpt.runState = .running → s.lnk.state = .live ∨ s.lnk.state = .joining →
    s.lnk.requestFrames < 12 →
    t = { s with hpt := { s.hpt with
            slot := .ready { result := .accepted, data := [.num 1 (s.hpt.nextTag : Nat)] }
            nextTag := if s.hpt.nextTag = 255 then 1 else s.hpt.nextTag + 1 } } →
    (∀ day : BitVec 16, s.asked (.askDaysum day) → day.toNat ≠ 0 →
      exec (.askDaysum day) s
        = .next { t with lnk.queue := s.lnk.queue ++ [.daysumAsk s.hpt.nextTag day.toNat] })
    ∧ (s.day.behind = false →
      (∀ forced : Byte, s.asked (.closeDay forced) → forced.toNat = 1 ∨ (forced.toNat = 0 ∧ s.clt.orders = []) →
        exec (.closeDay forced) s
          = .next { t with
              lnk.queue := s.lnk.queue ++ [.dayClose s.hpt.nextTag s.day.day (decide (forced.toNat = 1))] })
      ∧ (s.asked .issueTicket → s.hpt.straps.issuer = true → s.tkt.conflict = false →
          s.ticketConfig.untracked = false → s.tkt.waiting.length < 48 →
          s.waits (nextTicket s.ticketConfig.wrap s.tkt.issued) = false →
          s.bound (nextTicket s.ticketConfig.wrap s.tkt.issued) = false →
        exec .issueTicket s = .next { t with lnk.queue := s.lnk.queue ++ [.issue s.hpt.nextTag] })
      ∧ (∀ clerk : Byte, 1 ≤ clerk.toNat → clerk.toNat ≤ 24 →
        (s.asked (.callNext clerk) → s.tkt.conflict = false →
            s.ticketConfig.untracked = true ∨ s.tkt.waiting ≠ [] →
            (∀ o, s.order clerk.toNat = some o → o.itemCount = 0) →
          exec (.callNext clerk) s
            = .next { t with lnk.queue := s.lnk.queue ++ [.call s.hpt.nextTag clerk.toNat] })
        ∧ (∀ o, s.order clerk.toNat = some o →
          (s.asked (.passTicket clerk) → s.tkt.conflict = false → o.ticket.isSome = true → o.itemCount = 0 →
            exec (.passTicket clerk) s
              = .next { t with lnk.queue := s.lnk.queue ++ [.pass s.hpt.nextTag clerk.toNat] })
          ∧ (s.asked (.cancelOrder clerk) →
            exec (.cancelOrder clerk) s
              = .next { t with lnk.queue := s.lnk.queue ++ [.cancelHost s.hpt.nextTag clerk.toNat] })
          ∧ (s.asked (.totalOrder clerk) → 0 < o.itemCount → s.lbl.records.length + s.lbl.reservations < 8 →
            exec (.totalOrder clerk) s
              = .next { t with
                  lnk.queue := s.lnk.queue ++ [.txClose s.hpt.nextTag clerk.toNat]
                  lbl.reservations := s.lbl.reservations + 1 })
          ∧ (∀ line : Byte, s.asked (.voidLine clerk line) → 1 ≤ line.toNat → line.toNat ≤ 40 →
              (∃ l, o.line line.toNat = some l ∧ l.voided = false) →
              s.lbl.records.length + s.lbl.reservations < 8 →
            exec (.voidLine clerk line) s
              = .next { t with
                  lnk.queue := s.lnk.queue ++ [.voidLine s.hpt.nextTag clerk.toNat line.toNat]
                  lbl.reservations := s.lbl.reservations + 1 }))))

/-- A request that would place a frame and does not is refused: nothing changes but the slot, and no tag is taken; the code
is that of the first condition of its table that holds (Tables 4-3 to 4-5, 5-4 and 5-5, R104, R163, R174). The successor of a
highest issued above W is the model's (log 34). -/
def Obligations.RefusedFrameRequestsChangeNothing : Prop :=
  (∀ (s t : State) (i : Instr),
    (i = .issueTicket ∨ (∃ c, i = .callNext c ∨ i = .passTicket c ∨ i = .totalOrder c ∨ i = .cancelOrder c)
      ∨ (∃ c l, i = .voidLine c l) ∨ (∃ f, i = .closeDay f) ∨ ∃ d, i = .askDaysum d) →
    s.asked i → exec i s = .next t →
    (∃ code, code ≠ .ok ∧ code ≠ .accepted ∧ t = refuse code s)
      ∨ (t.hpt.slot = .ready { result := .accepted, data := [.num 1 (s.hpt.nextTag : Nat)] }
          ∧ t.lnk.queue.length = s.lnk.queue.length + 1 ∧ s.lnk.requestFrames < 12
          ∧ s.lnk.state ≠ .silent ∧ s.lnk.state ≠ .off ∧ s.hpt.runState = .running))
  ∧ ∀ s : State, s.lnk.state ≠ .off →
    (∀ n : Nat, s.asked .issueTicket → n = (if s.tkt.issued = s.ticketConfig.wrap then 1 else s.tkt.issued + 1) →
      s.FirstFrameRefusal .issueTicket
        [(s.hpt.runState ≠ .running, .wrongState), (s.hpt.straps.issuer = false, .notIssuer),
         (s.day.behind = true, .dayBehind), (s.tkt.conflict = true, .ticketConflict),
         (s.ticketConfig.untracked = true ∨ 48 ≤ s.tkt.waiting.length ∨ s.waits n = true ∨ s.bound n = true,
           .waitingFull)])
    ∧ (∀ clerk : Byte, s.asked (.callNext clerk) →
      s.FirstFrameRefusal (.callNext clerk)
        [(clerk.toNat = 0 ∨ 24 < clerk.toNat, .param), (s.hpt.runState ≠ .running, .wrongState),
         (s.day.behind = true, .dayBehind), (s.tkt.conflict = true, .ticketConflict),
         (s.ticketConfig.untracked = false ∧ s.tkt.waiting = [], .noWaiting),
         (s.ServesLines clerk.toNat, .clerkBusy)])
    ∧ (∀ clerk : Byte, s.asked (.passTicket clerk) →
      s.FirstFrameRefusal (.passTicket clerk)
        [(clerk.toNat = 0 ∨ 24 < clerk.toNat, .param), (s.hpt.runState ≠ .running, .wrongState),
         (s.day.behind = true, .dayBehind), (s.tkt.conflict = true, .ticketConflict),
         ((∀ o, s.order clerk.toNat = some o → o.ticket = none), .noOrder),
         (s.ServesLines clerk.toNat, .clerkBusy)])
    ∧ (∀ clerk : Byte, s.asked (.totalOrder clerk) →
      s.FirstFrameRefusal (.totalOrder clerk)
        [(clerk.toNat = 0 ∨ 24 < clerk.toNat, .param), (s.hpt.runState ≠ .running, .wrongState),
         (s.day.behind = true, .dayBehind), (s.order clerk.toNat = none, .noOrder),
         (¬s.ServesLines clerk.toNat, .empty), (8 ≤ s.lbl.records.length + s.lbl.reservations, .labelFull)])
    ∧ (∀ clerk : Byte, s.asked (.cancelOrder clerk) →
      s.FirstFrameRefusal (.cancelOrder clerk)
        [(clerk.toNat = 0 ∨ 24 < clerk.toNat, .param), (s.hpt.runState ≠ .running, .wrongState),
         (s.day.behind = true, .dayBehind), (s.order clerk.toNat = none, .noOrder)])
    ∧ (∀ clerk line : Byte, s.asked (.voidLine clerk line) →
      s.FirstFrameRefusal (.voidLine clerk line)
        [(clerk.toNat = 0 ∨ 24 < clerk.toNat ∨ line.toNat = 0 ∨ 40 < line.toNat, .param),
         (s.hpt.runState ≠ .running, .wrongState), (s.day.behind = true, .dayBehind),
         (s.order clerk.toNat = none, .noOrder),
         ((∀ o, s.order clerk.toNat = some o → o.lines = none), .linesAbsent),
         ((∀ o l, s.order clerk.toNat = some o → o.line line.toNat = some l → l.voided = true), .param),
         (8 ≤ s.lbl.records.length + s.lbl.reservations, .labelFull)])
    ∧ (∀ forced : Byte, s.asked (.closeDay forced) →
      s.FirstFrameRefusal (.closeDay forced)
        [(1 < forced.toNat, .param), (s.hpt.runState ≠ .running, .wrongState), (s.day.behind = true, .dayBehind),
         (forced.toNat = 0 ∧ s.clt.orders ≠ [], .openOrders)])
    ∧ (∀ day : BitVec 16, s.asked (.askDaysum day) →
      s.FirstFrameRefusal (.askDaysum day)
        [(day.toNat = 0, .param), (s.hpt.runState ≠ .running, .wrongState)])

/-! ### The link -/

/-- LINK_ATTEMPT_START: the head is formed and its attempt starts, with the fields that each class takes from the view of
that moment (the successor of a number above W by log 34). A head whose
purpose is no longer valid is removed and settled, and the next is formed in the same step; of two conditions of a CALL the
empty list comes first (log 33); the write of a late item's fault entry is packed by logs 7 and 41. A DAYSUM whose figures
have not been read waits at the head. Nothing starts without power, with the link OFF or SILENT, with an attempt under way,
or with an empty queue. -/
def Obligations.AttemptSendsTheFormedHead : Prop :=
  (∀ (s : State) (f : TxFrame) (rest : List TxFrame) (p : Payload), s.power = .on →
    s.lnk.state = .joining ∨ s.lnk.state = .live → s.lnk.attempt = none → s.lnk.queue = f :: rest →
    formation f s = .formed p →
    exec .linkAttemptStart s = .next { s with
      lnk := { s.lnk with
        attempt := some { origin := s.hpt.straps.station, payload := p }
        drive := .sending
        formWaiting := false } })
  ∧ (∀ s : State, s.power ≠ .on ∨ s.lnk.state = .off ∨ s.lnk.state = .silent ∨ s.lnk.attempt.isSome = true
      ∨ s.lnk.queue = [] → exec .linkAttemptStart s = .next s)
  -- what formation makes of a head of each class (Table 3-5); a number too large for its field is held at the largest (R48)
  ∧ (∀ w n : Nat, (saturated w n).toNat = min n (2 ^ w - 1))
  ∧ (∀ (s : State) (tag clerk : Nat) (day : BitVec 8), day = BitVec.ofNat 8 (s.day.day % 256) →
    -- ISSUE (R76)
    (∀ n : Nat, s.tkt.waiting.length < 48 → n = (if s.tkt.issued = s.ticketConfig.wrap then 1 else s.tkt.issued + 1) →
      s.waits n = false → s.bound n = false → formation (.issue tag) s = .formed (.issue ⟨day, saturated 16 n⟩))
    -- CALL (R79)
    ∧ (¬s.ServesLines clerk →
      (∀ (e : WaitEntry) (rest : List WaitEntry), s.ticketConfig.untracked = false → s.tkt.waiting = e :: rest →
        formation (.call tag clerk) s = .formed (.call ⟨day, saturated 16 e.ticket, saturated 8 clerk⟩))
      ∧ (∀ n : Nat, s.ticketConfig.untracked = true →
          n = (if s.tkt.called = s.ticketConfig.wrap then 1 else s.tkt.called + 1) →
        formation (.call tag clerk) s = .formed (.call ⟨day, saturated 16 n, saturated 8 clerk⟩)))
    -- ITEM (R107)
    ∧ (∀ (f : ItemFrame) (line : Nat),
      (∃ o, s.order f.clerk = some o ∧ o.lineCount < 40 ∧ line = o.lineCount + 1)
        ∨ (s.order f.clerk = none ∧ f.openAtCapture = false ∧ line = 1) →
      formation (.item f) s
        = .formed (.item ⟨day, f.byCount, saturated 5 f.clerk, saturated 8 line, saturated 24 f.plu, saturated 8 f.dept,
            saturated 24 f.price, saturated 16 f.measure, saturated 24 f.serial⟩))
    ∧ (∀ (f : ItemFrame) (reason : LateReason), s.MakesLate f reason → formation (.item f) s = .ended (.late reason))
    -- the classes formed from the clerk's order
    ∧ (∀ o : Order, s.order clerk = some o →
      (∀ n : Nat, o.ticket = some n → o.itemCount = 0 →
        formation (.pass tag clerk) s = .formed (.pass ⟨day, saturated 16 n, saturated 8 clerk⟩))
      ∧ (∀ (line : Nat) (l : Line), o.line line = some l → l.voided = false →
        formation (.voidLine tag clerk line) s
          = .formed (.voidLine ⟨day, saturated 8 clerk, saturated 8 line, saturated 24 l.price⟩))
      ∧ (0 < o.itemCount →
        formation (.txClose tag clerk) s
          = .formed (.txClose ⟨day, saturated 8 clerk, saturated 16 (o.ticket.getD 0), saturated 8 o.itemCount,
              saturated 32 o.amount⟩))
      ∧ formation (.cancelHost tag clerk) s = .formed (.txCancel ⟨day, saturated 8 clerk, 0⟩)
      ∧ (o.expiryMark = true → formation (.cancelExpiry clerk) s = .formed (.txCancel ⟨day, saturated 8 clerk, 1⟩))
      ∧ (o.holder ≤ 15 → ∃ holder : BitVec 4, holder.toNat = o.holder
        ∧ formation (.censusTx clerk) s
          = .formed (.censusTx ⟨saturated 8 clerk, saturated 16 (o.ticket.getD 0), saturated 8 o.itemCount,
              saturated 32 o.amount, holder⟩)))
    -- the classes of the day (R163, R172, R174)
    ∧ (∀ (d : Nat) (forced : Bool), forced = true ∨ s.clt.orders = [] →
      formation (.dayClose tag d forced) s = .formed (.dayClose ⟨saturated 16 d, forced⟩))
    ∧ (∀ (d read : Nat) (f : DayFigures), (s.recordSlot d).isSome = true →
      formation (.daysum d read (some f)) s
        = .formed (.daysum ⟨saturated 16 d, saturated 32 f.itemAmount, saturated 24 f.itemCount,
            saturated 16 f.customers, saturated 32 f.voidAmount⟩))
    ∧ (∀ d : Nat, formation (.daysumAsk tag d) s = .formed (.daysumAsk (saturated 16 d)))
    -- the census and the BEACON (R63, R86, R109)
    ∧ formation .censusAsk s = .formed .censusAsk
    ∧ formation .censusReply s
        = .formed (.censusReply ⟨saturated 16 s.day.day, decide (s.ticketConfig.wrap = 999), s.ticketConfig.untracked,
            saturated 16 s.tkt.issued, saturated 16 s.tkt.called, saturated 8 s.clt.orders.length⟩)
    ∧ (∀ locked : Bool, (locked = true ↔ ∃ x, s.hlm.attributes.zeroUse.threshold = some x
          ∧ s.hlm.attributes.zeroUse.normalized ≤ x) →
      formation .beacon s
        = .formed (.beacon ⟨saturated 16 s.day.day, decide (s.ticketConfig.wrap = 999), s.ticketConfig.untracked, locked,
            saturated 16 s.tkt.issued, saturated 16 s.tkt.called⟩)))
  -- the removals of Table 3-5 (R51, R84, R105, R107, R113), and a DAYSUM that waits for its read (R172)
  ∧ (∀ (s : State) (f : TxFrame) (rest : List TxFrame), s.power = .on → s.lnk.state = .joining ∨ s.lnk.state = .live →
    s.lnk.attempt = none → s.lnk.queue = f :: rest → s.lnk.backlog = { replyDue := false, clerks := [], days := [] } →
    (∀ tag code, f.tag = some tag → s.RemovesHead f code → s.hpt.events.length < 32 →
      exec .linkAttemptStart s = exec .linkAttemptStart { s with
        lnk := { s.lnk with queue := rest, attemptCount := 0 }
        lbl := { s.lbl with reservations := s.lbl.reservations - if f.reserves then 1 else 0 }
        hpt := { s.hpt with events := s.hpt.events ++ [s.record (.requestDone tag code none)] } })
    ∧ (s.RemovesQuietly f →
      exec .linkAttemptStart s = exec .linkAttemptStart { s with lnk := { s.lnk with queue := rest, attemptCount := 0 } })
    ∧ (∀ i reason, f = .item i → s.MakesLate i reason → s.hpt.events.length < 32 →
      ∃ u, exec .linkAttemptStart s = exec .linkAttemptStart u
        ∧ u.lnk = { s.lnk with queue := rest, attemptCount := 0 }
        ∧ u.hpt = { s.hpt with events := s.hpt.events ++ [s.record (.lateItem i.serial i.clerk reason)] }
        ∧ u.hlm.attributes = s.hlm.attributes ∧ u.hlm.faultCount = min (s.hlm.faultCount + 1) 65535
        ∧ u.hlm.newestFault = (if s.hlm.newestFault = 0 ∨ 6 ≤ s.hlm.newestFault then 1 else s.hlm.newestFault + 1)
        ∧ u.tst = { s.tst with ops := s.tst.ops
            ++ [unattachedPosting i.price, s.faultWrite u .lateItem] }
        ∧ u.pending = s.pending ∧ u.power = s.power ∧ u.wch = s.wch ∧ u.cap = s.cap ∧ u.lbl = s.lbl ∧ u.tkt = s.tkt ∧ u.clt = s.clt
        ∧ u.day = s.day)
    ∧ (∀ day read, f = .daysum day read none → (s.recordSlot day).isSome = true →
      exec .linkAttemptStart s = .next { s with lnk.formWaiting := true }))

/-- ARBITRATION_LOST, ATTEMPT_OBJECTED and ATTEMPT_BIT_ERROR, short of the sixteenth failure and of the third clash. A counted
failure is one report to LINK_RETRIES, with its normalized and worst-ever values, its record write and ATTRIBUTE_LOW at the
threshold (the packing of the write is the model's, log 7); and the normalized values of Table 10-1 (100 for ZERO_USE
with the strap fault, whose zero band is 0 in the model). -/
def Obligations.FailedAttemptsAreCounted : Prop :=
  (∀ raw bz : Nat, (0 < bz → normalizedValue .zeroUse raw bz = max 1 (100 - 100 * raw / bz))
    ∧ normalizedValue .zeroUse raw 0 = 100
    ∧ normalizedValue .overloads raw bz = max 1 (100 - raw / 10)
    ∧ normalizedValue .motionTimeouts raw bz = max 1 (100 - 2 * raw)
    ∧ normalizedValue .storeErrors raw bz = max 1 (100 - raw)
    ∧ normalizedValue .linkRetries raw bz = max 1 (100 - raw / 20)
    ∧ normalizedValue .viewMismatch raw bz = max 1 (100 - 5 * raw))
  ∧ ∀ s : State, s.lnk.attempt.isSome = true →
    exec .arbitrationLost s
      = .next { s with lnk := { s.lnk with attempt := none, drive := .recessive, formWaiting := false } }
    ∧ (s.lnk.attemptCount < 15 →
      ∃ t, exec .attemptObjected s = .next t
        ∧ t.lnk = { s.lnk with
            attempt := none, drive := .recessive, formWaiting := false, attemptCount := s.lnk.attemptCount + 1 }
        ∧ t.hlm.attributes.linkRetries.raw = min (s.hlm.attributes.linkRetries.raw + 1) 65535
        ∧ (s.hpt.events.length < 32 →
            s.ReportsOnly t .linkRetries (s.hlm.attributes.linkRetries.raw + 1))
        ∧ t.wch = s.wch ∧ t.cap = s.cap ∧ t.lbl = s.lbl ∧ t.tkt = s.tkt ∧ t.clt = s.clt ∧ t.day = s.day
        ∧ t.tst.mem = s.tst.mem)
    ∧ (s.lnk.attemptCount < 15 → s.lnk.clash < 2 →
      ∃ t, exec .attemptBitError s = .next t
        ∧ t.lnk = { s.lnk with
            attempt := none, drive := .recessive, formWaiting := false, attemptCount := s.lnk.attemptCount + 1,
            clash := s.lnk.clash + 1 }
        ∧ t.hlm.attributes.linkRetries.raw = min (s.hlm.attributes.linkRetries.raw + 1) 65535
        ∧ (s.hpt.events.length < 32 →
            s.ReportsOnly t .linkRetries (s.hlm.attributes.linkRetries.raw + 1))
        ∧ t.wch = s.wch ∧ t.cap = s.cap ∧ t.lbl = s.lbl ∧ t.tkt = s.tkt ∧ t.clt = s.clt ∧ t.day = s.day
        ∧ t.tst.mem = s.tst.mem)

/-- The third clash silences the link with STATION_CLASH, empties the queue and the backlog, frees every reservation of a
queued frame, completes every queued request with LINK_SILENT and makes every queued ITEM a late item; the sixteenth counted
failure drops the head with a LINK_DROP fault, and its unit settles it. Each of the two is a failed attempt and raises
LINK_RETRIES by one. The fault entries are packed by log 7, the places of absent requests by log 41. -/
def Obligations.ClashSilencesAndFailuresDrop : Prop :=
  (∀ s : State, s.lnk.attempt.isSome = true → s.lnk.clash = 2 →
    ∃ t, exec .attemptBitError s = .next t
      ∧ t.lnk.state = .silent ∧ t.lnk.queue = [] ∧ t.lnk.attempt = none ∧ t.lnk.clash = 3
      ∧ t.lnk.backlog = { replyDue := false, clerks := [], days := [] }
      ∧ t.lbl = { s.lbl with
          reservations := s.lbl.reservations - (s.lnk.queue.filter TxFrame.reserves).length }
      -- the failed attempt (R53, R177)
      ∧ t.hlm.attributes.linkRetries.raw = min (s.hlm.attributes.linkRetries.raw + 1) 65535
      ∧ s.Moves t .linkRetries (s.hlm.attributes.linkRetries.raw + 1)
      ∧ (s.hpt.events.length + s.lnk.queue.length < 30 →
          s.record .stationClash ∈ t.hpt.events
            ∧ s.faultRecord 4 (if s.hlm.newestFault = 0 ∨ 6 ≤ s.hlm.newestFault then 1 else s.hlm.newestFault + 1)
                (min (s.hlm.faultCount + 1) 65535) ∈ t.tst.ops
            ∧ (∀ f ∈ s.lnk.queue, ∀ tag, f.tag = some tag → s.record (.requestDone tag .linkSilent none) ∈ t.hpt.events)
            ∧ (∀ i, .item i ∈ s.lnk.queue → s.record (.lateItem i.serial i.clerk .linkFull) ∈ t.hpt.events
                ∧ unattachedPosting i.price ∈ t.tst.ops)
            ∧ t.hlm.faultCount
                = min (s.hlm.faultCount + 1 + (s.lnk.queue.filter fun f => decide (f.cls = 7)).length) 65535)
      ∧ t.wch = s.wch ∧ t.cap = s.cap ∧ t.tkt = s.tkt ∧ t.clt = s.clt ∧ t.day = s.day ∧ t.tst.mem = s.tst.mem)
  ∧ (∀ (s : State) (i : Instr) (f : TxFrame) (rest : List TxFrame),
    i = .attemptObjected ∨ (i = .attemptBitError ∧ s.lnk.clash < 2) → s.lnk.attempt.isSome = true →
    s.lnk.attemptCount = 15 → s.lnk.queue = f :: rest →
    s.lnk.backlog = { replyDue := false, clerks := [], days := [] } → s.hpt.events.length < 29 →
    ∃ t, exec i s = .next t
      ∧ t.lnk.queue = rest ∧ t.lnk.attempt = none ∧ t.lnk.attemptCount = 0 ∧ t.lnk.state = s.lnk.state
      ∧ t.lbl = { s.lbl with reservations := s.lbl.reservations - if f.reserves then 1 else 0 }
      -- the failed attempt, and the drop (R53, R54, R55, R177, R181)
      ∧ t.hlm.attributes.linkRetries.raw = min (s.hlm.attributes.linkRetries.raw + 1) 65535
      ∧ s.Moves t .linkRetries (s.hlm.attributes.linkRetries.raw + 1)
      ∧ s.record (.linkDrop f.cls) ∈ t.hpt.events
      ∧ s.faultRecord 3 (if s.hlm.newestFault = 0 ∨ 6 ≤ s.hlm.newestFault then 1 else s.hlm.newestFault + 1)
          (min (s.hlm.faultCount + 1) 65535) ∈ t.tst.ops
      ∧ t.hlm.faultCount = min (s.hlm.faultCount + 1 + if f.cls = 7 then 1 else 0) 65535
      ∧ (∀ tag, f.tag = some tag → s.record (.requestDone tag .dropped none) ∈ t.hpt.events)
      ∧ (∀ item, f = .item item → s.record (.lateItem item.serial item.clerk .dropped) ∈ t.hpt.events
          ∧ unattachedPosting item.price ∈ t.tst.ops)
      ∧ (∀ clerk o, f = .cancelExpiry clerk → s.order clerk = some o →
          t.order clerk = some { o with expiryMark := false, timer := some (s.expiryDuration o.holder) }
            ∧ ∀ c, c ≠ clerk → t.order c = s.order c)
      ∧ ((∀ clerk, f ≠ .cancelExpiry clerk) → t.clt = s.clt)
      ∧ t.wch = s.wch ∧ t.cap = s.cap ∧ t.tkt = s.tkt ∧ t.day = s.day ∧ t.tst.mem = s.tst.mem)
  ∧ (∀ (s : State) (tag clerk : Nat) (rest : List TxFrame), s.lnk.attempt.isSome = true → s.lnk.attemptCount = 15 →
    s.lnk.queue = .txClose tag clerk :: rest → s.lnk.backlog = { replyDue := false, clerks := [], days := [] } →
    s.hpt.events.length < 29 →
    ∃ t, exec .attemptObjected s = .next t
      ∧ t.lnk.queue = rest ∧ t.lnk.attempt = none ∧ t.lnk.attemptCount = 0
      ∧ t.lbl = { s.lbl with reservations := s.lbl.reservations - 1 }
      ∧ { event := .linkDrop 4, time := s.hpt.timeOfDay } ∈ t.hpt.events
      ∧ t.hpt.events.getLast? = some { event := .requestDone tag .dropped none, time := s.hpt.timeOfDay }
      ∧ t.hlm.faultCount = min (s.hlm.faultCount + 1) 65535
      ∧ t.wch = s.wch ∧ t.cap = s.cap ∧ t.tkt = s.tkt ∧ t.clt = s.clt ∧ t.day = s.day ∧ t.tst.mem = s.tst.mem)

/-- FRAME_DAMAGED (that an attempt under way ends with it is the model's choice, log 12). -/
def Obligations.DamagedFramesAreObjectedTo : Prop :=
  ∀ (r : RawFrame) (s : State), s.power = .on → s.lnk.state ≠ .off → receivedFrame r = none →
    (r.arbitration.toNat / 16 < 14 → s.lnk.state = .joining ∨ s.lnk.state = .live →
      exec (.frameDamaged r) s = .next { s with
        lnk := { s.lnk with
          attempt := none
          formWaiting := false
          drive := if r.truncated then .objectionTruncated else .objectionSlot } })
    ∧ (14 ≤ r.arbitration.toNat / 16 ∨ s.lnk.state = .silent →
      exec (.frameDamaged r) s
        = .next { s with lnk := { s.lnk with attempt := none, formWaiting := false, drive := .recessive } })

/-- BEACON_TIMER_EXPIRY, CENSUS_TIMER_EXPIRY, ROSTER_AGE_EXPIRY and ORDER_EXPIRY. A timer or an age that an own acceptance,
an accepted frame or an applied frame taken first has just restarted does not run out; that each otherwise acts at any time
left is the model's choice (log 3). -/
def Obligations.LinkAndOrderTimersRunOut : Prop :=
  ((∀ (s : State) (left : Nat), s.lnk.beaconTimer = some left → left < 5 * unitsPerSecond → s.lnk.state = .live →
    exec .beaconTimerExpiry s = .next { s with
      lnk := { s.lnk with
        queue := if s.lnk.queue = [] then [.beacon] else s.lnk.queue
        beaconTimer := some (5 * unitsPerSecond) } })
  ∧ (∀ s : State, s.lnk.beaconTimer = some (5 * unitsPerSecond) ∨ s.lnk.beaconTimer = none ∨ s.lnk.state ≠ .live →
    exec .beaconTimerExpiry s = .next s)
  ∧ (∀ s : State, s.lnk.censusTimer.isSome = true → s.hpt.runState = .joining → s.clt.censusOpen ≤ s.openOrders →
    (s.lnk.state = .joining →
      exec .censusTimerExpiry s = .next { s with
        hpt.runState := .running
        lnk := { s.lnk with state := .live, censusTimer := none, beaconTimer := some (5 * unitsPerSecond) } })
    ∧ (s.lnk.state = .silent →
      exec .censusTimerExpiry s = .next { s with
        hpt.runState := .running
        lnk := { s.lnk with censusTimer := none } }))
  ∧ (∀ s : State, s.lnk.censusTimer.isSome = true → s.hpt.runState = .joining → s.openOrders < s.clt.censusOpen →
    s.hpt.events.length < 28 →
    ∃ t, exec .censusTimerExpiry s = .next t
      ∧ t.hpt = { s.hpt with runState := .running, events := t.hpt.events }
      ∧ s.Mismatches t .censusShort none none
      ∧ (s.lnk.state = .joining →
          t.lnk = { s.lnk with state := .live, censusTimer := none, beaconTimer := some (5 * unitsPerSecond) })
      ∧ (s.lnk.state = .silent → t.lnk = { s.lnk with censusTimer := none })
      ∧ t.wch = s.wch ∧ t.cap = s.cap ∧ t.lbl = s.lbl ∧ t.tkt = s.tkt ∧ t.clt = s.clt ∧ t.day = s.day
      ∧ t.tst.mem = s.tst.mem)
  ∧ (∀ (k : BitVec 4) (s : State),
    (∀ e, Table.get s.lnk.roster k.toNat = some e → 0 < e.age →
      ∃ roster, exec (.rosterAgeExpiry k) s = .next { s with lnk.roster := roster }
        ∧ Table.get roster k.toNat = none ∧ ∀ j, j ≠ k.toNat → Table.get roster j = Table.get s.lnk.roster j)
    ∧ ((∀ e, Table.get s.lnk.roster k.toNat = some e → e.age = 0) → exec (.rosterAgeExpiry k) s = .next s)))
  ∧ (∀ (clerk : Byte) (s : State) (o : Order), s.order clerk.toNat = some o →
    o.timer = none ∨ o.timer = some (s.expiryDuration o.holder) → exec (.orderExpiry clerk) s = .next s)
  ∧ (∀ (clerk : Byte) (s : State) (o : Order) (left : Nat), s.order clerk.toNat = some o → o.timer = some left →
    left < s.expiryDuration o.holder → s.hpt.events.length < 32 →
    ∃ t, exec (.orderExpiry clerk) s = .next t
      ∧ t.hpt.events = (if o.expiryMark then s.hpt.events
          else s.hpt.events ++ [{ event := .orderExpired clerk.toNat, time := s.hpt.timeOfDay }])
      ∧ (s.lnk.state = .live ∨ s.lnk.state = .joining →
          (s.lnk.requestFrames < 12 → t.lnk = { s.lnk with queue := s.lnk.queue ++ [.cancelExpiry clerk.toNat] }
            ∧ t.order clerk.toNat = some { o with expiryMark := true, timer := none })
          ∧ (12 ≤ s.lnk.requestFrames → t.lnk = s.lnk
            ∧ t.order clerk.toNat = some { o with expiryMark := true, timer := some (60 * unitsPerSecond) }))
      ∧ (s.lnk.state = .silent → t.lnk = s.lnk
          ∧ t.order clerk.toNat = some { o with expiryMark := true, timer := none })
      ∧ (∀ c, c ≠ clerk.toNat → t.order c = s.order c)
      ∧ t.wch = s.wch ∧ t.cap = s.cap ∧ t.lbl = s.lbl ∧ t.tkt = s.tkt ∧ t.day = s.day ∧ t.hlm = s.hlm ∧ t.tst = s.tst)

/-- An accepted frame refreshes the roster entry of its origin, at every station but that one; the entries of other stations
change only where a close starts that applies deferred frames of theirs, each as if it had been accepted then. -/
def Obligations.AcceptedFramesRefreshTheRoster : Prop :=
  ∀ (f : Frame) (s t : State), s.receives = true → payloadInRange f.payload = true → exec f.command s = .next t →
    (f.origin ≠ s.hpt.straps.station → ∃ e, Table.get t.lnk.roster f.origin.toNat = some e ∧ e.age = 0)
      ∧ (f.origin = s.hpt.straps.station → s.day.deferred = [] → t.lnk.roster = s.lnk.roster)
      ∧ (∀ k, k ≠ f.origin.toNat → (∀ g ∈ s.day.deferred, g.origin.toNat ≠ k) →
          Table.get t.lnk.roster k = Table.get s.lnk.roster k)

/-- ISSUE_ACCEPTED and CALL_ACCEPTED in the present business day; PASS_ACCEPTED there for an order without lines: the order
is freed, and a ticket passed for the first or second time joins the tail of the list. At the sender the request completes
OK, and a no-sale is posted for an order without lines that a CALL takes from another ticket and for a ticket that ends. Each
frame that does not fit the view raises VIEW_MISMATCH with its kind and is applied as far as the rules say. The model's
choices: a ticket above the own W is compared and stored as it is (log 34); of two kinds at one list the first named is raised
alone, and at a PASS with the ticket (log 33); a PASS leaves the expiry mark of an order that stays OPEN, and the absent ticket of one without lines differs (log 22). The link
is left as State.LinkAfter says, at a receiver by log 12. -/
def Obligations.TicketFramesMoveTheTicketView : Prop :=
  ((∀ (origin : BitVec 4) (p : IssuePayload) (s : State) (n : Nat), s.hearsToday (.issue p) → n = p.ticket.toNat →
    ∃ t, exec (.issueAccepted origin p) s = .next t
      ∧ t.tkt = { s.tkt with
          issued := if newer s.ticketConfig.wrap n s.tkt.issued then n else s.tkt.issued
          waiting :=
            if s.ticketConfig.untracked || s.waits n || s.bound n || decide (48 ≤ s.tkt.waiting.length) then
              s.tkt.waiting
            else s.tkt.waiting
              ++ [{ ticket := n, time := some s.hpt.timeOfDay, station := some origin.toNat, passes := 0 }] }
      ∧ (s.hpt.events.length < 29 →
          { event := .ticketIssued n origin.toNat, time := s.hpt.timeOfDay } ∈ t.hpt.events)
      ∧ (∀ tag rest, s.sends ⟨origin, .issue p⟩ = true → s.lnk.queue = .issue tag :: rest → s.hpt.events.length < 28 →
          s.record (.requestDone tag .ok (some n)) ∈ t.hpt.events)
      -- the mismatches of an ISSUE (R77)
      ∧ (s.hpt.events.length < 26 →
          (s.ticketConfig.untracked = true → t.hlm = s.hlm)
          ∧ (s.ticketConfig.untracked = false →
              (s.waits n = true → s.Mismatches t .issueDuplicate none (some n))
              ∧ (s.waits n = false → s.bound n = true → s.Mismatches t .issueBound none (some n))
              ∧ (s.waits n = false → s.bound n = false →
                  (48 ≤ s.tkt.waiting.length → s.Mismatches t .listFull none (some n))
                  ∧ (s.tkt.waiting.length < 48 → t.hlm = s.hlm))))
      ∧ t.wch = s.wch ∧ t.cap = s.cap ∧ t.lbl = s.lbl ∧ t.clt = s.clt ∧ t.day = s.day ∧ t.tst.mem = s.tst.mem
      ∧ s.LinkAfter t ⟨origin, .issue p⟩)
  ∧ (∀ (origin : BitVec 4) (p : TicketPayload) (s : State) (n clerk : Nat), s.hearsToday (.call p) →
    n = p.ticket.toNat → clerk = p.clerk.toNat →
    ∃ t o, exec (.callAccepted origin p) s = .next t
      ∧ t.tkt = { s.tkt with
          waiting := s.tkt.waiting.filter fun e => decide (e.ticket ≠ n)
          called := if newer s.ticketConfig.wrap n s.tkt.called then n else s.tkt.called
          passes := Table.put s.tkt.passes clerk
            { ticket := n,
              passes := ((s.tkt.waiting.find? fun e => decide (e.ticket = n)).map WaitEntry.passes).getD 0 }
          nowServing := some { ticket := n, clerk := clerk, station := origin.toNat } }
      ∧ t.order clerk = some o ∧ o.ticket = some n ∧ o.holder = origin.toNat ∧ o.lastActivity = s.hpt.timeOfDay
      ∧ o.expiryMark = false ∧ o.timer = some (s.expiryDuration origin.toNat)
      ∧ (s.order clerk = none → o.opened = some s.hpt.timeOfDay ∧ o.lines = some [] ∧ o.lineCount = 0
          ∧ o.itemCount = 0 ∧ o.amount = 0)
      ∧ (∀ o', s.order clerk = some o' → o.lines = o'.lines ∧ o.lineCount = o'.lineCount
          ∧ o.itemCount = o'.itemCount ∧ o.amount = o'.amount ∧ o.opened = o'.opened)
      ∧ (∀ c, c ≠ clerk → t.order c = s.order c)
      ∧ (s.hpt.events.length < 29 → s.record (.nowServing n clerk origin.toNat) ∈ t.hpt.events)
      ∧ (∀ tag rest, s.sends ⟨origin, .call p⟩ = true → s.lnk.queue = .call tag clerk :: rest →
          (s.hpt.events.length < 26 → s.record (.requestDone tag .ok (some n)) ∈ t.hpt.events)
          ∧ (∀ o' m, s.order clerk = some o' → o'.itemCount = 0 → o'.ticket = some m → m ≠ n →
              .update [(addrRunning offNoSale, 1)] ∈ t.tst.ops))
      -- the mismatches of a CALL: a ticket that is not on the list (R80), and an order with lines (R94)
      ∧ (s.hpt.events.length < 24 →
          (s.ticketConfig.untracked = true ∨ s.waits n = true →
            (¬s.ServesLines clerk → t.hlm = s.hlm)
            ∧ (s.ServesLines clerk → s.Mismatches t .callBusy (some clerk) none))
          ∧ (s.ticketConfig.untracked = false → s.waits n = false →
            (¬s.ServesLines clerk → s.Mismatches t .callAbsent none (some n))
            ∧ (s.ServesLines clerk →
              s.record (.viewMismatch .callAbsent none (some n)) ∈ t.hpt.events
                ∧ s.record (.viewMismatch .callBusy (some clerk) none) ∈ t.hpt.events
                ∧ t.hlm.attributes.viewMismatch.raw = min (s.hlm.attributes.viewMismatch.raw + 2) 65535)))
      ∧ t.wch = s.wch ∧ t.cap = s.cap ∧ t.lbl = s.lbl ∧ t.day = s.day ∧ t.tst.mem = s.tst.mem
      ∧ s.LinkAfter t ⟨origin, .call p⟩))
  ∧ (∀ (origin : BitVec 4) (p : TicketPayload) (s : State) (n clerk k : Nat) (o : Order), s.hearsToday (.pass p) →
    n = p.ticket.toNat → clerk = p.clerk.toNat → Table.sorted s.clt.orders = true →
    s.order clerk = some o → o.itemCount = 0 → o.ticket = some n →
    s.ticketConfig.untracked = false → s.waits n = false → s.tkt.waiting.length < 48 →
    (∀ c o', s.order c = some o' → c ≠ clerk → o'.ticket ≠ some n) →
    k = (match Table.get s.tkt.passes clerk with
         | some r => if r.ticket = n then r.passes else 0
         | none => 0) →
    ∃ t, exec (.passAccepted origin p) s = .next t
      ∧ t.order clerk = none ∧ (∀ c, c ≠ clerk → t.order c = s.order c)
      ∧ t.tkt = { s.tkt with
          passes := Table.del s.tkt.passes clerk
          waiting := if k + 1 ≤ 2 then
              s.tkt.waiting ++ [{ ticket := n, time := none, station := none, passes := k + 1 }]
            else s.tkt.waiting }
      ∧ (s.sends ⟨origin, .pass p⟩ = false → t.tst = s.tst ∧ t.hpt = s.hpt)
      ∧ (∀ tag rest, s.sends ⟨origin, .pass p⟩ = true → s.lnk.queue = .pass tag clerk :: rest →
          (s.hpt.events.length < 32 → t.hpt.events = s.hpt.events ++ [s.record (.requestDone tag .ok none)])
          ∧ (2 < k + 1 → .update [(addrRunning offNoSale, 1)] ∈ t.tst.ops))
      ∧ t.wch = s.wch ∧ t.cap = s.cap ∧ t.lbl = s.lbl ∧ t.day = s.day ∧ t.tst.mem = s.tst.mem
      ∧ s.LinkAfter t ⟨origin, .pass p⟩)
  -- a PASS of whatever order and ticket: the mismatch at the order (R95), then the one at the list (R83)
  ∧ (∀ (origin : BitVec 4) (p : TicketPayload) (s : State) (n clerk k : Nat), s.hearsToday (.pass p) →
    n = p.ticket.toNat → clerk = p.clerk.toNat → s.hpt.events.length < 24 →
    k = (match Table.get s.tkt.passes clerk with
         | some r => if r.ticket = n then r.passes else 0
         | none => 0) →
    ∃ (t : State) (first second : Option Event) (raised : List Event), exec (.passAccepted origin p) s = .next t
      ∧ (s.order clerk = none → t.clt = s.clt ∧ first = some (.viewMismatch .orderUnknown (some clerk) none))
      ∧ (∀ o, s.order clerk = some o → 0 < o.itemCount →
          t.order clerk = some { o with
            ticket := none, holder := origin.toNat, lastActivity := s.hpt.timeOfDay,
            timer := some (s.expiryDuration origin.toNat) }
          ∧ first = some (.viewMismatch .passBusy (some clerk) none))
      ∧ (∀ o, s.order clerk = some o → o.itemCount = 0 →
          t.order clerk = none
          ∧ first = (if o.ticket = some n then none else some (.viewMismatch .ticketDiffers (some clerk) none)))
      ∧ (∀ c, c ≠ clerk → t.order c = s.order c)
      ∧ (s.ticketConfig.untracked = true ∨ 2 < k + 1 → second = none ∧ t.tkt.waiting = s.tkt.waiting)
      ∧ (s.ticketConfig.untracked = false → k + 1 ≤ 2 →
          (s.waits n = true →
            second = some (.viewMismatch .passDuplicate none (some n)) ∧ t.tkt.waiting = s.tkt.waiting)
          ∧ (s.waits n = false → t.bound n = true →
            second = some (.viewMismatch .passBound none (some n)) ∧ t.tkt.waiting = s.tkt.waiting)
          ∧ (s.waits n = false → t.bound n = false → 48 ≤ s.tkt.waiting.length →
            second = some (.viewMismatch .listFull none (some n)) ∧ t.tkt.waiting = s.tkt.waiting)
          ∧ (s.waits n = false → t.bound n = false → s.tkt.waiting.length < 48 →
            second = none
              ∧ t.tkt.waiting
                = s.tkt.waiting ++ [{ ticket := n, time := none, station := none, passes := k + 1 }]))
      ∧ t.tkt = { s.tkt with passes := Table.del s.tkt.passes clerk, waiting := t.tkt.waiting }
      ∧ raised = first.toList ++ second.toList
      ∧ (∀ e ∈ raised, s.record e ∈ t.hpt.events)
      ∧ (raised = [] → t.hlm = s.hlm)
      ∧ (raised ≠ [] →
          t.hlm.attributes.viewMismatch.raw = min (s.hlm.attributes.viewMismatch.raw + raised.length) 65535)
      ∧ (raised.length = 1 → s.Moves t .viewMismatch (s.hlm.attributes.viewMismatch.raw + 1))
      ∧ (s.sends ⟨origin, .pass p⟩ = false → ∀ op ∈ t.tst.ops, op ∈ s.tst.ops ∨ ∃ words, op = .recordWrite words)
      ∧ (∀ tag rest, s.sends ⟨origin, .pass p⟩ = true → s.lnk.queue = .pass tag clerk :: rest →
          s.record (.requestDone tag .ok none) ∈ t.hpt.events
            ∧ ((s.ticketConfig.untracked = false ∧ 2 < k + 1) ∨ second = some (.viewMismatch .listFull none (some n)) →
                .update [(addrRunning offNoSale, 1)] ∈ t.tst.ops))
      ∧ t.wch = s.wch ∧ t.cap = s.cap ∧ t.lbl = s.lbl ∧ t.day = s.day ∧ t.tst.mem = s.tst.mem
      ∧ s.LinkAfter t ⟨origin, .pass p⟩)

/-- ITEM_ACCEPTED in the present business day, and VOID_ACCEPTED there for a line that the list holds and that is not void;
at its sender a VOID also fills its reservation with the VOID record, posts the void and completes its request. An ITEM or a
VOID that does not fit the order raises VIEW_MISMATCH with its kind and is applied as far as the rules say; a VOID with two
grounds for VOID_ABSENT raises it once (the model's choice, log 18), and the amount of a stub is not held at the end of its
range (log 29). The link is left as State.LinkAfter says (log 12). -/
def Obligations.ItemAndVoidMoveTheOrder : Prop :=
  (∀ (origin : BitVec 4) (p : ItemPayload) (s : State) (clerk : Nat) (l : Line), s.hearsToday (.item p) →
    clerk = p.clerk.toNat →
    l = { number := p.line.toNat, station := origin.toNat, serial := p.serial.toNat, plu := p.plu.toNat,
          dept := p.dept.toNat, byCount := p.byCount, measure := p.measure.toNat, price := p.price.toNat,
          voided := false } →
    ∃ t o, exec (.itemAccepted origin p) s = .next t
      ∧ t.order clerk = some o ∧ o.holder = origin.toNat ∧ o.lastActivity = s.hpt.timeOfDay ∧ o.expiryMark = false
      ∧ o.timer = some (s.expiryDuration origin.toNat)
      ∧ (s.order clerk = none →
          o.ticket = none ∧ o.opened = some s.hpt.timeOfDay ∧ o.lineCount = p.line.toNat ∧ o.itemCount = 1
            ∧ o.amount = p.price.toNat ∧ o.lines = if p.line.toNat = 1 then some [l] else none)
      ∧ (∀ o', s.order clerk = some o' →
          o.ticket = o'.ticket ∧ o.opened = o'.opened ∧ o.itemCount = o'.itemCount + 1
            ∧ o.amount = o'.amount + p.price.toNat
            ∧ (∀ lines, o'.lines = some lines → p.line.toNat = o'.lineCount + 1 →
                o.lines = some (lines ++ [l]) ∧ o.lineCount = p.line.toNat)
            ∧ (o'.lines = none ∨ p.line.toNat ≠ o'.lineCount + 1 →
                o.lines = none ∧ o.lineCount = max o'.lineCount p.line.toNat))
      -- the mismatches of an ITEM (R96, R97)
      ∧ (s.hpt.events.length < 28 →
          (s.order clerk = none → p.line.toNat = 1 → t.hlm = s.hlm)
          ∧ (s.order clerk = none → p.line.toNat ≠ 1 → s.Mismatches t .orderUnknown (some clerk) none)
          ∧ (∀ o', s.order clerk = some o' → o'.lines = none ∨ p.line.toNat = o'.lineCount + 1 → t.hlm = s.hlm)
          ∧ (∀ o' lines, s.order clerk = some o' → o'.lines = some lines → p.line.toNat ≠ o'.lineCount + 1 →
              s.Mismatches t .lineConflict (some clerk) none))
      ∧ (∀ c, c ≠ clerk → t.order c = s.order c)
      ∧ t.wch = s.wch ∧ t.cap = s.cap ∧ t.lbl = s.lbl ∧ t.tkt = s.tkt ∧ t.day = s.day ∧ t.tst.mem = s.tst.mem
      ∧ s.LinkAfter t ⟨origin, .item p⟩)
  ∧ (∀ (origin : BitVec 4) (p : VoidPayload) (s : State) (clerk : Nat) (o : Order) (lines : List Line) (l : Line),
    s.hearsToday (.voidLine p) → clerk = p.clerk.toNat →
    s.order clerk = some o → o.lines = some lines → o.line p.line.toNat = some l → l.voided = false →
    p.price.toNat = l.price → 1 ≤ o.itemCount → l.price ≤ o.amount →
    ∃ t o', exec (.voidAccepted origin p) s = .next t
      ∧ t.order clerk = some o'
      ∧ o'.itemCount + 1 = o.itemCount ∧ o'.amount + l.price = o.amount ∧ o'.lineCount = o.lineCount
      ∧ o'.ticket = o.ticket ∧ o'.holder = origin.toNat ∧ o'.expiryMark = false
      ∧ o'.lines = some (lines.map fun x => if x.number = l.number then { x with voided := true } else x)
      ∧ (∀ c, c ≠ clerk → t.order c = s.order c)
      ∧ (s.sends ⟨origin, .voidLine p⟩ = false → t.hpt = s.hpt ∧ t.hlm = s.hlm ∧ t.tst = s.tst ∧ t.lbl = s.lbl)
      ∧ (∀ tag line rest, s.sends ⟨origin, .voidLine p⟩ = true → s.lnk.queue = .voidLine tag clerk line :: rest →
          s.hpt.events.length < 32 →
          ∃ r reads, s.Places t r clerk (.void p.line.toNat p.price.toNat) ∧ DaysumReads reads
            ∧ t.lbl.reservations = s.lbl.reservations - 1
            ∧ t.tst.ops = s.tst.ops ++ reads ++ [r.appended t.lbl.nextSerial,
                .update [(addrRunning offVoidCount, 1), (addrRunning offVoidAmount, p.price.toNat)]]
            ∧ (s.lnk.backlog.days = [] → reads = [])
            ∧ t.hpt = { s.hpt with events := s.hpt.events ++ [s.record (.requestDone tag .ok none)] } ∧ t.hlm = s.hlm)
      ∧ t.wch = s.wch ∧ t.cap = s.cap ∧ t.tkt = s.tkt ∧ t.day = s.day ∧ t.tst.mem = s.tst.mem
      ∧ s.LinkAfter t ⟨origin, .voidLine p⟩)
  -- a VOID of whatever order and line (R98)
  ∧ (∀ (origin : BitVec 4) (p : VoidPayload) (s : State) (clerk price : Nat), s.hearsToday (.voidLine p) →
    clerk = p.clerk.toNat → price = p.price.toNat → s.hpt.events.length < 27 →
    ∃ t, exec (.voidAccepted origin p) s = .next t
      ∧ (s.order clerk = none → t.clt = s.clt ∧ s.Mismatches t .orderUnknown (some clerk) none)
      ∧ (∀ o, s.order clerk = some o →
          ∃ o', t.order clerk = some o'
            ∧ o'.ticket = o.ticket ∧ o'.opened = o.opened ∧ o'.lineCount = o.lineCount ∧ o'.holder = origin.toNat
            ∧ o'.lastActivity = s.hpt.timeOfDay ∧ o'.expiryMark = false
            ∧ o'.timer = some (s.expiryDuration origin.toNat)
            ∧ (o.lines = none →
                o'.lines = none ∧ o'.itemCount = o.itemCount - 1 ∧ o'.amount = o.amount - price
                ∧ (o.itemCount = 0 ∨ o.amount < price → s.Mismatches t .voidAbsent (some clerk) none)
                ∧ (o.itemCount ≠ 0 → price ≤ o.amount → t.hlm = s.hlm))
            ∧ (o.lines ≠ none → o.line p.line.toNat = none →
                o'.lines = none ∧ o'.itemCount = o.itemCount - 1 ∧ o'.amount = o.amount - price
                ∧ s.Mismatches t .voidAbsent (some clerk) none)
            ∧ (∀ l, o.line p.line.toNat = some l → l.voided = true →
                o'.lines = o.lines ∧ o'.itemCount = o.itemCount ∧ o'.amount = o.amount
                ∧ s.Mismatches t .voidRepeat (some clerk) none)
            ∧ (∀ l lines, o.lines = some lines → o.line p.line.toNat = some l → l.voided = false →
                o'.lines = some (lines.map fun x => if x.number = l.number then { x with voided := true } else x)
                ∧ o'.itemCount = o.itemCount - 1 ∧ o'.amount = o.amount - l.price
                ∧ (price ≠ l.price ∨ o.itemCount = 0 ∨ o.amount < l.price →
                    s.Mismatches t .voidAbsent (some clerk) none)
                ∧ (price = l.price → o.itemCount ≠ 0 → l.price ≤ o.amount → t.hlm = s.hlm)))
      ∧ (∀ c, c ≠ clerk → t.order c = s.order c)
      ∧ (s.sends ⟨origin, .voidLine p⟩ = false → t.lbl = s.lbl
          ∧ ∀ op ∈ t.tst.ops, op ∈ s.tst.ops ∨ ∃ words, op = .recordWrite words)
      ∧ (∀ tag line rest, s.sends ⟨origin, .voidLine p⟩ = true → s.lnk.queue = .voidLine tag clerk line :: rest →
          ∃ r, s.Places t r clerk (.void p.line.toNat price) ∧ t.lbl.reservations = s.lbl.reservations - 1
            ∧ r.appended t.lbl.nextSerial ∈ t.tst.ops
            ∧ .update [(addrRunning offVoidCount, 1), (addrRunning offVoidAmount, price)] ∈ t.tst.ops
            ∧ t.hpt.events.getLast? = some (s.record (.requestDone tag .ok none)))
      ∧ t.wch = s.wch ∧ t.cap = s.cap ∧ t.tkt = s.tkt ∧ t.day = s.day ∧ t.tst.mem = s.tst.mem
      ∧ s.LinkAfter t ⟨origin, .voidLine p⟩)

/-- TXCLOSE_ACCEPTED and TXCANCEL_ACCEPTED: the order is freed at every station. At its sender a TXCLOSE fills its
reservation with the TOTAL record, hands the journal append and the customer posting and nothing else but the reads of
DAYSUM frames that move up, and completes its request; a TXCANCEL posts the cancel and completes a CANCEL_ORDER. A TXCLOSE
with other figures raises TOTAL_FIGURES and is applied as it stands; either frame for a FREE order raises ORDER_UNKNOWN (that
the sender of such a TXCLOSE frees its reservation is the model's choice, log 23). The link is left as State.LinkAfter says
(log 12). -/
def Obligations.CloseAndCancelFreeTheOrder : Prop :=
  (∀ (origin : BitVec 4) (p : TxClosePayload) (s : State) (clerk : Nat) (o : Order), s.hearsToday (.txClose p) →
    clerk = p.clerk.toNat → s.order clerk = some o →
    o.ticket.getD 0 = p.ticket.toNat → o.itemCount = p.items.toNat → o.amount = p.amount.toNat →
    (s.sends ⟨origin, .txClose p⟩ = false →
      ∃ t, exec (.txCloseAccepted origin p) s = .next t
        ∧ t.order clerk = none ∧ (∀ c, c ≠ clerk → t.order c = s.order c)
        ∧ t.hpt = s.hpt ∧ t.hlm = s.hlm ∧ t.tst = s.tst ∧ t.lbl = s.lbl
        ∧ t.wch = s.wch ∧ t.cap = s.cap ∧ t.tkt = s.tkt ∧ t.day = s.day ∧ t.lnk = s.linkHeard t)
    ∧ (∀ tag rest, s.sends ⟨origin, .txClose p⟩ = true → s.lnk.queue = .txClose tag clerk :: rest →
        s.hpt.events.length < 32 →
      ∃ t r reads, exec (.txCloseAccepted origin p) s = .next t
        ∧ t.order clerk = none ∧ (∀ c, c ≠ clerk → t.order c = s.order c)
        ∧ s.Places t r clerk (.total o.ticket p.items.toNat p.amount.toNat
            (o.lines.map fun lines => lines.map fun l => ⟨l.number, l.station, l.plu, l.price, l.voided⟩))
        ∧ t.lbl.reservations = s.lbl.reservations - 1
        ∧ DaysumReads reads ∧ (s.lnk.backlog.days = [] → reads = [])
        ∧ t.tst.ops = s.tst.ops ++ reads ++ [r.appended t.lbl.nextSerial,
            .update [(addrRunning (offClerkCustomers clerk), 1), (addrRunning (offClerkAmount clerk), p.amount.toNat),
              (addrRunning offCustomers, 1)]]
        ∧ t.hpt = { s.hpt with events := s.hpt.events ++ [s.record (.requestDone tag .ok none)] }
        ∧ t.wch = s.wch ∧ t.cap = s.cap ∧ t.tkt = s.tkt ∧ t.day = s.day ∧ t.hlm = s.hlm ∧ t.tst.mem = s.tst.mem
        ∧ s.Sent t rest))
  ∧ (∀ (origin : BitVec 4) (p : TxCancelPayload) (s : State) (clerk : Nat) (o : Order), s.hearsToday (.txCancel p) →
    clerk = p.clerk.toNat → s.order clerk = some o →
    ∃ t, exec (.txCancelAccepted origin p) s = .next t
      ∧ t.order clerk = none ∧ (∀ c, c ≠ clerk → t.order c = s.order c) ∧ t.lbl = s.lbl
      ∧ (s.sends ⟨origin, .txCancel p⟩ = false → t.tst = s.tst ∧ t.hpt = s.hpt ∧ t.hlm = s.hlm)
      ∧ (∀ f rest, s.sends ⟨origin, .txCancel p⟩ = true → s.lnk.queue = f :: rest → s.hpt.events.length < 32 →
          ∃ reads, DaysumReads reads ∧ (s.lnk.backlog.days = [] → reads = [])
            ∧ t.tst.ops = s.tst.ops ++ reads
                ++ [.update [(addrRunning offCancelCount, 1), (addrRunning offCancelAmount, o.amount)]]
            ∧ t.hpt = { s.hpt with events := s.hpt.events
                ++ (f.tag.map fun tag => s.record (.requestDone tag .ok none)).toList } ∧ t.hlm = s.hlm)
      ∧ t.wch = s.wch ∧ t.cap = s.cap ∧ t.tkt = s.tkt ∧ t.day = s.day ∧ t.tst.mem = s.tst.mem
      ∧ s.LinkAfter t ⟨origin, .txCancel p⟩)
  -- a TXCLOSE with other figures, and one for a clerk whose order is FREE (R99)
  ∧ (∀ (origin : BitVec 4) (p : TxClosePayload) (s : State) (clerk : Nat), s.hearsToday (.txClose p) →
    clerk = p.clerk.toNat → s.hpt.events.length < 27 →
    ∃ t, exec (.txCloseAccepted origin p) s = .next t
      ∧ (s.order clerk = none → t.clt = s.clt ∧ s.Mismatches t .orderUnknown (some clerk) none
          ∧ t.lbl.records = s.lbl.records
          ∧ (∀ tag rest, s.sends ⟨origin, .txClose p⟩ = true → s.lnk.queue = .txClose tag clerk :: rest →
              t.lbl.reservations = s.lbl.reservations - 1
                ∧ t.hpt.events.getLast? = some (s.record (.requestDone tag .ok none))))
      ∧ (∀ o, s.order clerk = some o →
          t.order clerk = none
          ∧ (o.ticket.getD 0 ≠ p.ticket.toNat ∨ o.itemCount ≠ p.items.toNat ∨ o.amount ≠ p.amount.toNat →
              s.Mismatches t .totalFigures (some clerk) none)
          ∧ (∀ tag rest, s.sends ⟨origin, .txClose p⟩ = true → s.lnk.queue = .txClose tag clerk :: rest →
              ∃ r, s.Places t r clerk (.total o.ticket p.items.toNat p.amount.toNat
                  (o.lines.map fun lines => lines.map fun l => ⟨l.number, l.station, l.plu, l.price, l.voided⟩))
                ∧ t.lbl.reservations = s.lbl.reservations - 1
                ∧ r.appended t.lbl.nextSerial ∈ t.tst.ops
                ∧ .update [(addrRunning (offClerkCustomers clerk), 1),
                    (addrRunning (offClerkAmount clerk), p.amount.toNat), (addrRunning offCustomers, 1)] ∈ t.tst.ops
                ∧ t.hpt.events.getLast? = some (s.record (.requestDone tag .ok none))))
      ∧ (s.sends ⟨origin, .txClose p⟩ = false → t.lbl = s.lbl
          ∧ ∀ op ∈ t.tst.ops, op ∈ s.tst.ops ∨ ∃ words, op = .recordWrite words)
      ∧ (∀ c, c ≠ clerk → t.order c = s.order c)
      ∧ t.wch = s.wch ∧ t.cap = s.cap ∧ t.tkt = s.tkt ∧ t.day = s.day ∧ t.tst.mem = s.tst.mem
      ∧ s.LinkAfter t ⟨origin, .txClose p⟩)
  -- a TXCANCEL for a clerk whose order is FREE (R100)
  ∧ (∀ (origin : BitVec 4) (p : TxCancelPayload) (s : State) (clerk : Nat), s.hearsToday (.txCancel p) →
    clerk = p.clerk.toNat → s.order clerk = none → s.hpt.events.length < 27 →
    ∃ t, exec (.txCancelAccepted origin p) s = .next t
      ∧ t.clt = s.clt ∧ s.Mismatches t .orderUnknown (some clerk) none
      ∧ (∀ op ∈ t.tst.ops, op ∈ s.tst.ops ∨ (∃ words, op = .recordWrite words) ∨ DaysumReads [op])
      ∧ (∀ f tag rest, s.sends ⟨origin, .txCancel p⟩ = true → s.lnk.queue = f :: rest → f.tag = some tag →
          t.hpt.events.getLast? = some (s.record (.requestDone tag .ok none)))
      ∧ t.wch = s.wch ∧ t.cap = s.cap ∧ t.lbl = s.lbl ∧ t.tkt = s.tkt ∧ t.day = s.day ∧ t.tst.mem = s.tst.mem
      ∧ s.LinkAfter t ⟨origin, .txCancel p⟩)

/-- DAYSUM_ACCEPTED, DAYSUM_ASK_ACCEPTED and CENSUS_ASK_ACCEPTED: a station that holds the day makes a DAYSUM due, which
takes a free station place or waits in the backlog; a RUNNING and LIVE station answers another's CENSUS_ASK with a
CENSUS_REPLY and a CENSUS_TX of every OPEN order, the lowest clerks first, the free places first and the others in the
backlog; and an own acceptance that frees a station place moves the first backlog item into it. The number that a DAYSUM read
bears is the model's (log 50). -/
def Obligations.DaysumsAndAsksAreHandled : Prop :=
  (∀ (origin : BitVec 4) (p : DaysumPayload) (s : State), s.receives = true → payloadInRange (.daysum p) = true →
    ∃ t, exec (.daysumAccepted origin p) s = .next t
      ∧ (s.recordSlot p.day.toNat = none → s.sends ⟨origin, .daysum p⟩ = false → t.tst = s.tst)
      ∧ (∀ slot, s.recordSlot p.day.toNat = some slot →
          t.tst.ops.getLast? = some (.counterUpdate slot p.day.toNat origin.toNat
            { itemAmount := p.itemAmount.toNat, itemCount := p.itemCount.toNat, customers := p.customers.toNat,
              voidAmount := p.voidAmount.toNat }))
      ∧ t.hpt = s.hpt ∧ t.wch = s.wch ∧ t.cap = s.cap ∧ t.lbl = s.lbl ∧ t.tkt = s.tkt ∧ t.clt = s.clt
      ∧ t.day = s.day ∧ t.hlm = s.hlm ∧ t.tst.mem = s.tst.mem
      ∧ s.LinkAfter t ⟨origin, .daysum p⟩)
  -- a DAYSUM_ASK at a receiver (R50, R172, R174)
  ∧ (∀ (origin : BitVec 4) (d : BitVec 16) (s : State), s.receives = true → d.toNat ≠ 0 →
    s.sends ⟨origin, .daysumAsk d⟩ = false →
    ∃ t, exec (.daysumAskAccepted origin d) s = .next t
      ∧ (s.recordSlot d.toNat = none ∨ s.lnk.state = .silent ∨ (∃ n figures, .daysum d.toNat n figures ∈ s.lnk.queue)
          ∨ d.toNat ∈ s.lnk.backlog.days →
        t.lnk = s.linkHeard t ∧ t.tst = s.tst)
      ∧ (∀ slot, s.recordSlot d.toNat = some slot → s.lnk.state = .live ∨ s.lnk.state = .joining →
          (∀ n figures, .daysum d.toNat n figures ∉ s.lnk.queue) →
        (s.lnk.backlog = { replyDue := false, clerks := [], days := [] } → s.lnk.stationFrames < 4 →
          ∃ n, FreshRead n s.tst.ops
            ∧ t.lnk = { s.linkHeard t with queue := s.lnk.queue ++ [.daysum d.toNat n none] }
            ∧ t.tst = { s.tst with ops := s.tst.ops ++ [.read (figureAddresses slot) (.daysum n)] })
        ∧ (d.toNat ∉ s.lnk.backlog.days → 4 ≤ s.lnk.stationFrames →
          t.lnk = { s.linkHeard t with
              backlog := { s.lnk.backlog with
                days := (if 8 ≤ s.lnk.backlog.days.length then s.lnk.backlog.days.drop 1 else s.lnk.backlog.days)
                  ++ [d.toNat] } }
            ∧ t.tst = s.tst))
      ∧ t.hpt = s.hpt ∧ t.wch = s.wch ∧ t.cap = s.cap ∧ t.lbl = s.lbl ∧ t.tkt = s.tkt ∧ t.clt = s.clt
      ∧ t.day = s.day ∧ t.hlm = s.hlm ∧ t.tst.mem = s.tst.mem)
  -- at its sender, which completes its request (R174)
  ∧ (∀ (origin : BitVec 4) (d : BitVec 16) (s : State) (tag day : Nat) (rest : List TxFrame), s.receives = true →
    d.toNat ≠ 0 → s.sends ⟨origin, .daysumAsk d⟩ = true → s.lnk.queue = .daysumAsk tag day :: rest →
    ∃ t, exec (.daysumAskAccepted origin d) s = .next t
      ∧ (s.hpt.events.length < 32 →
          t.hpt = { s.hpt with events := s.hpt.events ++ [s.record (.requestDone tag .ok none)] } ∧ t.hlm = s.hlm)
      ∧ (s.recordSlot d.toNat = none → s.Sent t rest)
      ∧ (∀ slot, s.recordSlot d.toNat = some slot → s.lnk.state = .live ∨ s.lnk.state = .joining →
          (∀ n figures, .daysum d.toNat n figures ∉ rest) →
          s.lnk.backlog = { replyDue := false, clerks := [], days := [] } → s.lnk.stationFrames < 4 →
          s.hpt.events.length < 32 →
        ∃ n, FreshRead n s.tst.ops ∧ t.lnk = s.linkSent t (rest ++ [.daysum d.toNat n none])
          ∧ t.tst = { s.tst with ops := s.tst.ops ++ [.read (figureAddresses slot) (.daysum n)] })
      ∧ t.wch = s.wch ∧ t.cap = s.cap ∧ t.lbl = s.lbl ∧ t.tkt = s.tkt ∧ t.clt = s.clt ∧ t.day = s.day
      ∧ t.tst.mem = s.tst.mem)
  -- a CENSUS_ASK (R50, R65)
  ∧ (∀ (origin : BitVec 4) (s : State), s.receives = true →
    ∃ t, exec (.censusAskAccepted origin) s = .next t
      ∧ (∀ (reply : List TxFrame) (clerks : List Nat) (places : Nat), s.sends ⟨origin, .censusAsk⟩ = false →
          s.hpt.runState = .running → s.lnk.state = .live → Table.sorted s.clt.orders = true →
          s.lnk.backlog = { replyDue := false, clerks := [], days := [] } →
          reply = (if .censusReply ∈ s.lnk.queue then [] else [.censusReply]) →
          clerks = (s.clt.orders.map Prod.fst).filter (fun c => decide (.censusTx c ∉ s.lnk.queue)) →
          places = 4 - s.lnk.stationFrames →
        t.lnk = { s.linkHeard t with
          queue := s.lnk.queue ++ (reply ++ clerks.map TxFrame.censusTx).take places
          backlog := { replyDue := decide (places = 0 ∧ reply ≠ []), clerks := clerks.drop (places - reply.length),
                       days := [] } })
      ∧ (s.hpt.runState ≠ .running ∨ s.lnk.state ≠ .live → s.LinkAfter t ⟨origin, .censusAsk⟩)
      ∧ (∀ head rest, s.sends ⟨origin, .censusAsk⟩ = true → s.lnk.queue = head :: rest → s.Sent t rest)
      ∧ (s.lnk.backlog.days = [] → t.tst = s.tst)
      ∧ t.hpt = s.hpt ∧ t.wch = s.wch ∧ t.cap = s.cap ∧ t.lbl = s.lbl ∧ t.tkt = s.tkt ∧ t.clt = s.clt
      ∧ t.day = s.day ∧ t.hlm = s.hlm ∧ t.tst.mem = s.tst.mem)
  -- a station place freed by an own acceptance (R50)
  ∧ (∀ (f : Frame) (s : State) (head : TxFrame) (rest : List TxFrame), s.receives = true →
    payloadInRange f.payload = true → s.sends f = true → payloadClass f.payload ≠ 0 → payloadClass f.payload ≠ 9 →
    s.lnk.queue = head :: rest → (rest.filter fun x => !x.isRequest).length = 3 →
    ∃ t, exec f.command s = .next t ∧ s.MovesFirst t rest)

/-- CENSUS_REPLY_ACCEPTED, CENSUS_TX_ACCEPTED and BEACON_ACCEPTED: a joiner takes the newer figures of a CENSUS_REPLY or of a
BEACON of its own mode and wrap and rebuilds its waiting list (cut to 48 before the bound tickets are left out: the model's
choice, log 19; figures above the own W log 34), and a RUNNING station keeps its ticket view; another mode or wrap is a
conflict; a later business day puts the station behind, and with a close latched only one that is not the successor of D
(log 28). The link is left as State.LinkAfter says (log 12). -/
def Obligations.CensusFramesFillAJoinersView : Prop :=
  (∀ (origin : BitVec 4) (p : CensusReplyPayload) (s : State), s.receives = true →
    payloadInRange (.censusReply p) = true → s.ticketConfig.untracked = p.untracked →
    s.ticketConfig.wrap = (if p.wrap999 then 999 else 99) →
    (s.hpt.runState = .joining →
      ∃ t, exec (.censusReplyAccepted origin p) s = .next t
        ∧ s.TakesFigures t p.issued.toNat p.called.toNat
        ∧ t.clt = { s.clt with censusOpen := max s.clt.censusOpen p.openOrders.toNat }
        ∧ t.wch = s.wch ∧ t.cap = s.cap ∧ t.lbl = s.lbl ∧ t.tst.mem = s.tst.mem
        ∧ s.LinkAfter t ⟨origin, .censusReply p⟩)
    ∧ (s.hpt.runState = .running →
      ∃ t, exec (.censusReplyAccepted origin p) s = .next t ∧ t.tkt = s.tkt ∧ t.clt = s.clt
        ∧ t.wch = s.wch ∧ t.cap = s.cap ∧ t.lbl = s.lbl ∧ t.tst.mem = s.tst.mem
        ∧ s.LinkAfter t ⟨origin, .censusReply p⟩))
  ∧ (∀ (origin : BitVec 4) (p : BeaconPayload) (s : State), s.receives = true → payloadInRange (.beacon p) = true →
    s.hpt.runState = .joining → s.ticketConfig.untracked = p.untracked →
    s.ticketConfig.wrap = (if p.wrap999 then 999 else 99) →
    ∃ t, exec (.beaconAccepted origin p) s = .next t
      ∧ s.TakesFigures t p.issued.toNat p.called.toNat
      ∧ t.clt = s.clt ∧ t.wch = s.wch ∧ t.cap = s.cap ∧ t.lbl = s.lbl ∧ t.tst.mem = s.tst.mem
      ∧ s.LinkAfter t ⟨origin, .beacon p⟩)
  ∧ (∀ (origin : BitVec 4) (p : CensusTxPayload) (s : State) (clerk : Nat), s.receives = true →
    payloadInRange (.censusTx p) = true → clerk = p.clerk.toNat →
    (s.hpt.runState = .joining → s.order clerk = none →
      ∃ t o, exec (.censusTxAccepted origin p) s = .next t ∧ t.order clerk = some o
        ∧ o.ticket = (if p.ticket = 0 then none else some p.ticket.toNat) ∧ o.opened = none
        ∧ o.holder = p.holder.toNat ∧ o.lineCount = p.items.toNat ∧ o.itemCount = p.items.toNat
        ∧ o.amount = p.amount.toNat ∧ o.lines = none ∧ o.expiryMark = false
        ∧ o.timer = some (s.expiryDuration p.holder.toNat)
        ∧ (∀ c, c ≠ clerk → t.order c = s.order c)
        ∧ (p.ticket ≠ 0 → t.waits p.ticket.toNat = false)
        ∧ t.hpt = s.hpt ∧ t.wch = s.wch ∧ t.cap = s.cap ∧ t.lbl = s.lbl ∧ t.day = s.day ∧ t.hlm = s.hlm
        ∧ s.LinkAfter t ⟨origin, .censusTx p⟩)
    ∧ (s.hpt.runState ≠ .joining ∨ (s.order clerk).isSome = true →
      ∃ t, exec (.censusTxAccepted origin p) s = .next t ∧ t.clt = s.clt ∧ t.tkt = s.tkt ∧ t.hpt = s.hpt
        ∧ t.day = s.day ∧ s.LinkAfter t ⟨origin, .censusTx p⟩))
  ∧ (∀ (origin : BitVec 4) (p : BeaconPayload) (s : State), s.receives = true → payloadInRange (.beacon p) = true →
    s.hpt.runState = .running → origin ≠ s.hpt.straps.station → laterDay p.day.toNat s.day.day = false →
    (s.ticketConfig.untracked = p.untracked ∧ s.ticketConfig.wrap = (if p.wrap999 then 999 else 99)
      ∨ s.tkt.conflict = true) →
    ∃ t, exec (.beaconAccepted origin p) s = .next t
      ∧ Table.get t.lnk.roster origin.toNat
          = some { day := some p.day.toNat, lockout := some p.lockedOut, age := 0 }
      ∧ t.hpt = s.hpt ∧ t.wch = s.wch ∧ t.cap = s.cap ∧ t.lbl = s.lbl ∧ t.tkt = s.tkt ∧ t.clt = s.clt
      ∧ t.day = s.day ∧ t.hlm = s.hlm ∧ t.tst.mem = s.tst.mem
      ∧ s.LinkAfter t ⟨origin, .beacon p⟩)
  ∧ (∀ (origin : BitVec 4) (i : Instr) (day : Nat) (untracked wrap999 : Bool) (s : State),
    (∃ p : CensusReplyPayload, i = .censusReplyAccepted origin p ∧ payloadInRange (.censusReply p) = true
        ∧ day = p.day.toNat ∧ untracked = p.untracked ∧ wrap999 = p.wrap999)
      ∨ (∃ p : BeaconPayload, i = .beaconAccepted origin p ∧ payloadInRange (.beacon p) = true
        ∧ day = p.day.toNat ∧ untracked = p.untracked ∧ wrap999 = p.wrap999) →
    s.receives = true → s.hpt.events.length < 29 →
    ∃ t, exec i s = .next t
      -- the conflict rule (R89)
      ∧ (s.ticketConfig.untracked ≠ untracked ∨ s.ticketConfig.wrap ≠ (if wrap999 then 999 else 99) →
          t.tkt = { s.tkt with conflict := true }
            ∧ (s.tkt.conflict = false → s.record (.viewMismatch .mode none none) ∈ t.hpt.events
                ∧ t.hlm.attributes.viewMismatch.raw = min (s.hlm.attributes.viewMismatch.raw + 1) 65535))
      -- the business day carried (R162)
      ∧ (laterDay day s.day.day = false → t.day = s.day)
      ∧ (∀ l, s.day.latch = some l → day = (if s.day.day = 65535 then 1 else s.day.day + 1) → t.day = s.day)
      ∧ (laterDay day s.day.day = true →
          s.day.latch = none ∨ day ≠ (if s.day.day = 65535 then 1 else s.day.day + 1) →
          t.day = { s.day with
              highest := if laterDay day s.day.highest then day else s.day.highest
              behind := true }
            ∧ (s.day.behind = false → s.record (.dayBehind day) ∈ t.hpt.events
                ∧ t.hlm.faultCount = min (s.hlm.faultCount + 1) 65535)))

/-! ### The day -/

/-- DAYCLOSE_ACCEPTED of the present day or of a later one, at a receiver or at its own sender, and CLOSE_START of a latched
close and JOIN_DAY, with the capture unit IDLE: the business day advances, the views are emptied, the frames of classes 1..7
leave the queue, their requests completing with DAY_CLOSED in queue order, their reservations freed and no late item made,
the label word is written with serial 1, the day-scoped attributes return to 0 with their worst-ever values kept, and the
close copy is handed; a sender's own request completes last (the packing of the words by log 7). That the steps of
DAYCLOSE_ACCEPTED and JOIN_DAY perform the close start within themselves, and that CLOSE_START performs that of a latched
close which it finds with the unit IDLE, are the model's choices (log 15); so is that a highest day still later than the new
one sets a clear day-behind flag (log 37). The copy's snapshot is the roster at the close start with the own station in it,
the origin of an accepted DAYCLOSE having been entered first; the head is withdrawn when it is of classes 1..7 (that a head
of another class goes on is deduced, log 43), and between attempts the station goes on driving what it drives. The deferred
frames follow in order: one of the new day is applied after its origin's roster entry is refreshed, one of another day
refreshes the roster alone, and the list is left empty. -/
def Obligations.CloseStartAdvancesTheDay : Prop :=
  (∀ (s : State) (i : Instr) (c : LatchedClose) (heard : Option (BitVec 4)) (own : Option Nat) (slot : Slot),
    s.StartsClose i c heard own slot → s.day.deferred = [] →
    ∃ t, exec i s = .next t
      ∧ t.day = { s.day with
          day := c.newDay
          latch := none
          behind := laterDay s.day.highest c.newDay
          highest := if laterDay s.day.highest c.newDay then s.day.highest else c.newDay
          copiesPending := s.day.copiesPending + 1
          newestSlot := if s.day.newestSlot = 0 ∨ 8 ≤ s.day.newestSlot then 1 else s.day.newestSlot + 1
          held := t.day.held }
      ∧ (∀ k, Table.get t.day.held k = if k = t.day.newestSlot then some s.day.day else Table.get s.day.held k)
      ∧ t.tkt = { s.tkt with issued := 0, called := 0, nowServing := none, waiting := [], passes := [] }
      ∧ t.clt = { s.clt with orders := [] }
      -- the serial, and the reservations of the frames removed (R114, R130, R132)
      ∧ t.lbl = { s.lbl with
          nextSerial := 1, reservations := s.lbl.reservations - (s.lnk.queue.filter TxFrame.reserves).length }
      -- the attributes (R177)
      ∧ (∀ a ∈ [Attribute.motionTimeouts, .linkRetries, .viewMismatch],
          t.hlm.attributes.get a = (s.hlm.attributes.get a).closed)
      ∧ (∀ a ∈ [Attribute.zeroUse, .overloads, .storeErrors], t.hlm.attributes.get a = s.hlm.attributes.get a)
      -- the operations handed, in order: the business day word, the label word, the attributes that moved, the close copy
      -- with the snapshot of the roster and the own station (R61, R132, R147, R167)
      ∧ (∃ reads before after snapshot, t.tst = { s.tst with
            ops := s.tst.ops ++ reads ++ .recordWrite [(0, BitVec.ofNat 32 c.newDay)] :: before
              ++ .closeCopy ⟨t.day.newestSlot, s.day.day, s.hpt.timeOfDay, c.late, c.forced, snapshot⟩ :: after }
          ∧ (∀ k : BitVec 4, snapshot.getLsbD k.toNat = true
              ↔ k = s.hpt.straps.station ∨ (Table.get s.lnk.roster k.toNat).isSome = true ∨ heard = some k)
          ∧ .recordWrite [(1, BitVec.ofNat 32 (1 + s.lbl.newest * 1048576))] ∈ before
          ∧ (s.CloseRoom → DaysumReads reads ∧ (own = none ∨ s.lnk.backlog = Backlog.none → reads = [])
            ∧ before = .recordWrite [(1, BitVec.ofNat 32 (1 + s.lbl.newest * 1048576))]
                :: ([Attribute.motionTimeouts, .linkRetries, .viewMismatch].filter fun a =>
                    decide ((s.hlm.attributes.get a).raw ≠ 0)).map (fun a => (s.hlm.attributes.get a).closed.stored a)
            ∧ after = []))
      -- the requests of the frames removed, in queue order, then the sender's own (R84, R105, R163): no event of another
      -- kind, and no late item
      ∧ (s.CloseRoom →
          t.hpt = { s.hpt with
            slot := slot
            events := s.hpt.events
              ++ ((s.lnk.queue.filter TxFrame.isDayScoped).filterMap TxFrame.tag).map (fun tag =>
                  s.record (.requestDone tag .dayClosed none))
              ++ (own.map fun tag => s.record (.requestDone tag .ok none)).toList }
          ∧ t.hlm.newestFault = s.hlm.newestFault ∧ t.hlm.faultCount = s.hlm.faultCount)
      -- the link (R57, R167), at the sender as R56 says
      ∧ (own = none → t.lnk
          = { (match heard with | none => s.lnk | some _ => s.linkHeard t).closed with roster := t.lnk.roster })
      ∧ (heard = none → t.lnk.roster = s.lnk.roster)
      ∧ (∀ tag head rest, own = some tag → s.lnk.queue = head :: rest → s.Sent t (rest.filter fun f => !f.isDayScoped))
      ∧ t.wch = s.wch ∧ t.cap = s.cap ∧ t.power = s.power)
  -- step 8, the deferred frames (R166, R167): on what the other steps leave, before the sender's own request completes
  ∧ (∀ (s t₀ : State) (i : Instr) (c : LatchedClose) (heard : Option (BitVec 4)) (own : Option Nat) (slot : Slot)
      (apply : State → State),
    s.StartsClose i c heard own slot → exec i { s with day.deferred := [] } = .next t₀ →
    apply = (fun u => s.day.deferred.foldl (fun u f =>
      if dayTagOf f.payload = t₀.day.day % 256 then applyDayFrame f none (refreshRoster f.origin.toNat u)
      else refreshRoster f.origin.toNat u) u) →
    ∃ t, exec i s = .next t
      ∧ t.day.deferred = []
      ∧ (own = none → t = apply t₀)
      ∧ (∀ tag v, own = some tag → s.CloseRoom →
          v = apply { t₀ with hpt.events := t₀.hpt.events.dropLast } → v.hpt.events.length < 32 →
          t = { v with hpt.events := v.hpt.events ++ [s.record (.requestDone tag .ok none)] })
      -- one frame of the new day is as if it were accepted now
      ∧ (∀ f, own = none → s.day.deferred = [f] → payloadInRange f.payload = true → 1 ≤ payloadClass f.payload →
          payloadClass f.payload ≤ 7 → dayTagOf f.payload = t₀.day.day % 256 → t₀.receives = true →
          t₀.lnk.attempt = none → t₀.lnk.formWaiting = false → t₀.lnk.drive = .recessive →
          exec i s = exec f.command t₀))

/-- The commands of the day complete: DAYCLOSE_ACCEPTED starts, latches or ignores a close, at a receiver and at its own
sender alike, and completes its request at the sender; a frame of classes 1..7 with another day tag is deferred, puts the station behind, or is discarded; CLOSE_START
without a latched close does nothing; JOIN_DAY is refused unless the station is behind and its capture unit IDLE. The steps that
bring the capture unit to IDLE start a latched close themselves (log 15). What a receiver keeps of its link is by log 12. -/
def Obligations.DayCommandsComplete : Prop :=
  -- at a receiver and at the sender
  (∀ (origin : BitVec 4) (p : DayClosePayload) (s : State), s.receives = true → p.day.toNat ≠ 0 →
    (s.cap.capture ≠ .idle → s.day.latch = none → p.day.toNat = s.day.day →
      ∃ t, exec (.dayCloseAccepted origin p) s = .next t ∧ s.KeepsAllBut t ⟨origin, .dayClose p⟩
        ∧ t.day = { s.day with latch := some ⟨if s.day.day = 65535 then 1 else s.day.day + 1, false, p.forced⟩ })
    ∧ (p.day.toNat ≠ s.day.day → laterDay p.day.toNat s.day.day = false →
      ∃ t, exec (.dayCloseAccepted origin p) s = .next t ∧ s.KeepsAllBut t ⟨origin, .dayClose p⟩ ∧ t.day = s.day)
    ∧ (p.day.toNat = s.day.day → s.day.latch = none → s.cap.capture = .idle →
      ∃ t, exec (.dayCloseAccepted origin p) s = .next t ∧ t.cap = s.cap ∧ t.day.latch = none
        ∧ t.day.day = (if s.day.day = 65535 then 1 else s.day.day + 1))
    -- a close already latched for the day (R164), and a DAYCLOSE of a later day (R164, R165)
    ∧ (p.day.toNat = s.day.day → s.day.latch ≠ none →
      ∃ t, exec (.dayCloseAccepted origin p) s = .next t ∧ s.KeepsAllBut t ⟨origin, .dayClose p⟩ ∧ t.day = s.day)
    ∧ (laterDay p.day.toNat s.day.day = true → s.cap.capture ≠ .idle →
      ∃ t, exec (.dayCloseAccepted origin p) s = .next t ∧ s.KeepsAllBut t ⟨origin, .dayClose p⟩
        ∧ (s.day.latch = none → t.day = { s.day with
            latch := some ⟨if p.day.toNat = 65535 then 1 else p.day.toNat + 1, true, p.forced⟩ })
        ∧ (∀ l, s.day.latch = some l → t.day = { s.day with
            latch := some ⟨if p.day.toNat = 65535 then 1 else p.day.toNat + 1, true, l.forced⟩ }))
    ∧ (laterDay p.day.toNat s.day.day = true → s.cap.capture = .idle → s.day.latch = none →
      ∃ t, exec (.dayCloseAccepted origin p) s = .next t ∧ t.cap = s.cap ∧ t.day.latch = none
        ∧ t.day.day = (if p.day.toNat = 65535 then 1 else p.day.toNat + 1)))
  -- the sender's part (R163)
  ∧ (∀ (origin : BitVec 4) (p : DayClosePayload) (s : State) (tag day : Nat) (forced : Bool) (rest : List TxFrame),
    s.receives = true → p.day.toNat ≠ 0 → s.sends ⟨origin, .dayClose p⟩ = true →
    s.lnk.queue = .dayClose tag day forced :: rest →
    ∃ t, exec (.dayCloseAccepted origin p) s = .next t
      -- the link (R56): a close that starts takes the frames of classes 1..7 from the queue (R167)
      ∧ (s.cap.capture ≠ .idle ∨ s.day.latch ≠ none
          ∨ (p.day.toNat ≠ s.day.day ∧ laterDay p.day.toNat s.day.day = false) → s.Sent t rest)
      ∧ (p.day.toNat = s.day.day ∨ laterDay p.day.toNat s.day.day = true → s.cap.capture = .idle → s.day.latch = none →
          s.Sent t (rest.filter fun f => !f.isDayScoped))
      ∧ (p.day.toNat = s.day.day ∨ laterDay p.day.toNat s.day.day = true → s.cap.capture ≠ .idle ∨ s.day.latch ≠ none →
          s.hpt.events.length < 32 → t.hpt.events = s.hpt.events ++ [s.record (.requestDone tag .ok none)])
      ∧ (p.day.toNat = s.day.day ∨ laterDay p.day.toNat s.day.day = true → s.cap.capture = .idle → s.day.latch = none →
          s.day.deferred = [] → s.hpt.events.length + s.lnk.queue.length < 29 →
          s.record (.requestDone tag .ok none) ∈ t.hpt.events)
      ∧ (p.day.toNat ≠ s.day.day → laterDay p.day.toNat s.day.day = false → s.hpt.events.length < 32 →
          t.day = s.day ∧ t.hpt.events = s.hpt.events ++ [s.record (.requestDone tag .dayClosed none)]))
  -- the outcomes of Table 9-1 for another tag (R161, R166)
  ∧ (∀ (f : Frame) (s : State), s.receives = true → payloadInRange f.payload = true → s.sends f = false →
    1 ≤ payloadClass f.payload → payloadClass f.payload ≤ 7 → dayTagOf f.payload ≠ s.day.day % 256 →
    s.hpt.events.length < 30 →
    ∃ t, exec f.command s = .next t
      ∧ t.tkt = s.tkt ∧ t.clt = s.clt ∧ t.cap = s.cap ∧ t.lbl = s.lbl ∧ t.lnk = s.linkHeard t
      ∧ ∀ next : Nat, next = (if s.day.day = 65535 then 1 else s.day.day + 1) →
        (dayTagOf f.payload = next % 256 → s.day.latch ≠ none →
          (s.day.deferred.length < 8 → t.day = { s.day with deferred := s.day.deferred ++ [f] } ∧ t.hpt = s.hpt
            ∧ t.tst = s.tst ∧ t.hlm = s.hlm)
          ∧ (8 ≤ s.day.deferred.length → t.day = s.day
            ∧ s.record (.viewMismatch .deferredFull none none) ∈ t.hpt.events
            ∧ t.hlm.attributes.viewMismatch.raw = min (s.hlm.attributes.viewMismatch.raw + 1) 65535
            ∧ (s.hpt.events.length < 28 → s.Moves t .viewMismatch (s.hlm.attributes.viewMismatch.raw + 1))))
        ∧ (dayTagOf f.payload = next % 256 → s.day.latch = none →
          t.day = { s.day with highest := if laterDay next s.day.highest then next else s.day.highest, behind := true }
            ∧ (s.day.behind = false → t.hpt.events = s.hpt.events ++ [s.record (.dayBehind next)]
                ∧ t.hlm.faultCount = min (s.hlm.faultCount + 1) 65535)
            ∧ (s.day.behind = true → t.hpt = s.hpt ∧ t.tst = s.tst ∧ t.hlm = s.hlm))
        ∧ (dayTagOf f.payload ≠ next % 256 → t.day = s.day ∧ t.hpt = s.hpt ∧ t.tst = s.tst ∧ t.hlm = s.hlm))
  ∧ (∀ s : State, s.day.latch = none ∨ s.cap.capture ≠ .idle → exec .closeStart s = .next s)
  ∧ (∀ s : State, s.day.latch.isSome = true → s.cap.capture = .idle →
      ∃ t, exec .closeStart s = .next t ∧ t.day.latch = none)
  ∧ (∀ s : State, s.asked .joinDay →
    (s.hpt.runState ≠ .running ∨ s.day.behind = false → exec .joinDay s = .next (refuse .wrongState s))
    ∧ (s.hpt.runState = .running → s.day.behind = true → s.cap.capture ≠ .idle →
      exec .joinDay s = .next (refuse .busy s))
    ∧ (s.hpt.runState = .running → s.day.behind = true → s.cap.capture = .idle →
      ∃ t, exec .joinDay s = .next t ∧ t.hpt.slot = .ready { result := .ok, data := [] } ∧ t.day.latch = none))

/-! ### The totals store -/

/-- The eight store operations: the head of the operation list is performed whole by the command of its kind; another
kind's command does nothing (the model's choice, log 9). What an operation finds goes to the error latch, and to
STORE_ERROR, STORE_ERRORS and the STORE fault; the end of a close copy is reported with its DAYSUM made due, the read of a
DAYSUM fills it and no other (the numbers of the reads are the model's, log 50), a head that waited for it being sent then on
a line taken as still idle (log 53), and a counter update adds a station's figures once and reports completion. An update
adds to each word it can read, up to the bucket limit; a journal append writes its entry and the label word whole and counts
the label; a taken-flag update sets the flag of the entry that it names; a record write writes its words whole. The places of
the flags and of the fields of an entry, and of the contributors and the completion in a record, are the model's (log 7); the
taken-flag update judges two words and leaves the flag with either UNCORRECTABLE (log 27). -/
def Obligations.StorePerformsTheHeadOfTheList : Prop :=
  (∀ (s : State) (op : Op) (rest : List Op), s.power = .on → s.hpt.runState ≠ .storePrep → s.tst.ops = op :: rest →
    (∃ t more, exec op.command s = .next t
      ∧ t.tst.ops = rest ++ more
      ∧ (s.tst.scrubPending = 0 → t.tst.mem = (runOp s.tst.mem op).mem)
      -- the finds (R148, R149); the counts for an operation that makes one find or none
      ∧ (s.tst.scrubPending = 0 → ∀ finds : List Find, finds = (runOp s.tst.mem op).finds →
          (∀ addresses d, op ≠ .read addresses (.daysum d)) ∨ s.lnk.formWaiting = false →
          t.tst.latch = finds.foldl (fun l f => l.take f.address f.judge) s.tst.latch
          ∧ (finds = [] → s.hpt.events.length < 32 → t.hlm = s.hlm)
          ∧ (∀ f, finds = [f] → s.hpt.events.length < 29 →
              (f.judge = .corrected →
                t.hlm.attributes.storeErrors.raw
                    = (if f.repaired = true then min (s.hlm.attributes.storeErrors.raw + 1) 65535
                       else s.hlm.attributes.storeErrors.raw)
                  ∧ t.hlm.faultCount = s.hlm.faultCount)
              ∧ (f.judge = .uncorrectable → s.tst.latch = .uncorrectable f.address → t.hlm = s.hlm)
              ∧ (f.judge = .uncorrectable → s.tst.latch ≠ .uncorrectable f.address →
                s.record (.storeError f.address f.kind) ∈ t.hpt.events
                  ∧ t.hlm.attributes.storeErrors.raw = min (s.hlm.attributes.storeErrors.raw + 25) 65535
                  ∧ t.hlm.faultCount = min (s.hlm.faultCount + 1) 65535)))
      -- the end of a close copy (R168)
      ∧ (∀ c, op = .closeCopy c →
          t.day = { s.day with copiesPending := s.day.copiesPending - 1 }
          ∧ (s.tst.scrubPending = 0 → (runOp s.tst.mem op).finds = [] → s.hpt.events.length < 32 →
            t.hpt.events = s.hpt.events ++ [s.record (.dayClosed c.day c.late)]
            ∧ (s.lnk.state = .silent ∨ s.lnk.state = .off → t.lnk = s.lnk)
            ∧ (s.lnk.state = .live ∨ s.lnk.state = .joining → (∀ n figures, .daysum c.day n figures ∉ s.lnk.queue) →
                s.lnk.backlog = { replyDue := false, clerks := [], days := [] } → s.lnk.stationFrames < 4 →
              ∃ n, t.lnk = { s.lnk with queue := s.lnk.queue ++ [.daysum c.day n none] }
                ∧ (∀ slot, s.recordSlot c.day = some slot →
                    FreshRead n rest ∧ t.tst.ops = rest ++ [.read (figureAddresses slot) (.daysum n)]))))
      -- the read of a DAYSUM fills the frame that bears its number and no other (R172)
      ∧ (∀ (a0 a1 a2 a3 number : Nat) (w : Nat → Nat) (figures : DayFigures) (filled : List TxFrame),
          op = .read [a0, a1, a2, a3] (.daysum number) →
          w = (fun a => if (Memory.read s.tst.mem a).judge = .uncorrectable then 0 else (Memory.read s.tst.mem a).data) →
          figures = { itemAmount := w a0, itemCount := w a1, customers := w a2, voidAmount := w a3 } →
          filled = s.lnk.queue.map (fun f => match f with
            | .daysum day n none => .daysum day n (if n = number then some figures else none)
            | other => other) →
          s.tst.scrubPending = 0 →
          (s.lnk.formWaiting = false → t.lnk = { s.lnk with queue := filled })
          ∧ (∀ tail day slot n, s.lnk.formWaiting = true → s.lnk.attempt = none → s.lnk.state = .live ∨ s.lnk.state = .joining →
              s.lnk.queue = .daysum day n none :: tail → s.recordSlot day = some slot →
            (n = number → t.lnk = { s.lnk with
              queue := filled
              formWaiting := false
              drive := .sending
              attempt := some ⟨s.hpt.straps.station, .daysum ⟨saturated 16 day, saturated 32 (w a0), saturated 24 (w a1),
                saturated 16 (w a2), saturated 32 (w a3)⟩⟩ })
            ∧ (n ≠ number → t.lnk = { s.lnk with queue := filled })))
      -- a counter section completed (R173)
      ∧ (∀ slot day station figures, op = .counterUpdate slot day station figures → s.tst.scrubPending = 0 →
          (runOp s.tst.mem op).finds = [] → s.hpt.events.length < 32 →
          t.hpt.events = s.hpt.events
            ++ (if (runOp s.tst.mem op).complete = true then [s.record (.counterComplete day)] else []))
      ∧ t.wch = s.wch ∧ t.cap = s.cap ∧ t.tkt = s.tkt ∧ t.power = s.power)
    ∧ (∀ i, (∃ op' : Op, i = op'.command) → i ≠ op.command → exec i s = .next s))
  -- what operations find (R145, R149)
  ∧ (∀ (m : Memory) (op : Op), ∀ f ∈ (runOp m op).finds, f.judge ≠ .sound
      ∧ f.kind = (match op with
          | .read .. => .read
          | .closeCopy _ => .copy
          | .update _ | .itemPosting .. | .journalAppend .. | .takenFlag .. | .counterUpdate .. | .recordWrite _ => .update))
  ∧ (∀ (m : Memory) (addresses : List Nat) (purpose : ReadPurpose),
      ((runOp m (.read addresses purpose)).finds.map Find.address)
          = addresses.filter (fun a => decide ((Memory.read m a).judge ≠ .sound))
        ∧ ∀ f ∈ (runOp m (.read addresses purpose)).finds, f.judge = (Memory.read m f.address).judge ∧ f.repaired = false)
  -- the counter update on the words of a record (R173)
  ∧ (∀ (m : Memory) (slot day station : Nat) (figures : DayFigures) (r : Nat → JudgedWord) (e : OpEffect) (set : Nat),
      1 ≤ slot → slot ≤ 8 → station < 16 → r = (fun o => Memory.read m (104 + 96 * (slot - 1) + o)) →
      e = runOp m (.counterUpdate slot day station figures) → set = (r 88).data % 65536 →
      ((∃ o, 87 ≤ o ∧ o ≤ 92 ∧ (r o).judge = .uncorrectable) →
        e.complete = false ∧ ∀ o, 87 ≤ o → o ≤ 92 → Memory.read e.mem (104 + 96 * (slot - 1) + o) = r o)
      ∧ ((∀ o, 87 ≤ o → o ≤ 92 → (r o).judge ≠ .uncorrectable) →
        (set / 2 ^ station % 2 = 1 → e.complete = false ∧ e.mem = m)
        ∧ (set / 2 ^ station % 2 = 0 →
          (e.complete = true ↔ (r 88).data / 65536 % 2 = 0
              ∧ ∀ k < 16, (r 87).data / 2 ^ k % 2 = 1 → (set + 2 ^ station) / 2 ^ k % 2 = 1)
          ∧ (Memory.read e.mem (104 + 96 * (slot - 1) + 88)).data
              = set + 2 ^ station + (if e.complete = true ∨ (r 88).data / 65536 % 2 = 1 then 65536 else 0)
          ∧ (Memory.read e.mem (104 + 96 * (slot - 1) + 89)).data = min ((r 89).data + figures.itemAmount) 4294967295
          ∧ (Memory.read e.mem (104 + 96 * (slot - 1) + 90)).data = min ((r 90).data + figures.itemCount) 4294967295
          ∧ (Memory.read e.mem (104 + 96 * (slot - 1) + 91)).data = min ((r 91).data + figures.customers) 4294967295
          ∧ (Memory.read e.mem (104 + 96 * (slot - 1) + 92)).data = min ((r 92).data + figures.voidAmount) 4294967295
          ∧ ∀ a, (∀ o, 88 ≤ o → o ≤ 92 → a ≠ 104 + 96 * (slot - 1) + o) → Memory.read e.mem a = Memory.read m a)))
  -- an update of running buckets (R143, R145); the flag word stands at address 92
  ∧ (∀ (m e : Memory) (additions : List (Nat × Nat)), e = (runOp m (.update additions)).mem →
      (additions.map Prod.fst).Nodup → (∀ p ∈ additions, p.1 < 2048 ∧ p.1 ≠ 92) →
      (∀ p ∈ additions, (Memory.read m p.1).judge ≠ .uncorrectable →
        Memory.read e p.1 = { address := p.1, judge := .sound, data := min ((Memory.read m p.1).data + p.2) 4294967295 })
      ∧ (∀ p ∈ additions, (Memory.read m p.1).judge = .uncorrectable → Memory.read e p.1 = Memory.read m p.1)
      ∧ (∀ a, a ≠ 92 → (∀ p ∈ additions, p.1 ≠ a) → Memory.read e a = Memory.read m a)
      ∧ ((∀ p ∈ additions, (Memory.read m p.1).judge ≠ .uncorrectable) → Memory.read e 92 = Memory.read m 92)
      ∧ ((∃ p ∈ additions, (Memory.read m p.1).judge = .uncorrectable) → (Memory.read m 92).judge ≠ .uncorrectable →
        Memory.read e 92
          = { address := 92, judge := .sound,
              data := if (Memory.read m 92).data / 2 % 2 = 1 then (Memory.read m 92).data
                else (Memory.read m 92).data + 2 }))
  -- a journal append (R135, R136); the label count stands at address 90
  ∧ (∀ (m e : Memory) (slot : Nat) (w0 w1 w2 w3 label : Word), 1 ≤ slot → slot ≤ 128 →
      e = (runOp m (.journalAppend slot [w0, w1, w2, w3] label)).mem →
      (∀ k w, (k, w) ∈ [(0, w0), (1, w1), (2, w2), (3, w3)] → Memory.read e (872 + 4 * (slot - 1) + k)
          = { address := 872 + 4 * (slot - 1) + k, judge := .sound, data := w.toNat })
      ∧ Memory.read e 1 = { address := 1, judge := .sound, data := label.toNat }
      ∧ ((Memory.read m 90).judge ≠ .uncorrectable →
        Memory.read e 90 = { address := 90, judge := .sound, data := min ((Memory.read m 90).data + 1) 4294967295 }
          ∧ Memory.read e 92 = Memory.read m 92)
      ∧ ((Memory.read m 90).judge = .uncorrectable → Memory.read e 90 = Memory.read m 90)
      ∧ (∀ a, a ≠ 1 → a ≠ 90 → a ≠ 92 → (a < 872 + 4 * (slot - 1) ∨ 872 + 4 * slot ≤ a) →
        Memory.read e a = Memory.read m a))
  -- a taken-flag update (R137); the flag is bit 22 of an entry's first word
  ∧ (∀ (m e : Memory) (slot serial day : Nat) (r : Nat → JudgedWord), 1 ≤ slot → slot ≤ 128 →
      e = (runOp m (.takenFlag slot serial day)).mem → r = (fun k => Memory.read m (872 + 4 * (slot - 1) + k)) →
      ((r 0).judge ≠ .uncorrectable → (r 1).judge ≠ .uncorrectable → (r 0).data % 1048576 = serial →
        (r 1).data % 65536 = day →
        Memory.read e (872 + 4 * (slot - 1))
            = { address := 872 + 4 * (slot - 1), judge := .sound,
                data := if (r 0).data / 4194304 % 2 = 1 then (r 0).data else (r 0).data + 4194304 }
          ∧ ∀ a, a ≠ 872 + 4 * (slot - 1) → Memory.read e a = Memory.read m a)
      ∧ ((r 0).judge = .uncorrectable ∨ (r 1).judge = .uncorrectable ∨ (r 0).data % 1048576 ≠ serial
          ∨ (r 1).data % 65536 ≠ day → e = m))
  -- a record write (R145)
  ∧ (∀ (m e : Memory) (words : List (Nat × Word)), e = (runOp m (.recordWrite words)).mem → (words.map Prod.fst).Nodup →
      (∀ p ∈ words, p.1 < 2048 → Memory.read e p.1 = { address := p.1, judge := .sound, data := p.2.toNat })
      ∧ ∀ a, (∀ p ∈ words, p.1 ≠ a) → Memory.read e a = Memory.read m a)

/-- SCRUB_REQUEST in a quiet store: the word at the pointer is left when SOUND, repaired when CORRECTED, and left and reported
when UNCORRECTABLE. A busy store leaves steps pending, at most four; they run when the store is found quiet, when the fourth
falls due with nothing listed, at the end of an operation of any kind that leaves nothing listed, and, four of them, before
the next operation (that steps count as activity is deduced, log 8, and so is that an operation is under way while one is listed,
log 26). -/
def Obligations.ScrubStepsRepairSingleErrors : Prop :=
  (∀ s : State, s.power = .on → s.hpt.runState ≠ .storePrep → s.tst.ops = [] → s.tst.activity = false →
    s.tst.scrubPending = 0 → s.tst.scrubPointer < 2048 →
    ((Memory.read s.tst.mem s.tst.scrubPointer).judge = .sound →
      exec .scrubRequest s = .next { s with
        tst := { s.tst with scrubPointer := (s.tst.scrubPointer + 1) % 2048, activity := true } })
    ∧ ((Memory.read s.tst.mem s.tst.scrubPointer).judge = .corrected →
      ∃ t, exec .scrubRequest s = .next t
        ∧ t.tst.scrubPointer = (s.tst.scrubPointer + 1) % 2048 ∧ t.tst.scrubPending = 0
        ∧ (Memory.read t.tst.mem s.tst.scrubPointer).judge = .sound
        ∧ (Memory.read t.tst.mem s.tst.scrubPointer).data = (Memory.read s.tst.mem s.tst.scrubPointer).data
        ∧ (∀ a, a ≠ s.tst.scrubPointer → Memory.read t.tst.mem a = Memory.read s.tst.mem a)
        ∧ t.tst.latch = (match s.tst.latch with
            | .uncorrectable a => .uncorrectable a
            | .empty => .corrected s.tst.scrubPointer
            | .corrected _ => .corrected s.tst.scrubPointer)
        ∧ t.hlm.attributes.storeErrors.raw = min (s.hlm.attributes.storeErrors.raw + 1) 65535
        ∧ s.Moves t .storeErrors (s.hlm.attributes.storeErrors.raw + 1)
        ∧ t.wch = s.wch ∧ t.cap = s.cap ∧ t.lbl = s.lbl ∧ t.lnk = s.lnk ∧ t.tkt = s.tkt ∧ t.clt = s.clt
        ∧ t.day = s.day)
    ∧ ((Memory.read s.tst.mem s.tst.scrubPointer).judge = .uncorrectable →
      ∃ t, exec .scrubRequest s = .next t
        ∧ t.tst.scrubPointer = (s.tst.scrubPointer + 1) % 2048 ∧ t.tst.scrubPending = 0 ∧ t.tst.mem = s.tst.mem
        ∧ (s.tst.latch = .uncorrectable s.tst.scrubPointer →
            t.hpt = s.hpt ∧ t.hlm = s.hlm ∧ t.tst.latch = s.tst.latch ∧ t.tst.ops = [])
        ∧ (s.tst.latch ≠ .uncorrectable s.tst.scrubPointer → s.hpt.events.length < 31 →
            s.record (.storeError s.tst.scrubPointer .scrub) ∈ t.hpt.events
              ∧ t.hlm.attributes.storeErrors.raw = min (s.hlm.attributes.storeErrors.raw + 25) 65535
              ∧ t.hlm.faultCount = min (s.hlm.faultCount + 1) 65535
              ∧ t.tst.latch = (match s.tst.latch with
                  | .uncorrectable a => .uncorrectable a
                  | .empty => .uncorrectable s.tst.scrubPointer
                  | .corrected _ => .uncorrectable s.tst.scrubPointer))
        ∧ t.wch = s.wch ∧ t.cap = s.cap ∧ t.lbl = s.lbl ∧ t.lnk = s.lnk ∧ t.tkt = s.tkt ∧ t.clt = s.clt
        ∧ t.day = s.day))
  -- pending steps (R151)
  ∧ (∀ s : State, s.power = .on → s.hpt.runState ≠ .storePrep →
    (s.tst.scrubPending < 3 → s.tst.ops ≠ [] ∨ s.tst.activity = true →
      exec .scrubRequest s = .next { s with
        tst := { s.tst with scrubPending := s.tst.scrubPending + 1, activity := false } })
    ∧ (3 ≤ s.tst.scrubPending → s.tst.ops ≠ [] →
      exec .scrubRequest s = .next { s with tst := { s.tst with scrubPending := 4, activity := false } })
    ∧ (∀ n, n = min 4 (s.tst.scrubPending + 1) → s.tst.ops = [] → s.tst.activity = false ∨ 3 ≤ s.tst.scrubPending →
      s.tst.scrubPointer < 2048 →
      (∃ t, exec .scrubRequest s = .next t ∧ t.tst.scrubPending = 0 ∧ t.tst.activity = true
        ∧ t.tst.scrubPointer = (s.tst.scrubPointer + n) % 2048)
      ∧ ((∀ k < n, (Memory.read s.tst.mem ((s.tst.scrubPointer + k) % 2048)).judge = .sound) →
        exec .scrubRequest s = .next { s with
          tst := { s.tst with
            scrubPointer := (s.tst.scrubPointer + n) % 2048, scrubPending := 0, activity := true } })))
  -- at the end of an operation; `u` is what it leaves when no steps are pending
  ∧ (∀ (s : State) (op : Op) (rest : List Op), s.power = .on → s.hpt.runState ≠ .storePrep → s.tst.ops = op :: rest →
    s.tst.scrubPointer < 2048 →
    ∃ t u, exec op.command s = .next t ∧ exec op.command { s with tst.scrubPending := 0 } = .next u
      ∧ t.tst.activity = true
      ∧ (u.tst.ops ≠ [] → s.tst.scrubPending < 4 →
          t.tst.scrubPending = s.tst.scrubPending ∧ t.tst.scrubPointer = s.tst.scrubPointer)
      ∧ (u.tst.ops = [] ∨ 4 ≤ s.tst.scrubPending →
          t.tst.scrubPending = 0 ∧ t.tst.scrubPointer = (s.tst.scrubPointer + s.tst.scrubPending) % 2048)
      ∧ (u.tst.ops ≠ [] ∧ s.tst.scrubPending < 4
          ∨ (∀ k < s.tst.scrubPending, (Memory.read u.tst.mem ((s.tst.scrubPointer + k) % 2048)).judge = .sound) →
          t.tst.mem = u.tst.mem ∧ t.tst.ops = u.tst.ops ∧ t.tst.latch = u.tst.latch ∧ t.hlm = u.hlm
            ∧ t.hpt.events = u.hpt.events)
      ∧ (rest ≠ [] → u.tst.ops ≠ [])
      -- the operations, of every kind, that leave nothing listed
      ∧ (rest = [] → (runOp s.tst.mem op).finds = [] → s.hpt.events.length < 32 →
          (∀ c, op = .closeCopy c → s.lnk.state = .silent ∨ s.lnk.state = .off) →
          (∀ addresses d, op = .read addresses (.daysum d) → s.lnk.formWaiting = false) → u.tst.ops = []))

/-- VRET_DISTURBANCE: a word with one wrong bit reads CORRECTED with the data as last written, one with two wrong bits
UNCORRECTABLE with the data as found; every other word reads as before. -/
def Obligations.WrongBitsAreJudged : Prop :=
  ∀ (a : BitVec 11) (j k : Fin 39) (s : State), (Memory.word s.tst.mem a.toNat).flips = 0 →
    (∃ m, exec (.vretDisturbance a (BitVec.twoPow 39 j)) s = .next { s with tst.mem := m }
      ∧ Memory.read m a.toNat
          = { address := a.toNat, judge := .corrected, data := (Memory.word s.tst.mem a.toNat).written.toNat }
      ∧ ∀ b, b ≠ a.toNat → Memory.read m b = Memory.read s.tst.mem b)
    ∧ (j ≠ k → ∃ m, exec (.vretDisturbance a (BitVec.twoPow 39 j ^^^ BitVec.twoPow 39 k)) s
          = .next { s with tst.mem := m }
      ∧ Memory.read m a.toNat
          = { address := a.toNat, judge := .uncorrectable,
              data := ((Memory.word s.tst.mem a.toNat).written
                ^^^ (BitVec.twoPow 39 j ^^^ BitVec.twoPow 39 k).extractLsb' 0 32).toNat }
      ∧ ∀ b, b ≠ a.toNat → Memory.read m b = Memory.read s.tst.mem b)

/-- The item posting word by word (R145, R146, Table 8-6): each word it can read takes its addition and reads SOUND, an
UNCORRECTABLE one stays, the amount limit keeps both amounts and sets its flag, an uncorrectable word met sets uncorrectable
seen, and each word judged not SOUND is found once. It keeps the station item amount the sum of the eight department amounts;
and every step leaves the amounts in step, or one of them marked, in every state that has them so. A disturbance of the
retention supply is left out: of three or more wrong bits a read may judge anything (R141, log 1). The places of the flags
are the model's (log 7), and at the amount limit that the department amount is not judged and a CORRECTED station item amount
not repaired (log 44). -/
def Obligations.ItemPostingKeepsTheAmountsInStep : Prop :=
  (∀ (m : Memory) (dept price : Nat) (weight : Option Nat) (e : OpEffect) (limit bad : Bool) (amounts others : List (Nat × Nat)),
    1 ≤ dept → dept ≤ 8 → e = runOp m (.itemPosting dept price weight) →
    (limit = true ↔ (Memory.read m 80).judge ≠ .uncorrectable ∧ 4294967295 < (Memory.read m 80).data + price) →
    amounts = (if limit then [] else [(8 + 3 * (dept - 1), price), (80, price)]) →
    others = [(9 + 3 * (dept - 1), 1), (81, 1)] ++ (match weight with | none => [] | some g => [(10 + 3 * (dept - 1), g)]) →
    (bad = true ↔ ∃ p ∈ amounts ++ others, (Memory.read m p.1).judge = .uncorrectable) →
    (∀ p ∈ amounts ++ others,
        ((Memory.read m p.1).judge ≠ .uncorrectable → Memory.read e.mem p.1
          = { address := p.1, judge := .sound, data := min ((Memory.read m p.1).data + p.2) 4294967295 })
        ∧ ((Memory.read m p.1).judge = .uncorrectable → Memory.read e.mem p.1 = Memory.read m p.1))
      ∧ (∀ a, a ≠ 92 → (∀ p ∈ amounts ++ others, p.1 ≠ a) → Memory.read e.mem a = Memory.read m a)
      -- the flag word: uncorrectable seen is 2, amount limit 4
      ∧ ((limit = false ∧ bad = false) ∨ (Memory.read m 92).judge = .uncorrectable →
          Memory.read e.mem 92 = Memory.read m 92)
      ∧ (limit = true ∨ bad = true → (Memory.read m 92).judge ≠ .uncorrectable → ∀ d, d = (Memory.read m 92).data →
          Memory.read e.mem 92
            = { address := 92, judge := .sound,
                data := d + (if bad = true ∧ d / 2 % 2 = 0 then 2 else 0) + (if limit = true ∧ d / 4 % 2 = 0 then 4 else 0) })
      -- the finds, the station item amount first
      ∧ (∀ read : List Nat,
          read = 80 :: ((if limit then [] else [8 + 3 * (dept - 1)]) ++ [9 + 3 * (dept - 1)]
            ++ (if weight.isSome then [10 + 3 * (dept - 1)] else []) ++ [81] ++ (if limit || bad then [92] else [])) →
          e.finds.map (fun f => (f.address, f.judge, f.kind))
            = (read.filter (fun a => decide ((Memory.read m a).judge ≠ .sound))).map
                (fun a => (a, (Memory.read m a).judge, FindKind.update)))
      ∧ (∀ f ∈ e.finds, f.judge = .corrected → (f.repaired = true ↔ limit = false ∨ f.address ≠ 80)))
  ∧ (∀ (m : Memory) (dept price : Nat) (weight : Option Nat), 1 ≤ dept → dept ≤ 8 →
    (∀ o < 85, (Memory.read m (8 + o)).judge = .sound) →
    (Memory.read m 80).data = ((List.range 8).map fun d => (Memory.read m (8 + 3 * d)).data).sum →
    (∀ o < 85, (Memory.read (runOp m (.itemPosting dept price weight)).mem (8 + o)).judge = .sound)
      ∧ (Memory.read (runOp m (.itemPosting dept price weight)).mem 80).data
          = ((List.range 8).map fun d =>
              (Memory.read (runOp m (.itemPosting dept price weight)).mem (8 + 3 * d)).data).sum
      ∧ (Memory.read (runOp m (.itemPosting dept price weight)).mem 80).data
          = (if (Memory.read m 80).data + price ≤ 4294967295 then (Memory.read m 80).data + price
             else (Memory.read m 80).data))
  ∧ (∀ s t : State, s.AmountsInStep → (∀ a flips, s.pending.head? ≠ some (.vretDisturbance a flips)) →
      step s = .next t → t.AmountsInStep)

/-- The close copy carries the running region into the record slot and leaves it zero: each word it can read with its data,
an UNCORRECTABLE word as found; the flag word with the running flags, the late and forced flags and uncorrectable seen; the
day header with the snapshot, and an empty counter section. Each word not SOUND of offsets 0..84 is found once, with kind
COPY. The places of the flags are the model's (log 7). -/
def Obligations.CloseCopyCarriesTheDay : Prop :=
  ∀ (m : Memory) (c : CopyOrder) (e : OpEffect) (first : Nat), 1 ≤ c.slot → c.slot ≤ 8 → e = runOp m (.closeCopy c) →
    first = 104 + 96 * (c.slot - 1) →
    (∀ o, o < 96 → Memory.read e.mem (8 + o) = { address := 8 + o, judge := .sound, data := 0 })
      ∧ (∀ o, o < 84 → (Memory.read m (8 + o)).judge ≠ .uncorrectable →
          Memory.read e.mem (first + o)
            = { address := first + o, judge := .sound, data := (Memory.read m (8 + o)).data })
      ∧ (∀ o, o < 84 → (Memory.read m (8 + o)).judge = .uncorrectable →
          Memory.read e.mem (first + o)
            = { address := first + o, judge := .uncorrectable, data := (Memory.read m (8 + o)).data })
      ∧ (∀ control seen : Nat,
          control = (if (Memory.read m 92).judge = .uncorrectable then 0 else (Memory.read m 92).data) →
          seen = (if control / 2 % 2 = 1
              ∨ ∃ o ∈ List.range 85, (Memory.read m (8 + o)).judge = .uncorrectable then 1 else 0) →
          Memory.read e.mem (first + 84)
            = { address := first + 84, judge := .sound
                data := control % 2 + 2 * seen + 4 * (control / 4 % 2) + (if c.late then 8 else 0)
                  + (if c.forced then 16 else 0) })
      ∧ Memory.read e.mem (first + 85) = { address := first + 85, judge := .sound, data := c.day % 2 ^ 32 }
      ∧ Memory.read e.mem (first + 86) = { address := first + 86, judge := .sound, data := c.time % 2 ^ 32 }
      ∧ Memory.read e.mem (first + 87) = { address := first + 87, judge := .sound, data := c.snapshot.toNat }
      ∧ (∀ o, 88 ≤ o → o < 96 → Memory.read e.mem (first + o) = { address := first + o, judge := .sound, data := 0 })
      ∧ Memory.read e.mem 2 = { address := 2, judge := .sound, data := c.slot }
      ∧ e.finds.map (fun f => (f.address, f.judge, f.kind))
          = ((List.range 85).filter fun o => decide ((Memory.read m (8 + o)).judge ≠ .sound)).map
              (fun o => (8 + o, (Memory.read m (8 + o)).judge, FindKind.copy))
      ∧ (∀ f ∈ e.finds, f.judge = .corrected → f.repaired = true)
      ∧ (∀ a, a ≠ 2 → (a < 8 ∨ (104 ≤ a ∧ (a < first ∨ first + 96 ≤ a))) → Memory.read e.mem a = Memory.read m a)
end

