-- ==== Sys2Proof/Laws/Table.lean ====
section
/-! SUPPORT. The laws of sorted tables: reading after a put or a delete, and the order that both keep. -/

namespace Sys2Proof.Machine

variable {α : Type}

/-- In a sorted table every later key is above the first. -/
theorem Table.sorted_head_lt {k : Nat} {v : α} {t : Table α} (h : Table.sorted ((k, v) :: t) = true) :
    ∀ e ∈ t, k < e.1 := by
  induction t generalizing k v with
  | nil => intro e he; cases he
  | cons a rest ih =>
    obtain ⟨k', v'⟩ := a
    simp only [Table.sorted, Bool.and_eq_true, decide_eq_true_eq] at h
    intro e he
    rcases List.mem_cons.mp he with rfl | he'
    · exact h.1
    · exact lt_trans h.1 (ih (v := v') (by simpa [Table.sorted] using h.2) e he')

/-- The rest of a sorted table is sorted. -/
theorem Table.sorted_tail {e : Nat × α} {t : Table α} (h : Table.sorted (e :: t) = true) : Table.sorted t = true := by
  obtain ⟨k, v⟩ := e
  simp only [Table.sorted, Bool.and_eq_true] at h
  exact h.2

/-- A key below every key of a sorted table may stand in front of it. -/
theorem Table.sorted_cons {k : Nat} {v : α} {t : Table α} (ht : Table.sorted t = true) (hk : ∀ e ∈ t, k < e.1) :
    Table.sorted ((k, v) :: t) = true := by
  cases t with
  | nil => simp [Table.sorted]
  | cons a rest =>
    simp only [Table.sorted, Bool.and_eq_true, decide_eq_true_eq]
    exact ⟨hk a (List.mem_cons_self ..), by simpa [Table.sorted] using ht⟩

/-- The entries of a put are the new one or old ones. -/
theorem Table.mem_put {t : Table α} {k : Nat} {v : α} {e : Nat × α} (h : e ∈ Table.put t k v) : e = (k, v) ∨ e ∈ t := by
  induction t with
  | nil => simpa [Table.put] using h
  | cons a rest ih =>
    obtain ⟨k', v'⟩ := a
    simp only [Table.put] at h
    split at h
    · simpa using h
    · split at h
      · rcases List.mem_cons.mp h with h | h
        · exact .inl h
        · exact .inr (List.mem_cons_of_mem _ h)
      · rcases List.mem_cons.mp h with h | h
        · exact .inr (h ▸ List.mem_cons_self ..)
        · exact (ih h).imp id (List.mem_cons_of_mem _)

/-- The entries left by a delete were there, under another key. -/
theorem Table.mem_del {t : Table α} {k : Nat} {e : Nat × α} (h : e ∈ Table.del t k) : e ∈ t ∧ e.1 ≠ k := by
  induction t with
  | nil => simp [Table.del] at h
  | cons a rest ih =>
    obtain ⟨k', v'⟩ := a
    simp only [Table.del] at h
    split at h
    · exact ⟨List.mem_cons_of_mem _ (ih h).1, (ih h).2⟩
    · rcases List.mem_cons.mp h with h | h
      · subst h; exact ⟨List.mem_cons_self .., by assumption⟩
      · exact ⟨List.mem_cons_of_mem _ (ih h).1, (ih h).2⟩

/-- A put keeps the order of keys. -/
theorem Table.sorted_put {t : Table α} (h : Table.sorted t = true) (k : Nat) (v : α) :
    Table.sorted (Table.put t k v) = true := by
  induction t with
  | nil => simp [Table.put, Table.sorted]
  | cons a rest ih =>
    obtain ⟨k', v'⟩ := a
    have hlt := Table.sorted_head_lt h
    have htail := Table.sorted_tail h
    simp only [Table.put]
    split
    · refine Table.sorted_cons h fun e he => ?_
      rcases List.mem_cons.mp he with rfl | he'
      · assumption
      · exact lt_trans ‹_› (hlt e he')
    · split
      · rename_i hk
        exact Table.sorted_cons htail fun e he => hk ▸ hlt e he
      · refine Table.sorted_cons (ih htail) fun e he => ?_
        rcases Table.mem_put he with rfl | he'
        · show k' < k
          omega
        · exact hlt e he'

/-- A delete keeps the order of keys. -/
theorem Table.sorted_del {t : Table α} (h : Table.sorted t = true) (k : Nat) : Table.sorted (Table.del t k) = true := by
  induction t with
  | nil => simp [Table.del, Table.sorted]
  | cons a rest ih =>
    obtain ⟨k', v'⟩ := a
    have htail := Table.sorted_tail h
    simp only [Table.del]
    split
    · exact ih htail
    · exact Table.sorted_cons (ih htail) fun e he => Table.sorted_head_lt h e (Table.mem_del he).1

/-- A change of every value keeps the order of keys. -/
theorem Table.sorted_mapValues {t : Table α} (h : Table.sorted t = true) (f : α → α) :
    Table.sorted (Table.mapValues t f) = true := by
  induction t with
  | nil => simp [Table.mapValues, Table.sorted]
  | cons a rest ih =>
    obtain ⟨k, v⟩ := a
    refine Table.sorted_cons (v := f v) (ih (Table.sorted_tail h)) fun e he => ?_
    obtain ⟨x, hx, rfl⟩ := List.mem_map.mp he
    exact Table.sorted_head_lt h x hx

/-- Reading the key just put. -/
@[simp] theorem Table.get_put_same (t : Table α) (k : Nat) (v : α) : Table.get (Table.put t k v) k = some v := by
  induction t with
  | nil => simp [Table.put, Table.get]
  | cons a rest ih =>
    obtain ⟨k', v'⟩ := a
    simp only [Table.put]
    split
    · simp [Table.get]
    · split
      · simp [Table.get]
      · simp only [Table.get, ih]
        rw [if_neg (by omega)]

/-- Reading another key after a put. -/
theorem Table.get_put_other {t : Table α} {k j : Nat} (h : j ≠ k) (v : α) :
    Table.get (Table.put t k v) j = Table.get t j := by
  induction t with
  | nil => simp [Table.put, Table.get, h.symm]
  | cons a rest ih =>
    obtain ⟨k', v'⟩ := a
    simp only [Table.put]
    split
    · simp [Table.get, h.symm]
    · split
      · rename_i hk
        subst hk
        simp [Table.get, h.symm]
      · simp only [Table.get, ih]

/-- Reading the key just deleted. -/
@[simp] theorem Table.get_del_same (t : Table α) (k : Nat) : Table.get (Table.del t k) k = none := by
  induction t with
  | nil => simp [Table.del, Table.get]
  | cons a rest ih =>
    obtain ⟨k', v'⟩ := a
    simp only [Table.del]
    split
    · exact ih
    · simp only [Table.get, ih, if_neg ‹_›]

/-- Reading another key after a delete. -/
theorem Table.get_del_other {t : Table α} {k j : Nat} (h : j ≠ k) : Table.get (Table.del t k) j = Table.get t j := by
  induction t with
  | nil => simp [Table.del, Table.get]
  | cons a rest ih =>
    obtain ⟨k', v'⟩ := a
    simp only [Table.del]
    split
    · rename_i hk
      subst hk
      rw [ih]
      simp [Table.get, h.symm]
    · simp only [Table.get, ih]

/-- An entry that is read stands in the table. -/
theorem Table.mem_of_get {t : Table α} {k : Nat} {v : α} (h : Table.get t k = some v) : (k, v) ∈ t := by
  induction t with
  | nil => simp [Table.get] at h
  | cons a rest ih =>
    obtain ⟨k', v'⟩ := a
    simp only [Table.get] at h
    split at h
    · cases h; subst_vars; exact List.mem_cons_self ..
    · exact List.mem_cons_of_mem _ (ih h)

end Sys2Proof.Machine
end

