-- ==== Sys2Proof/Laws/Memory.lean ====
section
/-! SUPPORT. The laws of the store's words: a word reads back as it was set, no other word moves, and every operation on
the words keeps their canonical form. -/

namespace Sys2Proof.Machine

/-- The canonical form, in parts. -/
theorem Memory.wf_iff (m : Memory) :
    Memory.wf m = true ↔ Table.sorted m = true ∧ ∀ e ∈ m, e.1 < 2048 ∧ e.2 ≠ blankWord := by
  simp [Memory.wf]

/-- Setting a word keeps the canonical form. -/
theorem Memory.wf_set {m : Memory} (h : Memory.wf m = true) (a : Nat) (w : StoreWord) :
    Memory.wf (Memory.set m a w) = true := by
  rw [Memory.wf_iff] at h
  unfold Memory.set
  split
  · exact (Memory.wf_iff m).mpr h
  · split
    · exact (Memory.wf_iff _).mpr ⟨Table.sorted_del h.1 a, fun e he => h.2 e (Table.mem_del he).1⟩
    · refine (Memory.wf_iff _).mpr ⟨Table.sorted_put h.1 a w, fun e he => ?_⟩
      rcases Table.mem_put he with rfl | he'
      · exact ⟨by show a < 2048; omega, by assumption⟩
      · exact h.2 e he'

/-- A write keeps the canonical form. -/
theorem Memory.wf_write {m : Memory} (h : Memory.wf m = true) (a data : Nat) : Memory.wf (Memory.write m a data) = true :=
  Memory.wf_set h a _

/-- The word just set. -/
theorem Memory.word_set_same (m : Memory) {a : Nat} (ha : a < 2048) (w : StoreWord) :
    Memory.word (Memory.set m a w) a = w := by
  unfold Memory.set Memory.word
  rw [if_neg (by omega)]
  split
  · simp_all
  · simp

/-- Every other word is left as it was. -/
theorem Memory.word_set_other (m : Memory) {a b : Nat} (h : b ≠ a) (w : StoreWord) :
    Memory.word (Memory.set m a w) b = Memory.word m b := by
  unfold Memory.set Memory.word
  split
  · rfl
  · split
    · rw [Table.get_del_other h]
    · rw [Table.get_put_other h]

/-- A word without a wrong bit is judged SOUND (R141). -/
theorem StoreWord.judge_sound {w : StoreWord} (h : w.wrongBits = 0) : w.judge = .sound := by
  unfold StoreWord.judge
  rw [h]
  rfl

/-- A word with one wrong bit is judged CORRECTED (R141). -/
theorem StoreWord.judge_corrected {w : StoreWord} (h : w.wrongBits = 1) : w.judge = .corrected := by
  unfold StoreWord.judge
  rw [h]
  rfl

/-- A word with two wrong bits is judged UNCORRECTABLE (R141). -/
theorem StoreWord.judge_uncorrectable {w : StoreWord} (h : w.wrongBits = 2) : w.judge = .uncorrectable := by
  unfold StoreWord.judge
  rw [h]
  rfl

/-- The data of a word without a wrong bit (R141). -/
theorem StoreWord.data_sound {w : StoreWord} (h : w.wrongBits = 0) : w.data = w.found.toNat := by
  unfold StoreWord.data
  rw [StoreWord.judge_sound h]

/-- A word just written reads SOUND with the data written. -/
theorem Memory.read_write_same (m : Memory) {a : Nat} (ha : a < 2048) (data : Nat) :
    Memory.read (Memory.write m a data) a = { address := a, judge := .sound, data := data % 2 ^ 32 } := by
  have hw : Memory.word (Memory.write m a data) a = { written := BitVec.ofNat 32 data, flips := 0 } :=
    Memory.word_set_same m ha _
  have h0 : StoreWord.wrongBits { written := BitVec.ofNat 32 data, flips := 0 } = 0 := by
    simp [StoreWord.wrongBits]
  have hj := StoreWord.judge_sound h0
  have hd := StoreWord.data_sound h0
  unfold Memory.read
  rw [hw, hj, hd]
  simp [StoreWord.found]

/-- A write leaves the reading of every other word as it was. -/
theorem Memory.read_write_other (m : Memory) {a b : Nat} (h : b ≠ a) (data : Nat) :
    Memory.read (Memory.write m a data) b = Memory.read m b := by
  simp [Memory.read, Memory.write, Memory.word_set_other m h]

/-- A fold of steps that each keep the canonical form keeps it. -/
theorem Memory.wf_foldl {β : Type} (f : Memory → β → Memory)
    (hf : ∀ m b, Memory.wf m = true → Memory.wf (f m b) = true) (l : List β) (m : Memory) (h : Memory.wf m = true) :
    Memory.wf (l.foldl f m) = true := by
  induction l generalizing m with
  | nil => exact h
  | cons b rest ih => exact ih _ (hf m b h)

/-- Words written whole keep the canonical form. -/
theorem wf_writeWords {m : Memory} (h : Memory.wf m = true) (words : List (Nat × Word)) :
    Memory.wf (writeWords m words) = true :=
  Memory.wf_foldl _ (fun _ _ hm => Memory.wf_write hm _ _) words m h

/-- Words written zero keep the canonical form. -/
theorem wf_zeroWords {m : Memory} (h : Memory.wf m = true) (first count : Nat) :
    Memory.wf (zeroWords m first count) = true :=
  Memory.wf_foldl _ (fun _ _ hm => Memory.wf_write hm _ _) _ m h

/-- A find noted leaves the words. -/
@[simp] theorem Work.note_mem (w : Work) (a : Nat) (j : Judgement) (k : FindKind) (r : Bool) : (w.note a j k r).mem = w.mem := by
  cases j <;> rfl

/-- A fold of notes leaves the words. -/
theorem Work.foldl_mem {β : Type} (f : Work → β → Work) (hf : ∀ w b, (f w b).mem = w.mem) (l : List β) (w : Work) :
    (l.foldl f w).mem = w.mem := by
  induction l generalizing w with
  | nil => rfl
  | cons b rest ih => exact (ih _).trans (hf w b)

/-- One word of an update keeps the canonical form. -/
theorem Work.wf_change {w : Work} (h : Memory.wf w.mem = true) (a : Nat) (f : Nat → Nat) :
    Memory.wf (w.change a f).mem = true := by
  unfold Work.change
  simp only
  split
  · simpa using h
  · exact Memory.wf_write h _ _

/-- A fold of update words keeps the canonical form. -/
theorem Work.wf_foldl {β : Type} (f : Work → β → Work)
    (hf : ∀ w b, Memory.wf w.mem = true → Memory.wf (f w b).mem = true) (l : List β) (w : Work)
    (h : Memory.wf w.mem = true) : Memory.wf (l.foldl f w).mem = true := by
  induction l generalizing w with
  | nil => exact h
  | cons b rest ih => exact ih _ (hf w b h)

/-- The last step of an update keeps the canonical form. -/
theorem Work.wf_flagged {w : Work} (h : Memory.wf w.mem = true) (a flags : Nat) :
    Memory.wf (w.flagged a flags).mem = true := by
  unfold Work.flagged
  extract_lets all
  split
  · exact h
  · exact Work.wf_change h _ _

/-- An update posting keeps the canonical form. -/
theorem wf_runUpdate {m : Memory} (h : Memory.wf m = true) (additions : List (Nat × Nat)) :
    Memory.wf (runUpdate m additions).mem = true :=
  Work.wf_flagged (Work.wf_foldl _ (fun _ _ hw => Work.wf_change hw _ _) additions _ h) _ _

/-- An item posting keeps the canonical form. -/
theorem wf_runItemPosting {m : Memory} (h : Memory.wf m = true) (dept price : Nat) (weight : Option Nat) :
    Memory.wf (runItemPosting m dept price weight).mem = true := by
  unfold runItemPosting
  extract_lets total first limit w0 w1 w2 w3 w4 w5
  have h0 : Memory.wf w0.mem = true := by
    simp only [w0, Work.note_mem]
    exact h
  have h1 : Memory.wf w1.mem = true := by
    simp only [w1]
    split
    · exact h0
    · exact Work.wf_change h0 _ _
  have h2 : Memory.wf w2.mem = true := Work.wf_change h1 _ _
  have h3 : Memory.wf w3.mem = true := by
    simp only [w3]
    split
    · exact h2
    · exact Work.wf_change h2 _ _
  have h4 : Memory.wf w4.mem = true := by
    simp only [w4]
    split
    · exact h3
    · exact Memory.wf_write (m := w3.mem) h3 total (satAdd first.data price)
  exact Work.wf_flagged (Work.wf_change h4 _ _) _ _

/-- A journal append keeps the canonical form. -/
theorem wf_runJournalAppend {m : Memory} (h : Memory.wf m = true) (slot : Nat) (entry : List Word) (label : Word) :
    Memory.wf (runJournalAppend m slot entry label).mem = true :=
  Work.wf_flagged (Work.wf_change (wf_writeWords h _) _ _) _ _

/-- A taken-flag update keeps the canonical form. -/
theorem wf_runTakenFlag {m : Memory} (h : Memory.wf m = true) (slot serial day : Nat) :
    Memory.wf (runTakenFlag m slot serial day).mem = true := by
  unfold runTakenFlag
  simp only
  split
  · exact Memory.wf_write h _ _
  · simpa [Work.begin] using h

/-- A counter update keeps the canonical form. -/
theorem wf_runCounterUpdate {m : Memory} (h : Memory.wf m = true) (slot station : Nat) (f : DayFigures) :
    Memory.wf (runCounterUpdate m slot station f).1.mem = true := by
  unfold runCounterUpdate
  simp only
  split
  · refine Work.wf_flagged ?_ _ _
    rw [Work.foldl_mem _ (fun w j => Work.note_mem ..)]
    exact h
  · split
    · rw [Work.foldl_mem _ (fun w j => Work.note_mem ..)]
      exact h
    · exact wf_writeWords h _

/-- One word of the close copy keeps the canonical form. -/
theorem Work.wf_copyWord {w : Work} (h : Memory.wf w.mem = true) (slot offset : Nat) :
    Memory.wf (w.copyWord slot offset).mem = true := by
  unfold Work.copyWord
  simp only
  split
  · exact Memory.wf_set h _ _
  · exact Memory.wf_write h _ _

/-- A close copy keeps the canonical form. -/
theorem wf_runCloseCopy {m : Memory} (h : Memory.wf m = true) (c : CopyOrder) :
    Memory.wf (runCloseCopy m c).mem = true := by
  unfold runCloseCopy
  extract_lets control w carried carried' flags m2 m3 m4 m5
  have h1 : Memory.wf w.mem = true := Work.wf_foldl _ (fun _ _ hw => Work.wf_copyWord hw _ _) _ _ h
  have h2 : Memory.wf m2 = true := Memory.wf_write h1 _ _
  have h3 : Memory.wf m3 = true := wf_writeWords h2 _
  have h4 : Memory.wf m4 = true := wf_zeroWords h3 _ _
  have h5 : Memory.wf m5 = true := Memory.wf_write h4 _ _
  have h6 : Memory.wf (zeroWords m5 (addrRunning 0) 96) = true := wf_zeroWords h5 _ _
  dsimp only
  exact h6

/-- The words after a close copy. -/
theorem runOp_closeCopy (m : Memory) (c : CopyOrder) : (runOp m (.closeCopy c)).mem = (runCloseCopy m c).mem := by
  simp only [runOp, OpEffect.ofWork]

/-- Every operation keeps the canonical form. -/
theorem wf_runOp {m : Memory} (h : Memory.wf m = true) (op : Op) : Memory.wf (runOp m op).mem = true := by
  cases op with
  | read addresses purpose => exact h
  | update additions => exact wf_runUpdate h additions
  | itemPosting dept price weight => exact wf_runItemPosting h dept price weight
  | journalAppend slot entry label => exact wf_runJournalAppend h slot entry label
  | takenFlag slot serial day => exact wf_runTakenFlag h slot serial day
  | counterUpdate slot day station figures => exact wf_runCounterUpdate h slot station figures
  | recordWrite words => exact wf_writeWords h words
  | closeCopy order => rw [runOp_closeCopy]; exact wf_runCloseCopy h order

/-- The listed operations performed at a loss of power keep the canonical form. -/
theorem wf_drainOps {m : Memory} (h : Memory.wf m = true) (ops : List Op) : Memory.wf (drainOps m ops) = true :=
  Memory.wf_foldl _ (fun _ op hm => wf_runOp hm op) ops m h

/-- One word of a walk keeps the canonical form. -/
theorem wf_walkWord {s : State} (h : Memory.wf s.tst.mem = true) : Memory.wf (walkWord s).tst.mem = true := by
  unfold walkWord
  split
  · exact h
  · split
    · exact h
    · split
      · simp only [verifyWord]
        split
        · exact h
        · exact Memory.wf_write h _ _
        · exact h
      · exact Memory.wf_write h _ _

/-- The words of a walk keep the canonical form. -/
theorem wf_walkWords (fuel : Nat) {s : State} (h : Memory.wf s.tst.mem = true) :
    Memory.wf (walkWords fuel s).tst.mem = true := by
  induction fuel generalizing s with
  | zero => exact h
  | succ n ih => exact ih (wf_walkWord h)

/-- The state after reset has its words in canonical form. -/
theorem State.reset_wf : Memory.wf State.reset.tst.mem = true := by decide

end Sys2Proof.Machine
end

