-- ==== Sys2Proof/Laws/Ops.lean ====
section
/-! SUPPORT. What the shared operations can do, once for each: serving a request, queuing an event, moving an attribute,
raising a mismatch, performing the head of the operation list, accepting a frame, a timer that has run, placing a label
record, the withdrawal at a close start, applying a deferred frame, what they hand to the store, the window's stability, and
the start of store preparation, one word of a walk, and an attribute at a close start. -/

namespace Sys2Proof.Machine

/-! ### Serving a request -/

/-- A request whose block is PENDING is taken by its owner. -/
theorem serve_asked {i : Instr} {owner : State → State} {s : State} (h : s.asked i) :
    serve i owner s = .next (owner s) := by
  obtain ⟨b, hb, hs⟩ := h
  simp [serve, hb, hs]

/-- A request whose block is not PENDING is the selection that carries its block, then the owner's taking if that
selection leaves the block PENDING. -/
theorem serve_selected {i : Instr} {b : RequestBlock} {owner : State → State} {s : State} (hb : requestBlock i = some b)
    (hs : s.hpt.slot ≠ .taken b) :
    serve i owner s = .next (if (selection (blockBytes b) s).hpt.slot = .taken b then owner (selection (blockBytes b) s)
      else selection (blockBytes b) s) := by
  simp [serve, hb, hs]

/-- Without main power, and for no bytes, a selection does nothing. -/
theorem selection_none {mosi : List Byte} {s : State} (h : s.power ≠ .on ∨ mosi = []) : selection mosi s = s := by
  simp [selection, h]

/-- A refusal writes the slot alone. -/
theorem refuse_eq (r : ResultCode) (s : State) :
    refuse r s = { s with hpt.slot := .ready { result := r, data := [] } } := rfl

/-- An answer writes the slot alone. -/
theorem answer_eq (r : ResultCode) (data : List Field) (s : State) :
    answer r data s = { s with hpt.slot := .ready { result := r, data := data } } := rfl

/-- A frame-placing request: the first refusal that holds, then the refusal of the offer, then the frame. -/
theorem requestFrame_cases (refusals : List (Bool × ResultCode)) (claim : State → State) (frame : Nat → TxFrame)
    (s : State) :
    (∃ r ∈ refusals, r.1 = true ∧ requestFrame refusals claim frame s = refuse r.2 s)
      ∨ (∃ code, s.offerRefusal = some code ∧ requestFrame refusals claim frame s = refuse code s)
      ∨ (s.offerRefusal = none ∧ (∀ r ∈ refusals, r.1 = false)
          ∧ requestFrame refusals claim frame s = placeFrame frame (claim s)) := by
  unfold requestFrame
  cases hf : refusals.find? Prod.fst with
  | some r => exact .inl ⟨r, List.mem_of_find?_eq_some hf, by simpa using List.find?_some hf, rfl⟩
  | none =>
    cases ho : s.offerRefusal with
    | some code => exact .inr (.inl ⟨code, rfl, rfl⟩)
    | none => exact .inr (.inr ⟨rfl, by simpa using hf, rfl⟩)

/-- A request that places a frame is refused with the code of the first condition of its table that holds. -/
theorem requestFrame_refused {refusals : List (Bool × ResultCode)} {r : Bool × ResultCode}
    (h : refusals.find? Prod.fst = some r) (claim : State → State) (frame : Nat → TxFrame) (s : State) :
    requestFrame refusals claim frame s = refuse r.2 s := by
  simp [requestFrame, h]

/-! ### Events and attributes -/

/-- With room the event joins the tail and nothing else changes (R189). -/
theorem queueEvent_room {s : State} (h : s.hpt.events.length < 32) (e : Event) :
    queueEvent e s = { s with hpt.events := s.hpt.events ++ [{ event := e, time := s.hpt.timeOfDay }] } := by
  simp [queueEvent, h]

/-- Without room the event is dropped and counted, and EVENT_OVERFLOW recorded (R189). -/
theorem queueEvent_full {s : State} (h : 32 ≤ s.hpt.events.length) (e : Event) :
    queueEvent e s = recordFault .eventOverflow { s with hpt.overflow := min (s.hpt.overflow + 1) 255 } := by
  simp [queueEvent, Nat.not_lt.mpr h]

/-- A report that leaves the raw value does nothing (R176). -/
theorem moveAttribute_same {s : State} {a : Attribute} {raw : Nat} (h : min raw 65535 = (s.hlm.attributes.get a).raw) :
    moveAttribute a raw s = s := by
  simp [moveAttribute, h]

/-- An attribute read after its record is set. -/
@[simp] theorem Attributes.get_set_same (h : Attributes) (a : Attribute) (r : AttributeRecord) :
    (h.set a r).get a = r := by cases a <;> rfl

/-- Every other attribute is left. -/
theorem Attributes.get_set_other {a b : Attribute} (h : Attributes) (r : AttributeRecord) (hab : b ≠ a) :
    (h.set a r).get b = h.get b := by cases a <;> cases b <;> first | rfl | exact absurd rfl hab

/-- Queuing an event leaves the six attributes. -/
@[simp] theorem queueEvent_attributes (e : Event) (s : State) : (queueEvent e s).hlm.attributes = s.hlm.attributes := by
  unfold queueEvent
  split <;> rfl

/-- After a report the raw value is the one reported, at most 65,535 (R176). -/
theorem moveAttribute_raw (a : Attribute) (raw : Nat) (s : State) :
    ((moveAttribute a raw s).hlm.attributes.get a).raw = min raw 65535 := by
  simp only [moveAttribute]
  split
  · rename_i h
    exact h.symm
  · split <;> simp [hand, AttributeRecord.moved]

/-- A report leaves the other attributes. -/
theorem moveAttribute_other {a b : Attribute} (hab : b ≠ a) (raw : Nat) (s : State) :
    (moveAttribute a raw s).hlm.attributes.get b = s.hlm.attributes.get b := by
  simp only [moveAttribute]
  split
  · rfl
  · split <;> simp [hand, Attributes.get_set_other _ _ hab]

/-- The record of an attribute after a report that moves its raw value (R176, R178). -/
theorem moveAttribute_get {a : Attribute} {raw : Nat} {s : State} (h : min raw 65535 ≠ (s.hlm.attributes.get a).raw) :
    (moveAttribute a raw s).hlm.attributes.get a
      = (s.hlm.attributes.get a).moved a (min raw 65535) s.figures.zeroBand := by
  simp only [moveAttribute, if_neg h]
  split <;> simp [hand]

/-- The events after a report: ATTRIBUTE_LOW at a crossing, with room, and none otherwise (R178). -/
theorem moveAttribute_events {s : State} (hroom : s.hpt.events.length < 32) (a : Attribute) (raw : Nat) :
    (moveAttribute a raw s).hpt.events = s.hpt.events
      ++ (let r := s.hlm.attributes.get a
          let r' := r.moved a (min raw 65535) s.figures.zeroBand
          if min raw 65535 ≠ r.raw ∧ r'.low = true ∧ r.low = false then [s.record (.attributeLow a r'.normalized)]
          else []) := by
  by_cases h : min raw 65535 = (s.hlm.attributes.get a).raw
  · simp [moveAttribute_same h, h]
  · unfold moveAttribute
    simp only [if_neg h]
    split <;> rename_i hc
    · rw [queueEvent_room (by simpa [hand] using hroom)]
      simp_all [hand, State.record]
    · rw [if_neg (by simp_all)]
      simp [hand]

/-- All that a report does to its attribute (R176 to R178). -/
theorem moveAttribute_moves (a : Attribute) (raw : Nat) (s : State) : s.Moves (moveAttribute a raw s) a raw := by
  refine ⟨fun h => by rw [moveAttribute_same h], fun h => ?_⟩
  rw [moveAttribute_get h]
  refine ⟨rfl, rfl, rfl, rfl, ?_, fun hl hn hroom => ?_⟩
  · simp only [AttributeRecord.moved, AttributeRecord.isLow]
    split <;> simp_all
  · rw [moveAttribute_events (by omega)]
    simp [h, hl, hn]

/-- VIEW_MISMATCH raised with room is one mismatch, its event queued and its report taken (R77). -/
theorem raiseMismatch_mismatches {s : State} (h : s.hpt.events.length < 31) (k : MismatchKind)
    (clerk ticket : Option Nat) :
    s.Mismatches (raiseMismatch k clerk ticket s) k clerk ticket := by
  have hq := queueEvent_room (show s.hpt.events.length < 32 by omega) (.viewMismatch k clerk ticket)
  simp only [raiseMismatch, raiseAttribute, hq]
  generalize hs : ({ s with hpt.events := s.hpt.events
    ++ [{ event := .viewMismatch k clerk ticket, time := s.hpt.timeOfDay }] } : State) = u
  have hev : u.hpt.events = s.hpt.events ++ [s.record (.viewMismatch k clerk ticket)] := by rw [← hs]; rfl
  have hh : u.hlm = s.hlm := by rw [← hs]
  have hf : u.figures = s.figures := by rw [← hs]; rfl
  have ht : u.hpt.timeOfDay = s.hpt.timeOfDay := by rw [← hs]
  have hroom : u.hpt.events.length < 32 := by simp [hev]; omega
  have hevents := moveAttribute_events hroom .viewMismatch (s.hlm.attributes.viewMismatch.raw + 1)
  have hm := moveAttribute_moves .viewMismatch (s.hlm.attributes.viewMismatch.raw + 1) u
  change s.Mismatches (moveAttribute .viewMismatch (s.hlm.attributes.viewMismatch.raw + 1) u) k clerk ticket
  refine ⟨by simp [hevents, hev], ?_⟩
  unfold State.Moves at hm ⊢
  rw [hh, hf] at hm
  refine ⟨hm.1, fun hne => ?_⟩
  obtain ⟨h1, h2, h3, h4, h5, -⟩ := hm.2 hne
  refine ⟨h1, h2, h3, h4, h5, fun hl hn _ => ?_⟩
  rw [moveAttribute_get (by rwa [hh])] at hl ⊢
  rw [hevents]
  simp only [hh, hf] at hl ⊢
  simp [hne, hl, hn, State.record, ht]
/-! ### The operation list -/

/-- What an operation hands the store joins the end of its list (R144). -/
def Appends (s t : State) : Prop := ∃ more, t.tst.ops = s.tst.ops ++ more

/-- Nothing handed. -/
theorem Appends.same {s t : State} (h : t.tst.ops = s.tst.ops) : Appends s t := ⟨[], by simp [h]⟩

/-- One after another. -/
theorem Appends.trans {s t u : State} (h : Appends s t) (g : Appends t u) : Appends s u := by
  obtain ⟨m, hm⟩ := h
  obtain ⟨n, hn⟩ := g
  exact ⟨m ++ n, by rw [hn, hm, List.append_assoc]⟩

/-- An operation handed. -/
theorem Appends.hand (op : Op) (s : State) : Appends s (hand op s) := ⟨[op], rfl⟩

/-- A fault report hands one record write. -/
theorem Appends.recordFault (k : FaultKind) (s : State) : Appends s (recordFault k s) := ⟨[_], rfl⟩

/-- An event queued hands at most the record of an overflow. -/
theorem Appends.queueEvent (e : Event) (s : State) : Appends s (queueEvent e s) := by
  unfold Machine.queueEvent
  split
  · exact .same rfl
  · exact ⟨[_], rfl⟩

/-- An attribute's report hands at most its record and the record of an overflow. -/
theorem Appends.moveAttribute (a : Attribute) (raw : Nat) (s : State) : Appends s (moveAttribute a raw s) := by
  unfold Machine.moveAttribute
  extract_lets r v r' s'
  split
  · exact .same rfl
  · split
    · exact .trans (.hand _ _) (.queueEvent _ _)
    · exact .hand _ _

/-- The head of the list is performed by the command of its kind, and by no other (R144). -/
theorem performHead_cons {s : State} {op : Op} {rest : List Op} (h : s.tst.ops = op :: rest) (isKind : Op → Bool) :
    performHead isKind s = .next (if s.storeServes && isKind op then performOp op rest s else s) := by
  simp [performHead, h]

/-! ### The reads of DAYSUM frames -/

/-- Folding the maximum stays above its start and above every number met. -/
theorem foldl_max_le (l : List Nat) (a : Nat) : a ≤ l.foldl max a ∧ ∀ n ∈ l, n ≤ l.foldl max a := by
  induction l generalizing a with
  | nil => simp
  | cons x rest ih =>
    obtain ⟨h, g⟩ := ih (max a x)
    exact ⟨by simp only [List.foldl_cons]; omega, by
      simp only [List.foldl_cons, List.mem_cons, forall_eq_or_imp]
      exact ⟨by omega, g⟩⟩

/-- No listed read bears the number of the next DAYSUM read (assumption 50). -/
theorem nextDaysumRead_fresh (s : State) : FreshRead s.nextDaysumRead s.tst.ops := by
  intro addresses h
  have := (foldl_max_le (s.tst.ops.map Op.daysumRead) 0).2 _ (List.mem_map_of_mem h)
  simp only [Op.daysumRead, State.nextDaysumRead] at this
  omega

/-- A DAYSUM that enters the queue, with its own read when its day is held (R172). -/
theorem placeDaysum_held {s : State} {day slot : Nat} (h : s.recordSlot day = some slot) :
    placeDaysum day s = hand (.read (figureAddresses slot) (.daysum s.nextDaysumRead))
      (enqueue (.daysum day s.nextDaysumRead none) s) := by
  simp [placeDaysum, h]
  rfl

/-- A read fills the DAYSUM of its number. -/
@[simp] theorem TxFrame.filled_own (day n : Nat) (figures : DayFigures) :
    TxFrame.filled n figures (.daysum day n none) = .daysum day n (some figures) := by simp [TxFrame.filled]

/-- It leaves every other DAYSUM. -/
theorem TxFrame.filled_other {n k : Nat} (h : k ≠ n) (day : Nat) (figures : DayFigures) :
    TxFrame.filled n figures (.daysum day k none) = .daysum day k none := by simp [TxFrame.filled, h]

/-! ### Acceptance -/

/-- A station that receives no frames takes none. -/
theorem acceptFrame_deaf {s : State} (h : s.receives = false) (f : Frame) (apply : Option TxFrame → State → State) :
    acceptFrame f apply s = s := by
  simp [acceptFrame, h]

/-- At a receiver: its own attempt, if any, is over, the roster refreshed and the frame applied (R56, R59). -/
theorem acceptFrame_receiver {s : State} {f : Frame} (hr : s.receives = true) (hp : payloadInRange f.payload = true)
    (hs : s.sends f = false) (apply : Option TxFrame → State → State) :
    acceptFrame f apply s = apply none (refreshRoster f.origin.toNat (stopSending s)) := by
  simp [acceptFrame, hr, hp, hs]

/-- At the sender: the frame leaves its queue first (R56). -/
theorem acceptFrame_sender {s : State} {f : Frame} (hr : s.receives = true) (hp : payloadInRange f.payload = true)
    (hs : s.sends f = true) (apply : Option TxFrame → State → State) :
    acceptFrame f apply s = apply s.lnk.queue.head? (refreshRoster f.origin.toNat (takeOwnFrame s)) := by
  simp [acceptFrame, hr, hp, hs]

/-- Nothing moves up from an empty backlog (R50). -/
theorem moveBacklog_empty {s : State} (h : s.lnk.backlog = Backlog.none) : moveBacklog s = s := by
  simp [moveBacklog, h, Backlog.size, Backlog.none, fillStationPlaces]

/-- With an empty backlog the sender's part at acceptance takes the head and clears the counts, and nothing else (R56). -/
theorem takeOwnFrame_eq {s : State} (h : s.lnk.backlog = Backlog.none) :
    takeOwnFrame s = { s with lnk := s.linkSent s (s.lnk.queue.drop 1) } := by
  rw [takeOwnFrame, moveBacklog_empty]
  · rfl
  · exact h

/-- A receiver of an accepted frame keeps its link but for the attempt (R56). -/
theorem stopSending_eq (s : State) : stopSending s = { s with lnk := s.linkHeard s } := rfl

/-- The roster entry of another station after a refresh (R60). -/
theorem refreshRoster_eq {s : State} {origin : Nat} (h : origin ≠ s.station) :
    refreshRoster origin s = { s with
      lnk.roster := Table.put s.lnk.roster origin
        { (Table.get s.lnk.roster origin).getD { day := none, lockout := none, age := 0 } with age := 0 } } := by
  simp [refreshRoster, h]

/-! ### Ties of a restart with an expiry -/

/-- A timer that does not run has not run out (R12, R63, R113). -/
@[simp] theorem hasRun_none (full : Nat) : hasRun none full = false := rfl

/-- A timer just restarted has not run (assumption 3). -/
@[simp] theorem hasRun_restarted (full : Nat) : hasRun (some full) full = false := by simp [hasRun]

/-- A timer has run exactly when it is running and stands below its full value. -/
theorem hasRun_iff {timer : Option Nat} {full : Nat} :
    hasRun timer full = true ↔ ∃ left, timer = some left ∧ left < full := by
  cases timer <;> simp [hasRun]

/-! ### A label record placed -/

/-- What placing a record hands and moves: one journal append at the next slot, with the serial it leaves (R131, R132,
R135). -/
theorem placeLabel_handed (clerk : Nat) (body : LabelBody) (s : State) :
    ∃ r : LabelRecord, r.slot = ringNext 128 s.lbl.newest ∧ r.body = body ∧ r.serial = s.lbl.nextSerial
      ∧ (placeLabel clerk body s).lbl.records = s.lbl.records ++ [r] ∧ (placeLabel clerk body s).lbl.newest = r.slot
      ∧ (placeLabel clerk body s).tst.ops
          = s.tst.ops ++ [.journalAppend r.slot (journalEntry r) (labelWord (serialAfter s.lbl.nextSerial) r.slot)] :=
  ⟨_, rfl, rfl, rfl, rfl, rfl, rfl⟩

/-! ### The withdrawal at a close start -/

/-- A head of classes 1..7 ends: its attempt, if one is under way, is withdrawn and the station stops driving; between
attempts it goes on driving what it drives (R55, R57). -/
theorem withdrawHead_dayScoped {s : State} {f : TxFrame} {rest : List TxFrame} (h : s.lnk.queue = f :: rest)
    (hf : f.isDayScoped = true) :
    withdrawHead s = { s with lnk := { s.lnk with
      attempt := none
      attemptCount := 0
      drive := if s.lnk.attempt.isSome then .recessive else s.lnk.drive } } := by
  simp [withdrawHead, h, hf]

/-- A head of another class, or no head, is left as it is (R57, assumption 43). -/
theorem withdrawHead_other {s : State} (h : ∀ f rest, s.lnk.queue = f :: rest → f.isDayScoped = false) :
    withdrawHead s = s := by
  unfold withdrawHead
  split
  · rfl
  · rename_i f rest hq
    simp [h f rest hq]

/-! ### Step 7 of a close start -/

/-- All that step 7 does: the flag says whether the highest day is later than the business day, and a highest day that is
not becomes that day (R159, R167). -/
theorem settleBehind_eq (s : State) :
    settleBehind s = { s with
      day := { s.day with
        behind := laterDay s.day.highest s.day.day
        highest := if laterDay s.day.highest s.day.day then s.day.highest else s.day.day } } := by
  unfold settleBehind
  split <;> simp_all

/-! ### The deferred receive list -/

/-- A deferred frame of the day D goes to its units after its origin's roster entry is refreshed (R59, R166). -/
theorem applyDeferredFrame_now {s : State} {f : Frame}
    (h : dayTagOf f.payload = dayTag (refreshRoster f.origin.toNat s).day.day) :
    applyDeferredFrame s f = applyDayFrame f none (refreshRoster f.origin.toNat s) := by
  simp [applyDeferredFrame, h]

/-- A deferred frame of another day refreshes the roster and does no more (R60, R161). -/
theorem applyDeferredFrame_stale {s : State} {f : Frame}
    (h : dayTagOf f.payload ≠ dayTag (refreshRoster f.origin.toNat s).day.day) :
    applyDeferredFrame s f = refreshRoster f.origin.toNat s := by
  simp [applyDeferredFrame, h]

/-! ### The stability of the window -/

/-- The largest value is within a bound exactly when every value is. -/
theorem maxOf_le_iff (l : List Int) (a b : Int) : maxOf l a ≤ b ↔ a ≤ b ∧ ∀ x ∈ l, x ≤ b := by
  unfold maxOf
  induction l generalizing a with
  | nil => simp
  | cons x l ih => simp only [List.foldl_cons, ih, List.mem_cons, forall_eq_or_imp, max_le_iff]; tauto

/-- The smallest value is above a bound exactly when every value is. -/
theorem le_minOf_iff (l : List Int) (a b : Int) : b ≤ minOf l a ↔ b ≤ a ∧ ∀ x ∈ l, b ≤ x := by
  unfold minOf
  induction l generalizing a with
  | nil => simp
  | cons x l ih => simp only [List.foldl_cons, ih, List.mem_cons, forall_eq_or_imp, le_min_iff]; tauto

/-- The window is stable when it holds M values, at least one, and no two lie further apart than the spread (R4). -/
theorem windowStable_iff (w : List Int) (m : Nat) (spread : Int) : windowStable w m spread = true ↔
    w ≠ [] ∧ w.length = m ∧ ∀ x ∈ w, ∀ y ∈ w, x - y ≤ spread := by
  rcases w with _ | ⟨g, l⟩
  · simp [windowStable]
  have bound (b : Int) : maxOf l g ≤ b ↔ ∀ x ∈ g :: l, x ≤ b := by simp [maxOf_le_iff]
  have lower (b : Int) : b ≤ minOf l g ↔ ∀ y ∈ g :: l, b ≤ y := by simp [le_minOf_iff]
  simp only [windowStable, Bool.and_eq_true, decide_eq_true_eq]
  rw [show maxOf l g - minOf l g ≤ spread ↔ maxOf l g ≤ spread + minOf l g by omega, bound]
  have step (x : Int) : x ≤ spread + minOf l g ↔ ∀ y ∈ g :: l, x - y ≤ spread := by
    rw [show x ≤ spread + minOf l g ↔ x - spread ≤ minOf l g by omega, lower]
    exact forall₂_congr fun y _ => by omega
  simp only [step, ne_eq, reduceCtorEq, not_false_eq_true, true_and]

/-! ### The start of store preparation -/

/-- The walk of a start with retained words is the verification walk unless the mark is read (R154). -/
theorem retainedWalk_verify {m : Memory}
    (h : (Memory.read m 4).judge = .uncorrectable ∨ (Memory.read m 4).data % 2 = 0) : retainedWalk m = .verify := by
  rcases h with h | h <;> simp [retainedWalk, addrStoreState, hasFlag, h]

/-- The mark read calls for the initialization walk (R154). -/
theorem retainedWalk_fresh {m : Memory} (h : (Memory.read m 4).judge ≠ .uncorrectable)
    (mark : (Memory.read m 4).data % 2 = 1) : retainedWalk m = .fresh := by
  simp [retainedWalk, addrStoreState, hasFlag, h, mark]

/-- POWER_ON with RESET high is a start; with RESET low the words are those of a start cut short, and the part is held
(R197). -/
theorem execPowerOn_eq (straps : Straps) (retainOk : Bool) (s : State) : execPowerOn straps retainOk s =
    .next (let begun := beginPreparation (if retainOk then retainedWalk s.settled else .fresh) straps s.settled s.pending
      if s.power.pinLow then State.fresh .resetLow straps begun.tst.mem none s.pending else begun) := rfl

/-! ### One word of a walk -/

/-- A word of a walk changes the store alone (R153). -/
theorem walkWord_eq (s : State) : walkWord s = { s with tst := (walkWord s).tst } := by
  unfold walkWord
  split
  · rfl
  · split
    · rfl
    · split <;> rfl

/-- Without a walk, and after its last word, nothing is done. -/
theorem walkWord_done {s : State} (h : ∀ w, s.tst.walk = some w → 2048 ≤ w.done) : walkWord s = s := by
  unfold walkWord
  split
  · rfl
  · next w hw => rw [if_pos (h w hw)]

/-- A word of the verification walk, by its judgement (R148, R154). -/
theorem walkWord_verify {s : State} {w : Walk} (hw : s.tst.walk = some w) (hk : w.kind = .verify) (hd : w.done < 2048) :
    (walkWord s).tst =
      let j := Memory.read s.tst.mem w.done
      match j.judge with
      | .sound => { s.tst with walk := some { w with done := w.done + 1 } }
      | .corrected =>
        { s.tst with
          mem := Memory.write s.tst.mem w.done j.data
          walk := some { w with done := w.done + 1, corrected := w.corrected + 1 }
          latch := s.tst.latch.take w.done .corrected }
      | .uncorrectable =>
        { s.tst with
          walk := some { w with
            done := w.done + 1
            uncorrectable := w.uncorrectable + 1
            firstBad := some (w.firstBad.getD w.done) }
          latch := s.tst.latch.take w.done .uncorrectable } := by
  cases hj : (Memory.read s.tst.mem w.done).judge <;> cases hl : s.tst.latch <;>
    simp [walkWord, hw, Nat.not_le.2 hd, hk, verifyWord, hj, ErrorLatch.take, hl]

/-- A word of the initialization walk (R156). -/
theorem walkWord_fresh {s : State} {w : Walk} (hw : s.tst.walk = some w) (hk : w.kind = .fresh) (hd : w.done < 2048) :
    (walkWord s).tst =
      { s.tst with
        mem := Memory.write s.tst.mem (initAddress w.done) (if initAddress w.done = addrStoreState then 1 else 0)
        walk := some { w with done := w.done + 1 } } := by
  simp [walkWord, hw, Nat.not_le.2 hd, hk]

/-! ### A close start -/

/-- A day-scoped attribute returned to 0 at a close start (R167, R177). -/
theorem moveAttribute_closed {a : Attribute} (ha : a ∈ dayScoped) (s : State) :
    (moveAttribute a 0 s).hlm.attributes.get a = (s.hlm.attributes.get a).closed := by
  have hn : normalizedValue a 0 s.figures.zeroBand = 100 := by
    rcases (show a = .motionTimeouts ∨ a = .linkRetries ∨ a = .viewMismatch by simpa [dayScoped] using ha)
      with rfl | rfl | rfl <;> rfl
  by_cases h : (s.hlm.attributes.get a).raw = 0
  · rw [moveAttribute_same (by simp [h]), AttributeRecord.closed, if_pos h]
  · rw [moveAttribute_get (by simpa using Ne.symm h), AttributeRecord.closed, if_neg h]
    cases ht : (s.hlm.attributes.get a).threshold <;> simp [AttributeRecord.moved, AttributeRecord.isLow, hn, ht]

end Sys2Proof.Machine
end

