-- ==== Sys2Proof/Laws/PerInstr.lean ====
section
/-! SUPPORT. A statement about every command as syntax: the block of a host request has the length that its code takes
(R187), so HPT never answers it PARAM for its form. -/

namespace Sys2Proof.Laws

/-- The block of a command that is a host request has a code of Table 11-2 and the number of parameter bytes that the
request takes; a command that is no host request has no block. -/
def RequestLength.Statement (i : Instr) : Prop :=
  ∀ b, Machine.requestBlock i = some b → b.code ≠ 0 ∧ Machine.requestLength b.code.toNat = some b.params.length

/-- The length of the block. -/
theorem RequestLength.powerOn (straps : Straps) (retainOk : Bool) :
    RequestLength.Statement (.powerOn straps retainOk) := by
  intro b h
  cases h

/-- The length of the block. -/
theorem RequestLength.mainPowerFail :
    RequestLength.Statement .mainPowerFail := by
  intro b h
  cases h

/-- The length of the block. -/
theorem RequestLength.resetAssert :
    RequestLength.Statement .resetAssert := by
  intro b h
  cases h

/-- The length of the block. -/
theorem RequestLength.resetRelease (straps : Straps) :
    RequestLength.Statement (.resetRelease straps) := by
  intro b h
  cases h

/-- The length of the block. -/
theorem RequestLength.verificationWalkEnd :
    RequestLength.Statement .verificationWalkEnd := by
  intro b h
  cases h

/-- The length of the block. -/
theorem RequestLength.initializationWalkEnd :
    RequestLength.Statement .initializationWalkEnd := by
  intro b h
  cases h

/-- The length of the block. -/
theorem RequestLength.selectionEnd (mosi : List Byte) :
    RequestLength.Statement (.selectionEnd mosi) := by
  intro b h
  cases h

/-- The length of the block. -/
theorem RequestLength.configure (fields : ConfigBlock) :
    RequestLength.Statement (.configure fields) := by
  intro b h
  cases h; exact ⟨by simp, rfl⟩

/-- The length of the block. -/
theorem RequestLength.start :
    RequestLength.Statement .start := by
  intro b h
  cases h; exact ⟨by simp, rfl⟩

/-- The length of the block. -/
theorem RequestLength.restart :
    RequestLength.Statement .restart := by
  intro b h
  cases h; exact ⟨by simp, rfl⟩

/-- The length of the block. -/
theorem RequestLength.setTime (time : BitVec 24) :
    RequestLength.Statement (.setTime time) := by
  intro b h
  cases h; exact ⟨by simp, rfl⟩

/-- The length of the block. -/
theorem RequestLength.readStatus :
    RequestLength.Statement .readStatus := by
  intro b h
  cases h; exact ⟨by simp, rfl⟩

/-- The length of the block. -/
theorem RequestLength.takeEvent :
    RequestLength.Statement .takeEvent := by
  intro b h
  cases h; exact ⟨by simp, rfl⟩

/-- The length of the block. -/
theorem RequestLength.zero :
    RequestLength.Statement .zero := by
  intro b h
  cases h; exact ⟨by simp, rfl⟩

/-- The length of the block. -/
theorem RequestLength.tareWeigh :
    RequestLength.Statement .tareWeigh := by
  intro b h
  cases h; exact ⟨by simp, rfl⟩

/-- The length of the block. -/
theorem RequestLength.tareSet (grams : BitVec 16) :
    RequestLength.Statement (.tareSet grams) := by
  intro b h
  cases h; exact ⟨by simp, rfl⟩

/-- The length of the block. -/
theorem RequestLength.tareClear :
    RequestLength.Statement .tareClear := by
  intro b h
  cases h; exact ⟨by simp, rfl⟩

/-- The length of the block. -/
theorem RequestLength.readWeight :
    RequestLength.Statement .readWeight := by
  intro b h
  cases h; exact ⟨by simp, rfl⟩

/-- The length of the block. -/
theorem RequestLength.weighItem (clerk : Byte) (plu : BitVec 24) (dept : Byte) (price : BitVec 24) (tareGiven : Byte) (tare : BitVec 16) :
    RequestLength.Statement (.weighItem clerk plu dept price tareGiven tare) := by
  intro b h
  cases h; exact ⟨by simp, rfl⟩

/-- The length of the block. -/
theorem RequestLength.countItem (clerk : Byte) (plu : BitVec 24) (dept : Byte) (price : BitVec 24) (quantity : Byte) :
    RequestLength.Statement (.countItem clerk plu dept price quantity) := by
  intro b h
  cases h; exact ⟨by simp, rfl⟩

/-- The length of the block. -/
theorem RequestLength.abortCapture :
    RequestLength.Statement .abortCapture := by
  intro b h
  cases h; exact ⟨by simp, rfl⟩

/-- The length of the block. -/
theorem RequestLength.releaseHeld :
    RequestLength.Statement .releaseHeld := by
  intro b h
  cases h; exact ⟨by simp, rfl⟩

/-- The length of the block. -/
theorem RequestLength.discardHeld :
    RequestLength.Statement .discardHeld := by
  intro b h
  cases h; exact ⟨by simp, rfl⟩

/-- The length of the block. -/
theorem RequestLength.setWatch (slot form kind : Byte) (value : BitVec 24) (action enable : Byte) :
    RequestLength.Statement (.setWatch slot form kind value action enable) := by
  intro b h
  cases h; exact ⟨by simp, rfl⟩

/-- The length of the block. -/
theorem RequestLength.clearWatchStatus (slots : Byte) :
    RequestLength.Statement (.clearWatchStatus slots) := by
  intro b h
  cases h; exact ⟨by simp, rfl⟩

/-- The length of the block. -/
theorem RequestLength.readWatches :
    RequestLength.Statement .readWatches := by
  intro b h
  cases h; exact ⟨by simp, rfl⟩

/-- The length of the block. -/
theorem RequestLength.takeLabel :
    RequestLength.Statement .takeLabel := by
  intro b h
  cases h; exact ⟨by simp, rfl⟩

/-- The length of the block. -/
theorem RequestLength.readJournal (index : Byte) :
    RequestLength.Statement (.readJournal index) := by
  intro b h
  cases h; exact ⟨by simp, rfl⟩

/-- The length of the block. -/
theorem RequestLength.issueTicket :
    RequestLength.Statement .issueTicket := by
  intro b h
  cases h; exact ⟨by simp, rfl⟩

/-- The length of the block. -/
theorem RequestLength.callNext (clerk : Byte) :
    RequestLength.Statement (.callNext clerk) := by
  intro b h
  cases h; exact ⟨by simp, rfl⟩

/-- The length of the block. -/
theorem RequestLength.passTicket (clerk : Byte) :
    RequestLength.Statement (.passTicket clerk) := by
  intro b h
  cases h; exact ⟨by simp, rfl⟩

/-- The length of the block. -/
theorem RequestLength.readTickets :
    RequestLength.Statement .readTickets := by
  intro b h
  cases h; exact ⟨by simp, rfl⟩

/-- The length of the block. -/
theorem RequestLength.totalOrder (clerk : Byte) :
    RequestLength.Statement (.totalOrder clerk) := by
  intro b h
  cases h; exact ⟨by simp, rfl⟩

/-- The length of the block. -/
theorem RequestLength.cancelOrder (clerk : Byte) :
    RequestLength.Statement (.cancelOrder clerk) := by
  intro b h
  cases h; exact ⟨by simp, rfl⟩

/-- The length of the block. -/
theorem RequestLength.voidLine (clerk line : Byte) :
    RequestLength.Statement (.voidLine clerk line) := by
  intro b h
  cases h; exact ⟨by simp, rfl⟩

/-- The length of the block. -/
theorem RequestLength.readOrder (clerk : Byte) :
    RequestLength.Statement (.readOrder clerk) := by
  intro b h
  cases h; exact ⟨by simp, rfl⟩

/-- The length of the block. -/
theorem RequestLength.closeDay (forced : Byte) :
    RequestLength.Statement (.closeDay forced) := by
  intro b h
  cases h; exact ⟨by simp, rfl⟩

/-- The length of the block. -/
theorem RequestLength.joinDay :
    RequestLength.Statement .joinDay := by
  intro b h
  cases h; exact ⟨by simp, rfl⟩

/-- The length of the block. -/
theorem RequestLength.askDaysum (day : BitVec 16) :
    RequestLength.Statement (.askDaysum day) := by
  intro b h
  cases h; exact ⟨by simp, rfl⟩

/-- The length of the block. -/
theorem RequestLength.readDayRecord (index : Byte) :
    RequestLength.Statement (.readDayRecord index) := by
  intro b h
  cases h; exact ⟨by simp, rfl⟩

/-- The length of the block. -/
theorem RequestLength.readTotals (group : Byte) :
    RequestLength.Statement (.readTotals group) := by
  intro b h
  cases h; exact ⟨by simp, rfl⟩

/-- The length of the block. -/
theorem RequestLength.readHealth :
    RequestLength.Statement .readHealth := by
  intro b h
  cases h; exact ⟨by simp, rfl⟩

/-- The length of the block. -/
theorem RequestLength.readFaults (index : Byte) :
    RequestLength.Statement (.readFaults index) := by
  intro b h
  cases h; exact ⟨by simp, rfl⟩

/-- The length of the block. -/
theorem RequestLength.clearStoreLatch :
    RequestLength.Statement .clearStoreLatch := by
  intro b h
  cases h; exact ⟨by simp, rfl⟩

/-- The length of the block. -/
theorem RequestLength.readRoster :
    RequestLength.Statement .readRoster := by
  intro b h
  cases h; exact ⟨by simp, rfl⟩

/-- The length of the block. -/
theorem RequestLength.sampleArrival (bits : Nat) (value : BitVec 24) :
    RequestLength.Statement (.sampleArrival bits value) := by
  intro b h
  cases h

/-- The length of the block. -/
theorem RequestLength.sampleWatchdogExpiry :
    RequestLength.Statement .sampleWatchdogExpiry := by
  intro b h
  cases h

/-- The length of the block. -/
theorem RequestLength.captureTimerExpiry :
    RequestLength.Statement .captureTimerExpiry := by
  intro b h
  cases h

/-- The length of the block. -/
theorem RequestLength.holdTimerExpiry :
    RequestLength.Statement .holdTimerExpiry := by
  intro b h
  cases h

/-- The length of the block. -/
theorem RequestLength.beaconTimerExpiry :
    RequestLength.Statement .beaconTimerExpiry := by
  intro b h
  cases h

/-- The length of the block. -/
theorem RequestLength.censusTimerExpiry :
    RequestLength.Statement .censusTimerExpiry := by
  intro b h
  cases h

/-- The length of the block. -/
theorem RequestLength.rosterAgeExpiry (station : BitVec 4) :
    RequestLength.Statement (.rosterAgeExpiry station) := by
  intro b h
  cases h

/-- The length of the block. -/
theorem RequestLength.orderExpiry (clerk : Byte) :
    RequestLength.Statement (.orderExpiry clerk) := by
  intro b h
  cases h

/-- The length of the block. -/
theorem RequestLength.timeOfDayTick :
    RequestLength.Statement .timeOfDayTick := by
  intro b h
  cases h

/-- The length of the block. -/
theorem RequestLength.scrubRequest :
    RequestLength.Statement .scrubRequest := by
  intro b h
  cases h

/-- The length of the block. -/
theorem RequestLength.storeRead :
    RequestLength.Statement .storeRead := by
  intro b h
  cases h

/-- The length of the block. -/
theorem RequestLength.storeUpdate :
    RequestLength.Statement .storeUpdate := by
  intro b h
  cases h

/-- The length of the block. -/
theorem RequestLength.itemPosting :
    RequestLength.Statement .itemPosting := by
  intro b h
  cases h

/-- The length of the block. -/
theorem RequestLength.journalAppend :
    RequestLength.Statement .journalAppend := by
  intro b h
  cases h

/-- The length of the block. -/
theorem RequestLength.takenFlagUpdate :
    RequestLength.Statement .takenFlagUpdate := by
  intro b h
  cases h

/-- The length of the block. -/
theorem RequestLength.counterUpdate :
    RequestLength.Statement .counterUpdate := by
  intro b h
  cases h

/-- The length of the block. -/
theorem RequestLength.recordWrite :
    RequestLength.Statement .recordWrite := by
  intro b h
  cases h

/-- The length of the block. -/
theorem RequestLength.closeCopy :
    RequestLength.Statement .closeCopy := by
  intro b h
  cases h

/-- The length of the block. -/
theorem RequestLength.linkAttemptStart :
    RequestLength.Statement .linkAttemptStart := by
  intro b h
  cases h

/-- The length of the block. -/
theorem RequestLength.arbitrationLost :
    RequestLength.Statement .arbitrationLost := by
  intro b h
  cases h

/-- The length of the block. -/
theorem RequestLength.attemptBitError :
    RequestLength.Statement .attemptBitError := by
  intro b h
  cases h

/-- The length of the block. -/
theorem RequestLength.attemptObjected :
    RequestLength.Statement .attemptObjected := by
  intro b h
  cases h

/-- The length of the block. -/
theorem RequestLength.frameDamaged (frame : RawFrame) :
    RequestLength.Statement (.frameDamaged frame) := by
  intro b h
  cases h

/-- The length of the block. -/
theorem RequestLength.dayCloseAccepted (origin : BitVec 4) (p : DayClosePayload) :
    RequestLength.Statement (.dayCloseAccepted origin p) := by
  intro b h
  cases h

/-- The length of the block. -/
theorem RequestLength.callAccepted (origin : BitVec 4) (p : TicketPayload) :
    RequestLength.Statement (.callAccepted origin p) := by
  intro b h
  cases h

/-- The length of the block. -/
theorem RequestLength.issueAccepted (origin : BitVec 4) (p : IssuePayload) :
    RequestLength.Statement (.issueAccepted origin p) := by
  intro b h
  cases h

/-- The length of the block. -/
theorem RequestLength.passAccepted (origin : BitVec 4) (p : TicketPayload) :
    RequestLength.Statement (.passAccepted origin p) := by
  intro b h
  cases h

/-- The length of the block. -/
theorem RequestLength.txCloseAccepted (origin : BitVec 4) (p : TxClosePayload) :
    RequestLength.Statement (.txCloseAccepted origin p) := by
  intro b h
  cases h

/-- The length of the block. -/
theorem RequestLength.txCancelAccepted (origin : BitVec 4) (p : TxCancelPayload) :
    RequestLength.Statement (.txCancelAccepted origin p) := by
  intro b h
  cases h

/-- The length of the block. -/
theorem RequestLength.voidAccepted (origin : BitVec 4) (p : VoidPayload) :
    RequestLength.Statement (.voidAccepted origin p) := by
  intro b h
  cases h

/-- The length of the block. -/
theorem RequestLength.itemAccepted (origin : BitVec 4) (p : ItemPayload) :
    RequestLength.Statement (.itemAccepted origin p) := by
  intro b h
  cases h

/-- The length of the block. -/
theorem RequestLength.daysumAccepted (origin : BitVec 4) (p : DaysumPayload) :
    RequestLength.Statement (.daysumAccepted origin p) := by
  intro b h
  cases h

/-- The length of the block. -/
theorem RequestLength.daysumAskAccepted (origin : BitVec 4) (day : BitVec 16) :
    RequestLength.Statement (.daysumAskAccepted origin day) := by
  intro b h
  cases h

/-- The length of the block. -/
theorem RequestLength.censusAskAccepted (origin : BitVec 4) :
    RequestLength.Statement (.censusAskAccepted origin) := by
  intro b h
  cases h

/-- The length of the block. -/
theorem RequestLength.censusReplyAccepted (origin : BitVec 4) (p : CensusReplyPayload) :
    RequestLength.Statement (.censusReplyAccepted origin p) := by
  intro b h
  cases h

/-- The length of the block. -/
theorem RequestLength.censusTxAccepted (origin : BitVec 4) (p : CensusTxPayload) :
    RequestLength.Statement (.censusTxAccepted origin p) := by
  intro b h
  cases h

/-- The length of the block. -/
theorem RequestLength.beaconAccepted (origin : BitVec 4) (p : BeaconPayload) :
    RequestLength.Statement (.beaconAccepted origin p) := by
  intro b h
  cases h

/-- The length of the block. -/
theorem RequestLength.closeStart :
    RequestLength.Statement .closeStart := by
  intro b h
  cases h

/-- The length of the block. -/
theorem RequestLength.vretDisturbance (address : BitVec 11) (flips : BitVec 39) :
    RequestLength.Statement (.vretDisturbance address flips) := by
  intro b h
  cases h

/-- Every command. -/
theorem RequestLength.all (i : Instr) : RequestLength.Statement i := by
  cases i
  · apply RequestLength.powerOn
  · apply RequestLength.mainPowerFail
  · apply RequestLength.resetAssert
  · apply RequestLength.resetRelease
  · apply RequestLength.verificationWalkEnd
  · apply RequestLength.initializationWalkEnd
  · apply RequestLength.selectionEnd
  · apply RequestLength.configure
  · apply RequestLength.start
  · apply RequestLength.restart
  · apply RequestLength.setTime
  · apply RequestLength.readStatus
  · apply RequestLength.takeEvent
  · apply RequestLength.zero
  · apply RequestLength.tareWeigh
  · apply RequestLength.tareSet
  · apply RequestLength.tareClear
  · apply RequestLength.readWeight
  · apply RequestLength.weighItem
  · apply RequestLength.countItem
  · apply RequestLength.abortCapture
  · apply RequestLength.releaseHeld
  · apply RequestLength.discardHeld
  · apply RequestLength.setWatch
  · apply RequestLength.clearWatchStatus
  · apply RequestLength.readWatches
  · apply RequestLength.takeLabel
  · apply RequestLength.readJournal
  · apply RequestLength.issueTicket
  · apply RequestLength.callNext
  · apply RequestLength.passTicket
  · apply RequestLength.readTickets
  · apply RequestLength.totalOrder
  · apply RequestLength.cancelOrder
  · apply RequestLength.voidLine
  · apply RequestLength.readOrder
  · apply RequestLength.closeDay
  · apply RequestLength.joinDay
  · apply RequestLength.askDaysum
  · apply RequestLength.readDayRecord
  · apply RequestLength.readTotals
  · apply RequestLength.readHealth
  · apply RequestLength.readFaults
  · apply RequestLength.clearStoreLatch
  · apply RequestLength.readRoster
  · apply RequestLength.sampleArrival
  · apply RequestLength.sampleWatchdogExpiry
  · apply RequestLength.captureTimerExpiry
  · apply RequestLength.holdTimerExpiry
  · apply RequestLength.beaconTimerExpiry
  · apply RequestLength.censusTimerExpiry
  · apply RequestLength.rosterAgeExpiry
  · apply RequestLength.orderExpiry
  · apply RequestLength.timeOfDayTick
  · apply RequestLength.scrubRequest
  · apply RequestLength.storeRead
  · apply RequestLength.storeUpdate
  · apply RequestLength.itemPosting
  · apply RequestLength.journalAppend
  · apply RequestLength.takenFlagUpdate
  · apply RequestLength.counterUpdate
  · apply RequestLength.recordWrite
  · apply RequestLength.closeCopy
  · apply RequestLength.linkAttemptStart
  · apply RequestLength.arbitrationLost
  · apply RequestLength.attemptBitError
  · apply RequestLength.attemptObjected
  · apply RequestLength.frameDamaged
  · apply RequestLength.dayCloseAccepted
  · apply RequestLength.callAccepted
  · apply RequestLength.issueAccepted
  · apply RequestLength.passAccepted
  · apply RequestLength.txCloseAccepted
  · apply RequestLength.txCancelAccepted
  · apply RequestLength.voidAccepted
  · apply RequestLength.itemAccepted
  · apply RequestLength.daysumAccepted
  · apply RequestLength.daysumAskAccepted
  · apply RequestLength.censusAskAccepted
  · apply RequestLength.censusReplyAccepted
  · apply RequestLength.censusTxAccepted
  · apply RequestLength.beaconAccepted
  · apply RequestLength.closeStart
  · apply RequestLength.vretDisturbance

end Sys2Proof.Laws
end

