-- ==== Sys2Proof/Laws/State.lean ====
section
/-! SUPPORT. What the shared operations leave as it was: for each, one lemma that names every unit, or every field of a
unit, that it does not write. All are `simp` rules, so no later proof unfolds a record update to see a frame. -/

namespace Sys2Proof.Machine

/-! ### Operations that are one record update -/

/-- Handing an operation changes the operation list alone. -/
@[simp] theorem hand_keeps (op : Op) (s : State) :
    (hand op s).pending = s.pending ∧ (hand op s).power = s.power ∧ (hand op s).hpt = s.hpt ∧
    (hand op s).wch = s.wch ∧ (hand op s).cap = s.cap ∧ (hand op s).lbl = s.lbl ∧
    (hand op s).lnk = s.lnk ∧ (hand op s).tkt = s.tkt ∧ (hand op s).clt = s.clt ∧
    (hand op s).day = s.day ∧ (hand op s).tst.mem = s.tst.mem ∧ (hand op s).tst.latch = s.tst.latch ∧
    (hand op s).tst.scrubPointer = s.tst.scrubPointer ∧
    (hand op s).tst.scrubPending = s.tst.scrubPending ∧ (hand op s).tst.activity = s.tst.activity ∧
    (hand op s).tst.walk = s.tst.walk ∧ (hand op s).tst.walkResult = s.tst.walkResult ∧
    (hand op s).hlm = s.hlm := by
  repeat' constructor

/-- An operation handed joins the operation list. -/
@[simp] theorem hand_ops (op : Op) (s : State) : (hand op s).tst.ops = s.tst.ops ++ [op] := rfl

/-- An answer changes the response slot alone. -/
@[simp] theorem answer_keeps (r : ResultCode) (data : List Field) (s : State) :
    (answer r data s).pending = s.pending ∧ (answer r data s).power = s.power ∧
    (answer r data s).hpt.runState = s.hpt.runState ∧ (answer r data s).hpt.straps = s.hpt.straps ∧
    (answer r data s).hpt.configured = s.hpt.configured ∧ (answer r data s).hpt.miso = s.hpt.miso ∧
    (answer r data s).hpt.nextTag = s.hpt.nextTag ∧ (answer r data s).hpt.ring = s.hpt.ring ∧
    (answer r data s).hpt.events = s.hpt.events ∧ (answer r data s).hpt.overflow = s.hpt.overflow ∧
    (answer r data s).hpt.timeOfDay = s.hpt.timeOfDay ∧ (answer r data s).wch = s.wch ∧
    (answer r data s).cap = s.cap ∧ (answer r data s).lbl = s.lbl ∧ (answer r data s).lnk = s.lnk ∧
    (answer r data s).tkt = s.tkt ∧ (answer r data s).clt = s.clt ∧ (answer r data s).day = s.day ∧
    (answer r data s).tst = s.tst ∧ (answer r data s).hlm = s.hlm := by
  repeat' constructor

/-- An answer is READY. -/
@[simp] theorem answer_slot (r : ResultCode) (data : List Field) (s : State) :
    (answer r data s).hpt.slot = .ready { result := r, data := data } := rfl

/-- A refusal changes the response slot alone. -/
@[simp] theorem refuse_keeps (r : ResultCode) (s : State) :
    (refuse r s).pending = s.pending ∧ (refuse r s).power = s.power ∧
    (refuse r s).hpt.runState = s.hpt.runState ∧ (refuse r s).hpt.straps = s.hpt.straps ∧
    (refuse r s).hpt.configured = s.hpt.configured ∧ (refuse r s).hpt.miso = s.hpt.miso ∧
    (refuse r s).hpt.nextTag = s.hpt.nextTag ∧ (refuse r s).hpt.ring = s.hpt.ring ∧
    (refuse r s).hpt.events = s.hpt.events ∧ (refuse r s).hpt.overflow = s.hpt.overflow ∧
    (refuse r s).hpt.timeOfDay = s.hpt.timeOfDay ∧ (refuse r s).wch = s.wch ∧
    (refuse r s).cap = s.cap ∧ (refuse r s).lbl = s.lbl ∧ (refuse r s).lnk = s.lnk ∧
    (refuse r s).tkt = s.tkt ∧ (refuse r s).clt = s.clt ∧ (refuse r s).day = s.day ∧
    (refuse r s).tst = s.tst ∧ (refuse r s).hlm = s.hlm := by
  repeat' constructor

/-- A refusal is READY without data. -/
@[simp] theorem refuse_slot (r : ResultCode) (s : State) : (refuse r s).hpt.slot = .ready { result := r, data := [] } := rfl

/-- An acceptance changes the response slot and the next tag. -/
@[simp] theorem acceptRequest_keeps (s : State) :
    (acceptRequest s).pending = s.pending ∧ (acceptRequest s).power = s.power ∧
    (acceptRequest s).hpt.runState = s.hpt.runState ∧ (acceptRequest s).hpt.straps = s.hpt.straps ∧
    (acceptRequest s).hpt.configured = s.hpt.configured ∧ (acceptRequest s).hpt.miso = s.hpt.miso ∧
    (acceptRequest s).hpt.ring = s.hpt.ring ∧ (acceptRequest s).hpt.events = s.hpt.events ∧
    (acceptRequest s).hpt.overflow = s.hpt.overflow ∧
    (acceptRequest s).hpt.timeOfDay = s.hpt.timeOfDay ∧ (acceptRequest s).wch = s.wch ∧
    (acceptRequest s).cap = s.cap ∧ (acceptRequest s).lbl = s.lbl ∧ (acceptRequest s).lnk = s.lnk ∧
    (acceptRequest s).tkt = s.tkt ∧ (acceptRequest s).clt = s.clt ∧ (acceptRequest s).day = s.day ∧
    (acceptRequest s).tst = s.tst ∧ (acceptRequest s).hlm = s.hlm := by
  repeat' constructor

/-- An acceptance answers ACCEPTED with the tag, and the tag moves on. -/
@[simp] theorem acceptRequest_port (s : State) :
    (acceptRequest s).hpt.slot = .ready { result := .accepted, data := [.num 1 s.hpt.nextTag] }
      ∧ (acceptRequest s).hpt.nextTag = nextTagAfter s.hpt.nextTag := ⟨rfl, rfl⟩

/-- A fault report changes the fault pointers and the operation list. -/
@[simp] theorem recordFault_keeps (k : FaultKind) (s : State) :
    (recordFault k s).pending = s.pending ∧ (recordFault k s).power = s.power ∧
    (recordFault k s).hpt = s.hpt ∧ (recordFault k s).wch = s.wch ∧ (recordFault k s).cap = s.cap ∧
    (recordFault k s).lbl = s.lbl ∧ (recordFault k s).lnk = s.lnk ∧ (recordFault k s).tkt = s.tkt ∧
    (recordFault k s).clt = s.clt ∧ (recordFault k s).day = s.day ∧
    (recordFault k s).tst.mem = s.tst.mem ∧ (recordFault k s).tst.latch = s.tst.latch ∧
    (recordFault k s).tst.scrubPointer = s.tst.scrubPointer ∧
    (recordFault k s).tst.scrubPending = s.tst.scrubPending ∧
    (recordFault k s).tst.activity = s.tst.activity ∧ (recordFault k s).tst.walk = s.tst.walk ∧
    (recordFault k s).tst.walkResult = s.tst.walkResult ∧
    (recordFault k s).hlm.attributes = s.hlm.attributes := by
  repeat' constructor

/-- A posting changes the operation list alone. -/
@[simp] theorem post_keeps (l : List (Nat × Nat)) (s : State) :
    (post l s).pending = s.pending ∧ (post l s).power = s.power ∧ (post l s).hpt = s.hpt ∧
    (post l s).wch = s.wch ∧ (post l s).cap = s.cap ∧ (post l s).lbl = s.lbl ∧ (post l s).lnk = s.lnk ∧
    (post l s).tkt = s.tkt ∧ (post l s).clt = s.clt ∧ (post l s).day = s.day ∧
    (post l s).tst.mem = s.tst.mem ∧ (post l s).tst.latch = s.tst.latch ∧
    (post l s).tst.scrubPointer = s.tst.scrubPointer ∧
    (post l s).tst.scrubPending = s.tst.scrubPending ∧ (post l s).tst.activity = s.tst.activity ∧
    (post l s).tst.walk = s.tst.walk ∧ (post l s).tst.walkResult = s.tst.walkResult ∧
    (post l s).hlm = s.hlm := by
  repeat' constructor

/-- A posting changes the operation list alone. -/
@[simp] theorem postCustomer_keeps (clerk amount : Nat) (s : State) :
    (postCustomer clerk amount s).pending = s.pending ∧ (postCustomer clerk amount s).power = s.power ∧
    (postCustomer clerk amount s).hpt = s.hpt ∧ (postCustomer clerk amount s).wch = s.wch ∧
    (postCustomer clerk amount s).cap = s.cap ∧ (postCustomer clerk amount s).lbl = s.lbl ∧
    (postCustomer clerk amount s).lnk = s.lnk ∧ (postCustomer clerk amount s).tkt = s.tkt ∧
    (postCustomer clerk amount s).clt = s.clt ∧ (postCustomer clerk amount s).day = s.day ∧
    (postCustomer clerk amount s).tst.mem = s.tst.mem ∧
    (postCustomer clerk amount s).tst.latch = s.tst.latch ∧
    (postCustomer clerk amount s).tst.scrubPointer = s.tst.scrubPointer ∧
    (postCustomer clerk amount s).tst.scrubPending = s.tst.scrubPending ∧
    (postCustomer clerk amount s).tst.activity = s.tst.activity ∧
    (postCustomer clerk amount s).tst.walk = s.tst.walk ∧
    (postCustomer clerk amount s).tst.walkResult = s.tst.walkResult ∧
    (postCustomer clerk amount s).hlm = s.hlm := by
  repeat' constructor

/-- A posting changes the operation list alone. -/
@[simp] theorem postVoid_keeps (price : Nat) (s : State) :
    (postVoid price s).pending = s.pending ∧ (postVoid price s).power = s.power ∧
    (postVoid price s).hpt = s.hpt ∧ (postVoid price s).wch = s.wch ∧ (postVoid price s).cap = s.cap ∧
    (postVoid price s).lbl = s.lbl ∧ (postVoid price s).lnk = s.lnk ∧ (postVoid price s).tkt = s.tkt ∧
    (postVoid price s).clt = s.clt ∧ (postVoid price s).day = s.day ∧
    (postVoid price s).tst.mem = s.tst.mem ∧ (postVoid price s).tst.latch = s.tst.latch ∧
    (postVoid price s).tst.scrubPointer = s.tst.scrubPointer ∧
    (postVoid price s).tst.scrubPending = s.tst.scrubPending ∧
    (postVoid price s).tst.activity = s.tst.activity ∧ (postVoid price s).tst.walk = s.tst.walk ∧
    (postVoid price s).tst.walkResult = s.tst.walkResult ∧ (postVoid price s).hlm = s.hlm := by
  repeat' constructor

/-- A posting changes the operation list alone. -/
@[simp] theorem postCancel_keeps (amount : Nat) (s : State) :
    (postCancel amount s).pending = s.pending ∧ (postCancel amount s).power = s.power ∧
    (postCancel amount s).hpt = s.hpt ∧ (postCancel amount s).wch = s.wch ∧
    (postCancel amount s).cap = s.cap ∧ (postCancel amount s).lbl = s.lbl ∧
    (postCancel amount s).lnk = s.lnk ∧ (postCancel amount s).tkt = s.tkt ∧
    (postCancel amount s).clt = s.clt ∧ (postCancel amount s).day = s.day ∧
    (postCancel amount s).tst.mem = s.tst.mem ∧ (postCancel amount s).tst.latch = s.tst.latch ∧
    (postCancel amount s).tst.scrubPointer = s.tst.scrubPointer ∧
    (postCancel amount s).tst.scrubPending = s.tst.scrubPending ∧
    (postCancel amount s).tst.activity = s.tst.activity ∧ (postCancel amount s).tst.walk = s.tst.walk ∧
    (postCancel amount s).tst.walkResult = s.tst.walkResult ∧ (postCancel amount s).hlm = s.hlm := by
  repeat' constructor

/-- A posting changes the operation list alone. -/
@[simp] theorem postUnattached_keeps (price : Nat) (s : State) :
    (postUnattached price s).pending = s.pending ∧ (postUnattached price s).power = s.power ∧
    (postUnattached price s).hpt = s.hpt ∧ (postUnattached price s).wch = s.wch ∧
    (postUnattached price s).cap = s.cap ∧ (postUnattached price s).lbl = s.lbl ∧
    (postUnattached price s).lnk = s.lnk ∧ (postUnattached price s).tkt = s.tkt ∧
    (postUnattached price s).clt = s.clt ∧ (postUnattached price s).day = s.day ∧
    (postUnattached price s).tst.mem = s.tst.mem ∧ (postUnattached price s).tst.latch = s.tst.latch ∧
    (postUnattached price s).tst.scrubPointer = s.tst.scrubPointer ∧
    (postUnattached price s).tst.scrubPending = s.tst.scrubPending ∧
    (postUnattached price s).tst.activity = s.tst.activity ∧
    (postUnattached price s).tst.walk = s.tst.walk ∧
    (postUnattached price s).tst.walkResult = s.tst.walkResult ∧
    (postUnattached price s).hlm = s.hlm := by
  repeat' constructor

/-- A posting changes the operation list alone. -/
@[simp] theorem postNoSale_keeps (s : State) :
    (postNoSale s).pending = s.pending ∧ (postNoSale s).power = s.power ∧ (postNoSale s).hpt = s.hpt ∧
    (postNoSale s).wch = s.wch ∧ (postNoSale s).cap = s.cap ∧ (postNoSale s).lbl = s.lbl ∧
    (postNoSale s).lnk = s.lnk ∧ (postNoSale s).tkt = s.tkt ∧ (postNoSale s).clt = s.clt ∧
    (postNoSale s).day = s.day ∧ (postNoSale s).tst.mem = s.tst.mem ∧
    (postNoSale s).tst.latch = s.tst.latch ∧ (postNoSale s).tst.scrubPointer = s.tst.scrubPointer ∧
    (postNoSale s).tst.scrubPending = s.tst.scrubPending ∧
    (postNoSale s).tst.activity = s.tst.activity ∧ (postNoSale s).tst.walk = s.tst.walk ∧
    (postNoSale s).tst.walkResult = s.tst.walkResult ∧ (postNoSale s).hlm = s.hlm := by
  repeat' constructor

/-- A posting changes the operation list alone. -/
@[simp] theorem postHeldDiscarded_keeps (s : State) :
    (postHeldDiscarded s).pending = s.pending ∧ (postHeldDiscarded s).power = s.power ∧
    (postHeldDiscarded s).hpt = s.hpt ∧ (postHeldDiscarded s).wch = s.wch ∧
    (postHeldDiscarded s).cap = s.cap ∧ (postHeldDiscarded s).lbl = s.lbl ∧
    (postHeldDiscarded s).lnk = s.lnk ∧ (postHeldDiscarded s).tkt = s.tkt ∧
    (postHeldDiscarded s).clt = s.clt ∧ (postHeldDiscarded s).day = s.day ∧
    (postHeldDiscarded s).tst.mem = s.tst.mem ∧ (postHeldDiscarded s).tst.latch = s.tst.latch ∧
    (postHeldDiscarded s).tst.scrubPointer = s.tst.scrubPointer ∧
    (postHeldDiscarded s).tst.scrubPending = s.tst.scrubPending ∧
    (postHeldDiscarded s).tst.activity = s.tst.activity ∧ (postHeldDiscarded s).tst.walk = s.tst.walk ∧
    (postHeldDiscarded s).tst.walkResult = s.tst.walkResult ∧ (postHeldDiscarded s).hlm = s.hlm := by
  repeat' constructor

/-- Entering the ring changes the ring alone. -/
@[simp] theorem enterRing_keeps (code : Byte) (params : List Byte) (s : State) :
    (enterRing code params s).pending = s.pending ∧ (enterRing code params s).power = s.power ∧
    (enterRing code params s).hpt.runState = s.hpt.runState ∧
    (enterRing code params s).hpt.straps = s.hpt.straps ∧
    (enterRing code params s).hpt.configured = s.hpt.configured ∧
    (enterRing code params s).hpt.slot = s.hpt.slot ∧ (enterRing code params s).hpt.miso = s.hpt.miso ∧
    (enterRing code params s).hpt.nextTag = s.hpt.nextTag ∧
    (enterRing code params s).hpt.events = s.hpt.events ∧
    (enterRing code params s).hpt.overflow = s.hpt.overflow ∧
    (enterRing code params s).hpt.timeOfDay = s.hpt.timeOfDay ∧ (enterRing code params s).wch = s.wch ∧
    (enterRing code params s).cap = s.cap ∧ (enterRing code params s).lbl = s.lbl ∧
    (enterRing code params s).lnk = s.lnk ∧ (enterRing code params s).tkt = s.tkt ∧
    (enterRing code params s).clt = s.clt ∧ (enterRing code params s).day = s.day ∧
    (enterRing code params s).tst = s.tst ∧ (enterRing code params s).hlm = s.hlm := by
  repeat' constructor

/-- A request that reads the store changes the slot and the operation list. -/
@[simp] theorem awaitRead_keeps (l : List Nat) (p : ReadPurpose) (s : State) :
    (awaitRead l p s).pending = s.pending ∧ (awaitRead l p s).power = s.power ∧
    (awaitRead l p s).hpt.runState = s.hpt.runState ∧ (awaitRead l p s).hpt.straps = s.hpt.straps ∧
    (awaitRead l p s).hpt.configured = s.hpt.configured ∧ (awaitRead l p s).hpt.miso = s.hpt.miso ∧
    (awaitRead l p s).hpt.nextTag = s.hpt.nextTag ∧ (awaitRead l p s).hpt.ring = s.hpt.ring ∧
    (awaitRead l p s).hpt.events = s.hpt.events ∧ (awaitRead l p s).hpt.overflow = s.hpt.overflow ∧
    (awaitRead l p s).hpt.timeOfDay = s.hpt.timeOfDay ∧ (awaitRead l p s).wch = s.wch ∧
    (awaitRead l p s).cap = s.cap ∧ (awaitRead l p s).lbl = s.lbl ∧ (awaitRead l p s).lnk = s.lnk ∧
    (awaitRead l p s).tkt = s.tkt ∧ (awaitRead l p s).clt = s.clt ∧ (awaitRead l p s).day = s.day ∧
    (awaitRead l p s).tst.mem = s.tst.mem ∧ (awaitRead l p s).tst.latch = s.tst.latch ∧
    (awaitRead l p s).tst.scrubPointer = s.tst.scrubPointer ∧
    (awaitRead l p s).tst.scrubPending = s.tst.scrubPending ∧
    (awaitRead l p s).tst.activity = s.tst.activity ∧ (awaitRead l p s).tst.walk = s.tst.walk ∧
    (awaitRead l p s).tst.walkResult = s.tst.walkResult ∧ (awaitRead l p s).hlm = s.hlm := by
  repeat' constructor

/-- Placing a record changes the label unit's list and working values, and the operation list. -/
@[simp] theorem placeLabel_keeps (clerk : Nat) (b : LabelBody) (s : State) :
    (placeLabel clerk b s).pending = s.pending ∧ (placeLabel clerk b s).power = s.power ∧
    (placeLabel clerk b s).hpt = s.hpt ∧ (placeLabel clerk b s).wch = s.wch ∧
    (placeLabel clerk b s).cap = s.cap ∧ (placeLabel clerk b s).lbl.reservations = s.lbl.reservations ∧
    (placeLabel clerk b s).lnk = s.lnk ∧ (placeLabel clerk b s).tkt = s.tkt ∧
    (placeLabel clerk b s).clt = s.clt ∧ (placeLabel clerk b s).day = s.day ∧
    (placeLabel clerk b s).tst.mem = s.tst.mem ∧ (placeLabel clerk b s).tst.latch = s.tst.latch ∧
    (placeLabel clerk b s).tst.scrubPointer = s.tst.scrubPointer ∧
    (placeLabel clerk b s).tst.scrubPending = s.tst.scrubPending ∧
    (placeLabel clerk b s).tst.activity = s.tst.activity ∧
    (placeLabel clerk b s).tst.walk = s.tst.walk ∧
    (placeLabel clerk b s).tst.walkResult = s.tst.walkResult ∧ (placeLabel clerk b s).hlm = s.hlm := by
  repeat' constructor

/-- A reservation changes the count alone. -/
@[simp] theorem reserveLabel_keeps (s : State) :
    (reserveLabel s).pending = s.pending ∧ (reserveLabel s).power = s.power ∧
    (reserveLabel s).hpt = s.hpt ∧ (reserveLabel s).wch = s.wch ∧ (reserveLabel s).cap = s.cap ∧
    (reserveLabel s).lbl.records = s.lbl.records ∧ (reserveLabel s).lbl.nextSerial = s.lbl.nextSerial ∧
    (reserveLabel s).lbl.newest = s.lbl.newest ∧ (reserveLabel s).lnk = s.lnk ∧
    (reserveLabel s).tkt = s.tkt ∧ (reserveLabel s).clt = s.clt ∧ (reserveLabel s).day = s.day ∧
    (reserveLabel s).tst = s.tst ∧ (reserveLabel s).hlm = s.hlm := by
  repeat' constructor

/-- Freeing a reservation changes the count alone. -/
@[simp] theorem freeReservation_keeps (s : State) :
    (freeReservation s).pending = s.pending ∧ (freeReservation s).power = s.power ∧
    (freeReservation s).hpt = s.hpt ∧ (freeReservation s).wch = s.wch ∧
    (freeReservation s).cap = s.cap ∧ (freeReservation s).lbl.records = s.lbl.records ∧
    (freeReservation s).lbl.nextSerial = s.lbl.nextSerial ∧
    (freeReservation s).lbl.newest = s.lbl.newest ∧ (freeReservation s).lnk = s.lnk ∧
    (freeReservation s).tkt = s.tkt ∧ (freeReservation s).clt = s.clt ∧
    (freeReservation s).day = s.day ∧ (freeReservation s).tst = s.tst ∧
    (freeReservation s).hlm = s.hlm := by
  repeat' constructor

/-- Filling a reservation changes the label unit and the operation list. -/
@[simp] theorem fillReservation_keeps (clerk : Nat) (b : LabelBody) (s : State) :
    (fillReservation clerk b s).pending = s.pending ∧ (fillReservation clerk b s).power = s.power ∧
    (fillReservation clerk b s).hpt = s.hpt ∧ (fillReservation clerk b s).wch = s.wch ∧
    (fillReservation clerk b s).cap = s.cap ∧ (fillReservation clerk b s).lnk = s.lnk ∧
    (fillReservation clerk b s).tkt = s.tkt ∧ (fillReservation clerk b s).clt = s.clt ∧
    (fillReservation clerk b s).day = s.day ∧ (fillReservation clerk b s).tst.mem = s.tst.mem ∧
    (fillReservation clerk b s).tst.latch = s.tst.latch ∧
    (fillReservation clerk b s).tst.scrubPointer = s.tst.scrubPointer ∧
    (fillReservation clerk b s).tst.scrubPending = s.tst.scrubPending ∧
    (fillReservation clerk b s).tst.activity = s.tst.activity ∧
    (fillReservation clerk b s).tst.walk = s.tst.walk ∧
    (fillReservation clerk b s).tst.walkResult = s.tst.walkResult ∧
    (fillReservation clerk b s).hlm = s.hlm := by
  repeat' constructor

/-- Replacing an order changes the orders alone. -/
@[simp] theorem putOrder_keeps (clerk : Nat) (x : Order) (s : State) :
    (putOrder clerk x s).pending = s.pending ∧ (putOrder clerk x s).power = s.power ∧
    (putOrder clerk x s).hpt = s.hpt ∧ (putOrder clerk x s).wch = s.wch ∧
    (putOrder clerk x s).cap = s.cap ∧ (putOrder clerk x s).lbl = s.lbl ∧
    (putOrder clerk x s).lnk = s.lnk ∧ (putOrder clerk x s).tkt = s.tkt ∧
    (putOrder clerk x s).clt.expiryMinutes = s.clt.expiryMinutes ∧
    (putOrder clerk x s).clt.censusOpen = s.clt.censusOpen ∧ (putOrder clerk x s).day = s.day ∧
    (putOrder clerk x s).tst = s.tst ∧ (putOrder clerk x s).hlm = s.hlm := by
  repeat' constructor

/-- Freeing an order changes the orders alone. -/
@[simp] theorem freeOrder_keeps (clerk : Nat) (s : State) :
    (freeOrder clerk s).pending = s.pending ∧ (freeOrder clerk s).power = s.power ∧
    (freeOrder clerk s).hpt = s.hpt ∧ (freeOrder clerk s).wch = s.wch ∧
    (freeOrder clerk s).cap = s.cap ∧ (freeOrder clerk s).lbl = s.lbl ∧
    (freeOrder clerk s).lnk = s.lnk ∧ (freeOrder clerk s).tkt = s.tkt ∧
    (freeOrder clerk s).clt.expiryMinutes = s.clt.expiryMinutes ∧
    (freeOrder clerk s).clt.censusOpen = s.clt.censusOpen ∧ (freeOrder clerk s).day = s.day ∧
    (freeOrder clerk s).tst = s.tst ∧ (freeOrder clerk s).hlm = s.hlm := by
  repeat' constructor

/-- A frame about an order changes the orders alone. -/
@[simp] theorem touchOrder_keeps (clerk holder : Nat) (x : Order) (s : State) :
    (touchOrder clerk holder x s).pending = s.pending ∧ (touchOrder clerk holder x s).power = s.power ∧
    (touchOrder clerk holder x s).hpt = s.hpt ∧ (touchOrder clerk holder x s).wch = s.wch ∧
    (touchOrder clerk holder x s).cap = s.cap ∧ (touchOrder clerk holder x s).lbl = s.lbl ∧
    (touchOrder clerk holder x s).lnk = s.lnk ∧ (touchOrder clerk holder x s).tkt = s.tkt ∧
    (touchOrder clerk holder x s).clt.expiryMinutes = s.clt.expiryMinutes ∧
    (touchOrder clerk holder x s).clt.censusOpen = s.clt.censusOpen ∧
    (touchOrder clerk holder x s).day = s.day ∧ (touchOrder clerk holder x s).tst = s.tst ∧
    (touchOrder clerk holder x s).hlm = s.hlm := by
  repeat' constructor

/-- A frame placed changes the transmit queue alone. -/
@[simp] theorem enqueue_keeps (f : TxFrame) (s : State) :
    (enqueue f s).pending = s.pending ∧ (enqueue f s).power = s.power ∧ (enqueue f s).hpt = s.hpt ∧
    (enqueue f s).wch = s.wch ∧ (enqueue f s).cap = s.cap ∧ (enqueue f s).lbl = s.lbl ∧
    (enqueue f s).lnk.state = s.lnk.state ∧ (enqueue f s).lnk.attempt = s.lnk.attempt ∧
    (enqueue f s).lnk.attemptCount = s.lnk.attemptCount ∧
    (enqueue f s).lnk.formWaiting = s.lnk.formWaiting ∧ (enqueue f s).lnk.backlog = s.lnk.backlog ∧
    (enqueue f s).lnk.roster = s.lnk.roster ∧ (enqueue f s).lnk.clash = s.lnk.clash ∧
    (enqueue f s).lnk.censusTimer = s.lnk.censusTimer ∧
    (enqueue f s).lnk.beaconTimer = s.lnk.beaconTimer ∧ (enqueue f s).lnk.drive = s.lnk.drive ∧
    (enqueue f s).tkt = s.tkt ∧ (enqueue f s).clt = s.clt ∧ (enqueue f s).day = s.day ∧
    (enqueue f s).tst = s.tst ∧ (enqueue f s).hlm = s.hlm := by
  repeat' constructor

/-- A frame placed joins the tail. -/
@[simp] theorem enqueue_queue (f : TxFrame) (s : State) : (enqueue f s).lnk.queue = s.lnk.queue ++ [f] := rfl

/-- A request that places a frame changes the queue, the slot and the next tag. -/
@[simp] theorem placeFrame_keeps (f : Nat → TxFrame) (s : State) :
    (placeFrame f s).pending = s.pending ∧ (placeFrame f s).power = s.power ∧
    (placeFrame f s).hpt.runState = s.hpt.runState ∧ (placeFrame f s).hpt.straps = s.hpt.straps ∧
    (placeFrame f s).hpt.configured = s.hpt.configured ∧ (placeFrame f s).hpt.miso = s.hpt.miso ∧
    (placeFrame f s).hpt.ring = s.hpt.ring ∧ (placeFrame f s).hpt.events = s.hpt.events ∧
    (placeFrame f s).hpt.overflow = s.hpt.overflow ∧ (placeFrame f s).hpt.timeOfDay = s.hpt.timeOfDay ∧
    (placeFrame f s).wch = s.wch ∧ (placeFrame f s).cap = s.cap ∧ (placeFrame f s).lbl = s.lbl ∧
    (placeFrame f s).lnk.state = s.lnk.state ∧ (placeFrame f s).lnk.attempt = s.lnk.attempt ∧
    (placeFrame f s).lnk.attemptCount = s.lnk.attemptCount ∧
    (placeFrame f s).lnk.formWaiting = s.lnk.formWaiting ∧
    (placeFrame f s).lnk.backlog = s.lnk.backlog ∧ (placeFrame f s).lnk.roster = s.lnk.roster ∧
    (placeFrame f s).lnk.clash = s.lnk.clash ∧ (placeFrame f s).lnk.censusTimer = s.lnk.censusTimer ∧
    (placeFrame f s).lnk.beaconTimer = s.lnk.beaconTimer ∧ (placeFrame f s).lnk.drive = s.lnk.drive ∧
    (placeFrame f s).tkt = s.tkt ∧ (placeFrame f s).clt = s.clt ∧ (placeFrame f s).day = s.day ∧
    (placeFrame f s).tst = s.tst ∧ (placeFrame f s).hlm = s.hlm := by
  repeat' constructor

/-- Removing the head changes the queue and the attempt count. -/
@[simp] theorem dropHead_keeps (s : State) :
    (dropHead s).pending = s.pending ∧ (dropHead s).power = s.power ∧ (dropHead s).hpt = s.hpt ∧
    (dropHead s).wch = s.wch ∧ (dropHead s).cap = s.cap ∧ (dropHead s).lbl = s.lbl ∧
    (dropHead s).lnk.state = s.lnk.state ∧ (dropHead s).lnk.attempt = s.lnk.attempt ∧
    (dropHead s).lnk.formWaiting = s.lnk.formWaiting ∧ (dropHead s).lnk.backlog = s.lnk.backlog ∧
    (dropHead s).lnk.roster = s.lnk.roster ∧ (dropHead s).lnk.clash = s.lnk.clash ∧
    (dropHead s).lnk.censusTimer = s.lnk.censusTimer ∧
    (dropHead s).lnk.beaconTimer = s.lnk.beaconTimer ∧ (dropHead s).lnk.drive = s.lnk.drive ∧
    (dropHead s).tkt = s.tkt ∧ (dropHead s).clt = s.clt ∧ (dropHead s).day = s.day ∧
    (dropHead s).tst = s.tst ∧ (dropHead s).hlm = s.hlm := by
  repeat' constructor

/-- A sender that stops changes its attempt alone. -/
@[simp] theorem stopSending_keeps (s : State) :
    (stopSending s).pending = s.pending ∧ (stopSending s).power = s.power ∧
    (stopSending s).hpt = s.hpt ∧ (stopSending s).wch = s.wch ∧ (stopSending s).cap = s.cap ∧
    (stopSending s).lbl = s.lbl ∧ (stopSending s).lnk.state = s.lnk.state ∧
    (stopSending s).lnk.queue = s.lnk.queue ∧ (stopSending s).lnk.attemptCount = s.lnk.attemptCount ∧
    (stopSending s).lnk.backlog = s.lnk.backlog ∧ (stopSending s).lnk.roster = s.lnk.roster ∧
    (stopSending s).lnk.clash = s.lnk.clash ∧ (stopSending s).lnk.censusTimer = s.lnk.censusTimer ∧
    (stopSending s).lnk.beaconTimer = s.lnk.beaconTimer ∧ (stopSending s).tkt = s.tkt ∧
    (stopSending s).clt = s.clt ∧ (stopSending s).day = s.day ∧ (stopSending s).tst = s.tst ∧
    (stopSending s).hlm = s.hlm := by
  repeat' constructor

/-- Restarting the watchdog changes it alone. -/
@[simp] theorem restartWatchdog_keeps (s : State) :
    (restartWatchdog s).pending = s.pending ∧ (restartWatchdog s).power = s.power ∧
    (restartWatchdog s).hpt = s.hpt ∧ (restartWatchdog s).wch.rate = s.wch.rate ∧
    (restartWatchdog s).wch.filterLength = s.wch.filterLength ∧
    (restartWatchdog s).wch.windowLength = s.wch.windowLength ∧
    (restartWatchdog s).wch.tracking = s.wch.tracking ∧ (restartWatchdog s).wch.zcal = s.wch.zcal ∧
    (restartWatchdog s).wch.span = s.wch.span ∧ (restartWatchdog s).wch.clamp = s.wch.clamp ∧
    (restartWatchdog s).wch.filter = s.wch.filter ∧ (restartWatchdog s).wch.window = s.wch.window ∧
    (restartWatchdog s).wch.gross = s.wch.gross ∧ (restartWatchdog s).wch.state = s.wch.state ∧
    (restartWatchdog s).wch.zadj = s.wch.zadj ∧ (restartWatchdog s).wch.zref = s.wch.zref ∧
    (restartWatchdog s).wch.zeroTaken = s.wch.zeroTaken ∧ (restartWatchdog s).wch.tare = s.wch.tare ∧
    (restartWatchdog s).wch.trackCount = s.wch.trackCount ∧
    (restartWatchdog s).wch.restorePending = s.wch.restorePending ∧ (restartWatchdog s).cap = s.cap ∧
    (restartWatchdog s).lbl = s.lbl ∧ (restartWatchdog s).lnk = s.lnk ∧
    (restartWatchdog s).tkt = s.tkt ∧ (restartWatchdog s).clt = s.clt ∧
    (restartWatchdog s).day = s.day ∧ (restartWatchdog s).tst = s.tst ∧
    (restartWatchdog s).hlm = s.hlm := by
  repeat' constructor

/-- A zero taken changes the adjustment, the gross and the window. -/
@[simp] theorem takeZero_keeps (z : Int) (s : State) :
    (takeZero z s).pending = s.pending ∧ (takeZero z s).power = s.power ∧ (takeZero z s).hpt = s.hpt ∧
    (takeZero z s).wch.rate = s.wch.rate ∧ (takeZero z s).wch.filterLength = s.wch.filterLength ∧
    (takeZero z s).wch.windowLength = s.wch.windowLength ∧
    (takeZero z s).wch.tracking = s.wch.tracking ∧ (takeZero z s).wch.zcal = s.wch.zcal ∧
    (takeZero z s).wch.span = s.wch.span ∧ (takeZero z s).wch.clamp = s.wch.clamp ∧
    (takeZero z s).wch.filter = s.wch.filter ∧ (takeZero z s).wch.state = s.wch.state ∧
    (takeZero z s).wch.zref = s.wch.zref ∧ (takeZero z s).wch.zeroTaken = s.wch.zeroTaken ∧
    (takeZero z s).wch.tare = s.wch.tare ∧ (takeZero z s).wch.trackCount = s.wch.trackCount ∧
    (takeZero z s).wch.watchdog = s.wch.watchdog ∧
    (takeZero z s).wch.restorePending = s.wch.restorePending ∧ (takeZero z s).cap = s.cap ∧
    (takeZero z s).lbl = s.lbl ∧ (takeZero z s).lnk = s.lnk ∧ (takeZero z s).tkt = s.tkt ∧
    (takeZero z s).clt = s.clt ∧ (takeZero z s).day = s.day ∧ (takeZero z s).tst = s.tst ∧
    (takeZero z s).hlm = s.hlm := by
  repeat' constructor

/-- Taking a ticket off the list changes the list alone. -/
@[simp] theorem unlist_keeps (n : Nat) (s : State) :
    (unlist n s).pending = s.pending ∧ (unlist n s).power = s.power ∧ (unlist n s).hpt = s.hpt ∧
    (unlist n s).wch = s.wch ∧ (unlist n s).cap = s.cap ∧ (unlist n s).lbl = s.lbl ∧
    (unlist n s).lnk = s.lnk ∧ (unlist n s).tkt.config = s.tkt.config ∧
    (unlist n s).tkt.issued = s.tkt.issued ∧ (unlist n s).tkt.called = s.tkt.called ∧
    (unlist n s).tkt.nowServing = s.tkt.nowServing ∧ (unlist n s).tkt.passes = s.tkt.passes ∧
    (unlist n s).tkt.conflict = s.tkt.conflict ∧ (unlist n s).clt = s.clt ∧ (unlist n s).day = s.day ∧
    (unlist n s).tst = s.tst ∧ (unlist n s).hlm = s.hlm := by
  repeat' constructor

/-- A rebuild changes the waiting list alone. -/
@[simp] theorem rebuildWaiting_keeps (s : State) :
    (rebuildWaiting s).pending = s.pending ∧ (rebuildWaiting s).power = s.power ∧
    (rebuildWaiting s).hpt = s.hpt ∧ (rebuildWaiting s).wch = s.wch ∧ (rebuildWaiting s).cap = s.cap ∧
    (rebuildWaiting s).lbl = s.lbl ∧ (rebuildWaiting s).lnk = s.lnk ∧
    (rebuildWaiting s).tkt.config = s.tkt.config ∧ (rebuildWaiting s).tkt.issued = s.tkt.issued ∧
    (rebuildWaiting s).tkt.called = s.tkt.called ∧
    (rebuildWaiting s).tkt.nowServing = s.tkt.nowServing ∧
    (rebuildWaiting s).tkt.passes = s.tkt.passes ∧ (rebuildWaiting s).tkt.conflict = s.tkt.conflict ∧
    (rebuildWaiting s).clt = s.clt ∧ (rebuildWaiting s).day = s.day ∧ (rebuildWaiting s).tst = s.tst ∧
    (rebuildWaiting s).hlm = s.hlm := by
  repeat' constructor

/-- Emptying the ticket view keeps mode, wrap and the conflict flag. -/
@[simp] theorem emptyTicketView_keeps (s : State) :
    (emptyTicketView s).pending = s.pending ∧ (emptyTicketView s).power = s.power ∧
    (emptyTicketView s).hpt = s.hpt ∧ (emptyTicketView s).wch = s.wch ∧
    (emptyTicketView s).cap = s.cap ∧ (emptyTicketView s).lbl = s.lbl ∧
    (emptyTicketView s).lnk = s.lnk ∧ (emptyTicketView s).tkt.config = s.tkt.config ∧
    (emptyTicketView s).tkt.conflict = s.tkt.conflict ∧ (emptyTicketView s).clt = s.clt ∧
    (emptyTicketView s).day = s.day ∧ (emptyTicketView s).tst = s.tst ∧
    (emptyTicketView s).hlm = s.hlm := by
  repeat' constructor

/-- Freeing every order changes the orders alone. -/
@[simp] theorem freeAllOrders_keeps (s : State) :
    (freeAllOrders s).pending = s.pending ∧ (freeAllOrders s).power = s.power ∧
    (freeAllOrders s).hpt = s.hpt ∧ (freeAllOrders s).wch = s.wch ∧ (freeAllOrders s).cap = s.cap ∧
    (freeAllOrders s).lbl = s.lbl ∧ (freeAllOrders s).lnk = s.lnk ∧ (freeAllOrders s).tkt = s.tkt ∧
    (freeAllOrders s).clt.expiryMinutes = s.clt.expiryMinutes ∧
    (freeAllOrders s).clt.censusOpen = s.clt.censusOpen ∧ (freeAllOrders s).day = s.day ∧
    (freeAllOrders s).tst = s.tst ∧ (freeAllOrders s).hlm = s.hlm := by
  repeat' constructor

/-- The first step of a close start changes the day, the latch and the operation list. -/
@[simp] theorem moveDay_keeps (d : Nat) (s : State) :
    (moveDay d s).pending = s.pending ∧ (moveDay d s).power = s.power ∧ (moveDay d s).hpt = s.hpt ∧
    (moveDay d s).wch = s.wch ∧ (moveDay d s).cap = s.cap ∧ (moveDay d s).lbl = s.lbl ∧
    (moveDay d s).lnk = s.lnk ∧ (moveDay d s).tkt = s.tkt ∧ (moveDay d s).clt = s.clt ∧
    (moveDay d s).day.highest = s.day.highest ∧ (moveDay d s).day.behind = s.day.behind ∧
    (moveDay d s).day.deferred = s.day.deferred ∧
    (moveDay d s).day.copiesPending = s.day.copiesPending ∧
    (moveDay d s).day.newestSlot = s.day.newestSlot ∧ (moveDay d s).day.held = s.day.held ∧
    (moveDay d s).tst.mem = s.tst.mem ∧ (moveDay d s).tst.latch = s.tst.latch ∧
    (moveDay d s).tst.scrubPointer = s.tst.scrubPointer ∧
    (moveDay d s).tst.scrubPending = s.tst.scrubPending ∧ (moveDay d s).tst.activity = s.tst.activity ∧
    (moveDay d s).tst.walk = s.tst.walk ∧ (moveDay d s).tst.walkResult = s.tst.walkResult ∧
    (moveDay d s).hlm = s.hlm := by
  repeat' constructor

/-- The label serials start again. -/
@[simp] theorem restartSerials_keeps (s : State) :
    (restartSerials s).pending = s.pending ∧ (restartSerials s).power = s.power ∧
    (restartSerials s).hpt = s.hpt ∧ (restartSerials s).wch = s.wch ∧ (restartSerials s).cap = s.cap ∧
    (restartSerials s).lbl.records = s.lbl.records ∧
    (restartSerials s).lbl.reservations = s.lbl.reservations ∧
    (restartSerials s).lbl.newest = s.lbl.newest ∧ (restartSerials s).lnk = s.lnk ∧
    (restartSerials s).tkt = s.tkt ∧ (restartSerials s).clt = s.clt ∧ (restartSerials s).day = s.day ∧
    (restartSerials s).tst.mem = s.tst.mem ∧ (restartSerials s).tst.latch = s.tst.latch ∧
    (restartSerials s).tst.scrubPointer = s.tst.scrubPointer ∧
    (restartSerials s).tst.scrubPending = s.tst.scrubPending ∧
    (restartSerials s).tst.activity = s.tst.activity ∧ (restartSerials s).tst.walk = s.tst.walk ∧
    (restartSerials s).tst.walkResult = s.tst.walkResult ∧ (restartSerials s).hlm = s.hlm := by
  repeat' constructor

/-- Handing the close copy changes the record slots and the operation list. -/
@[simp] theorem handCopy_keeps (d : Nat) (c : LatchedClose) (s : State) :
    (handCopy d c s).pending = s.pending ∧ (handCopy d c s).power = s.power ∧
    (handCopy d c s).hpt = s.hpt ∧ (handCopy d c s).wch = s.wch ∧ (handCopy d c s).cap = s.cap ∧
    (handCopy d c s).lbl = s.lbl ∧ (handCopy d c s).lnk = s.lnk ∧ (handCopy d c s).tkt = s.tkt ∧
    (handCopy d c s).clt = s.clt ∧ (handCopy d c s).day.day = s.day.day ∧
    (handCopy d c s).day.highest = s.day.highest ∧ (handCopy d c s).day.behind = s.day.behind ∧
    (handCopy d c s).day.latch = s.day.latch ∧ (handCopy d c s).day.deferred = s.day.deferred ∧
    (handCopy d c s).tst.mem = s.tst.mem ∧ (handCopy d c s).tst.latch = s.tst.latch ∧
    (handCopy d c s).tst.scrubPointer = s.tst.scrubPointer ∧
    (handCopy d c s).tst.scrubPending = s.tst.scrubPending ∧
    (handCopy d c s).tst.activity = s.tst.activity ∧ (handCopy d c s).tst.walk = s.tst.walk ∧
    (handCopy d c s).tst.walkResult = s.tst.walkResult ∧ (handCopy d c s).hlm = s.hlm := by
  repeat' constructor

/-- Filling a DAYSUM changes the queue alone. -/
@[simp] theorem fillDaysum_keeps (d : Nat) (f : DayFigures) (s : State) :
    (fillDaysum d f s).pending = s.pending ∧ (fillDaysum d f s).power = s.power ∧
    (fillDaysum d f s).hpt = s.hpt ∧ (fillDaysum d f s).wch = s.wch ∧ (fillDaysum d f s).cap = s.cap ∧
    (fillDaysum d f s).lbl = s.lbl ∧ (fillDaysum d f s).lnk.state = s.lnk.state ∧
    (fillDaysum d f s).lnk.attempt = s.lnk.attempt ∧
    (fillDaysum d f s).lnk.attemptCount = s.lnk.attemptCount ∧
    (fillDaysum d f s).lnk.formWaiting = s.lnk.formWaiting ∧
    (fillDaysum d f s).lnk.backlog = s.lnk.backlog ∧ (fillDaysum d f s).lnk.roster = s.lnk.roster ∧
    (fillDaysum d f s).lnk.clash = s.lnk.clash ∧
    (fillDaysum d f s).lnk.censusTimer = s.lnk.censusTimer ∧
    (fillDaysum d f s).lnk.beaconTimer = s.lnk.beaconTimer ∧
    (fillDaysum d f s).lnk.drive = s.lnk.drive ∧ (fillDaysum d f s).tkt = s.tkt ∧
    (fillDaysum d f s).clt = s.clt ∧ (fillDaysum d f s).day = s.day ∧ (fillDaysum d f s).tst = s.tst ∧
    (fillDaysum d f s).hlm = s.hlm := by
  repeat' constructor

/-- Restarting the beacon timer changes it alone. -/
@[simp] theorem restartBeacon_keeps (s : State) :
    (restartBeacon s).pending = s.pending ∧ (restartBeacon s).power = s.power ∧
    (restartBeacon s).hpt = s.hpt ∧ (restartBeacon s).wch = s.wch ∧ (restartBeacon s).cap = s.cap ∧
    (restartBeacon s).lbl = s.lbl ∧ (restartBeacon s).lnk.state = s.lnk.state ∧
    (restartBeacon s).lnk.queue = s.lnk.queue ∧ (restartBeacon s).lnk.attempt = s.lnk.attempt ∧
    (restartBeacon s).lnk.attemptCount = s.lnk.attemptCount ∧
    (restartBeacon s).lnk.formWaiting = s.lnk.formWaiting ∧
    (restartBeacon s).lnk.backlog = s.lnk.backlog ∧ (restartBeacon s).lnk.roster = s.lnk.roster ∧
    (restartBeacon s).lnk.clash = s.lnk.clash ∧ (restartBeacon s).lnk.censusTimer = s.lnk.censusTimer ∧
    (restartBeacon s).lnk.drive = s.lnk.drive ∧ (restartBeacon s).tkt = s.tkt ∧
    (restartBeacon s).clt = s.clt ∧ (restartBeacon s).day = s.day ∧ (restartBeacon s).tst = s.tst ∧
    (restartBeacon s).hlm = s.hlm := by
  repeat' constructor

/-! ### Operations with cases -/

/-- An event changes the event queue, or the overflow count with a fault. -/
@[simp] theorem queueEvent_keeps (e : Event) (s : State) :
    (queueEvent e s).pending = s.pending ∧ (queueEvent e s).power = s.power ∧
    (queueEvent e s).hpt.runState = s.hpt.runState ∧ (queueEvent e s).hpt.straps = s.hpt.straps ∧
    (queueEvent e s).hpt.configured = s.hpt.configured ∧ (queueEvent e s).hpt.slot = s.hpt.slot ∧
    (queueEvent e s).hpt.miso = s.hpt.miso ∧ (queueEvent e s).hpt.nextTag = s.hpt.nextTag ∧
    (queueEvent e s).hpt.ring = s.hpt.ring ∧ (queueEvent e s).hpt.timeOfDay = s.hpt.timeOfDay ∧
    (queueEvent e s).wch = s.wch ∧ (queueEvent e s).cap = s.cap ∧ (queueEvent e s).lbl = s.lbl ∧
    (queueEvent e s).lnk = s.lnk ∧ (queueEvent e s).tkt = s.tkt ∧ (queueEvent e s).clt = s.clt ∧
    (queueEvent e s).day = s.day ∧ (queueEvent e s).tst.mem = s.tst.mem ∧
    (queueEvent e s).tst.latch = s.tst.latch ∧ (queueEvent e s).tst.scrubPointer = s.tst.scrubPointer ∧
    (queueEvent e s).tst.scrubPending = s.tst.scrubPending ∧
    (queueEvent e s).tst.activity = s.tst.activity ∧ (queueEvent e s).tst.walk = s.tst.walk ∧
    (queueEvent e s).tst.walkResult = s.tst.walkResult ∧
    (queueEvent e s).hlm.attributes = s.hlm.attributes := by
  unfold queueEvent; split <;> simp

/-- Moving an attribute changes the health monitor, and what its event and its record write change. -/
@[simp] theorem moveAttribute_keeps (a : Attribute) (raw : Nat) (s : State) :
    (moveAttribute a raw s).pending = s.pending ∧ (moveAttribute a raw s).power = s.power ∧
    (moveAttribute a raw s).hpt.runState = s.hpt.runState ∧
    (moveAttribute a raw s).hpt.straps = s.hpt.straps ∧
    (moveAttribute a raw s).hpt.configured = s.hpt.configured ∧
    (moveAttribute a raw s).hpt.slot = s.hpt.slot ∧ (moveAttribute a raw s).hpt.miso = s.hpt.miso ∧
    (moveAttribute a raw s).hpt.nextTag = s.hpt.nextTag ∧
    (moveAttribute a raw s).hpt.ring = s.hpt.ring ∧
    (moveAttribute a raw s).hpt.timeOfDay = s.hpt.timeOfDay ∧ (moveAttribute a raw s).wch = s.wch ∧
    (moveAttribute a raw s).cap = s.cap ∧ (moveAttribute a raw s).lbl = s.lbl ∧
    (moveAttribute a raw s).lnk = s.lnk ∧ (moveAttribute a raw s).tkt = s.tkt ∧
    (moveAttribute a raw s).clt = s.clt ∧ (moveAttribute a raw s).day = s.day ∧
    (moveAttribute a raw s).tst.mem = s.tst.mem ∧ (moveAttribute a raw s).tst.latch = s.tst.latch ∧
    (moveAttribute a raw s).tst.scrubPointer = s.tst.scrubPointer ∧
    (moveAttribute a raw s).tst.scrubPending = s.tst.scrubPending ∧
    (moveAttribute a raw s).tst.activity = s.tst.activity ∧
    (moveAttribute a raw s).tst.walk = s.tst.walk ∧
    (moveAttribute a raw s).tst.walkResult = s.tst.walkResult := by
  unfold moveAttribute; dsimp only; split
  · simp
  · split <;> simp

/-- Raising an attribute changes what moving it changes. -/
@[simp] theorem raiseAttribute_keeps (a : Attribute) (n : Nat) (s : State) :
    (raiseAttribute a n s).pending = s.pending ∧ (raiseAttribute a n s).power = s.power ∧
    (raiseAttribute a n s).hpt.runState = s.hpt.runState ∧
    (raiseAttribute a n s).hpt.straps = s.hpt.straps ∧
    (raiseAttribute a n s).hpt.configured = s.hpt.configured ∧
    (raiseAttribute a n s).hpt.slot = s.hpt.slot ∧ (raiseAttribute a n s).hpt.miso = s.hpt.miso ∧
    (raiseAttribute a n s).hpt.nextTag = s.hpt.nextTag ∧ (raiseAttribute a n s).hpt.ring = s.hpt.ring ∧
    (raiseAttribute a n s).hpt.timeOfDay = s.hpt.timeOfDay ∧ (raiseAttribute a n s).wch = s.wch ∧
    (raiseAttribute a n s).cap = s.cap ∧ (raiseAttribute a n s).lbl = s.lbl ∧
    (raiseAttribute a n s).lnk = s.lnk ∧ (raiseAttribute a n s).tkt = s.tkt ∧
    (raiseAttribute a n s).clt = s.clt ∧ (raiseAttribute a n s).day = s.day ∧
    (raiseAttribute a n s).tst.mem = s.tst.mem ∧ (raiseAttribute a n s).tst.latch = s.tst.latch ∧
    (raiseAttribute a n s).tst.scrubPointer = s.tst.scrubPointer ∧
    (raiseAttribute a n s).tst.scrubPending = s.tst.scrubPending ∧
    (raiseAttribute a n s).tst.activity = s.tst.activity ∧
    (raiseAttribute a n s).tst.walk = s.tst.walk ∧
    (raiseAttribute a n s).tst.walkResult = s.tst.walkResult := by
  unfold raiseAttribute; simp

/-- A mismatch changes the event queue and the health monitor, with their writes. -/
@[simp] theorem raiseMismatch_keeps (k : MismatchKind) (c t : Option Nat) (s : State) :
    (raiseMismatch k c t s).pending = s.pending ∧ (raiseMismatch k c t s).power = s.power ∧
    (raiseMismatch k c t s).hpt.runState = s.hpt.runState ∧
    (raiseMismatch k c t s).hpt.straps = s.hpt.straps ∧
    (raiseMismatch k c t s).hpt.configured = s.hpt.configured ∧
    (raiseMismatch k c t s).hpt.slot = s.hpt.slot ∧ (raiseMismatch k c t s).hpt.miso = s.hpt.miso ∧
    (raiseMismatch k c t s).hpt.nextTag = s.hpt.nextTag ∧
    (raiseMismatch k c t s).hpt.ring = s.hpt.ring ∧
    (raiseMismatch k c t s).hpt.timeOfDay = s.hpt.timeOfDay ∧ (raiseMismatch k c t s).wch = s.wch ∧
    (raiseMismatch k c t s).cap = s.cap ∧ (raiseMismatch k c t s).lbl = s.lbl ∧
    (raiseMismatch k c t s).lnk = s.lnk ∧ (raiseMismatch k c t s).tkt = s.tkt ∧
    (raiseMismatch k c t s).clt = s.clt ∧ (raiseMismatch k c t s).day = s.day ∧
    (raiseMismatch k c t s).tst.mem = s.tst.mem ∧ (raiseMismatch k c t s).tst.latch = s.tst.latch ∧
    (raiseMismatch k c t s).tst.scrubPointer = s.tst.scrubPointer ∧
    (raiseMismatch k c t s).tst.scrubPending = s.tst.scrubPending ∧
    (raiseMismatch k c t s).tst.activity = s.tst.activity ∧
    (raiseMismatch k c t s).tst.walk = s.tst.walk ∧
    (raiseMismatch k c t s).tst.walkResult = s.tst.walkResult := by
  unfold raiseMismatch; simp

/-- A completion is one event. -/
@[simp] theorem completeRequest_keeps (tag : Nat) (r : ResultCode) (t : Option Nat) (s : State) :
    (completeRequest tag r t s).pending = s.pending ∧ (completeRequest tag r t s).power = s.power ∧
    (completeRequest tag r t s).hpt.runState = s.hpt.runState ∧
    (completeRequest tag r t s).hpt.straps = s.hpt.straps ∧
    (completeRequest tag r t s).hpt.configured = s.hpt.configured ∧
    (completeRequest tag r t s).hpt.slot = s.hpt.slot ∧
    (completeRequest tag r t s).hpt.miso = s.hpt.miso ∧
    (completeRequest tag r t s).hpt.nextTag = s.hpt.nextTag ∧
    (completeRequest tag r t s).hpt.ring = s.hpt.ring ∧
    (completeRequest tag r t s).hpt.timeOfDay = s.hpt.timeOfDay ∧
    (completeRequest tag r t s).wch = s.wch ∧ (completeRequest tag r t s).cap = s.cap ∧
    (completeRequest tag r t s).lbl = s.lbl ∧ (completeRequest tag r t s).lnk = s.lnk ∧
    (completeRequest tag r t s).tkt = s.tkt ∧ (completeRequest tag r t s).clt = s.clt ∧
    (completeRequest tag r t s).day = s.day ∧ (completeRequest tag r t s).tst.mem = s.tst.mem ∧
    (completeRequest tag r t s).tst.latch = s.tst.latch ∧
    (completeRequest tag r t s).tst.scrubPointer = s.tst.scrubPointer ∧
    (completeRequest tag r t s).tst.scrubPending = s.tst.scrubPending ∧
    (completeRequest tag r t s).tst.activity = s.tst.activity ∧
    (completeRequest tag r t s).tst.walk = s.tst.walk ∧
    (completeRequest tag r t s).tst.walkResult = s.tst.walkResult ∧
    (completeRequest tag r t s).hlm.attributes = s.hlm.attributes := by
  unfold completeRequest; simp

/-- A late item is a posting, an event and a fault. -/
@[simp] theorem lateItem_keeps (f : ItemFrame) (r : LateReason) (s : State) :
    (lateItem f r s).pending = s.pending ∧ (lateItem f r s).power = s.power ∧
    (lateItem f r s).hpt.runState = s.hpt.runState ∧ (lateItem f r s).hpt.straps = s.hpt.straps ∧
    (lateItem f r s).hpt.configured = s.hpt.configured ∧ (lateItem f r s).hpt.slot = s.hpt.slot ∧
    (lateItem f r s).hpt.miso = s.hpt.miso ∧ (lateItem f r s).hpt.nextTag = s.hpt.nextTag ∧
    (lateItem f r s).hpt.ring = s.hpt.ring ∧ (lateItem f r s).hpt.timeOfDay = s.hpt.timeOfDay ∧
    (lateItem f r s).wch = s.wch ∧ (lateItem f r s).cap = s.cap ∧ (lateItem f r s).lbl = s.lbl ∧
    (lateItem f r s).lnk = s.lnk ∧ (lateItem f r s).tkt = s.tkt ∧ (lateItem f r s).clt = s.clt ∧
    (lateItem f r s).day = s.day ∧ (lateItem f r s).tst.mem = s.tst.mem ∧
    (lateItem f r s).tst.latch = s.tst.latch ∧ (lateItem f r s).tst.scrubPointer = s.tst.scrubPointer ∧
    (lateItem f r s).tst.scrubPending = s.tst.scrubPending ∧
    (lateItem f r s).tst.activity = s.tst.activity ∧ (lateItem f r s).tst.walk = s.tst.walk ∧
    (lateItem f r s).tst.walkResult = s.tst.walkResult ∧
    (lateItem f r s).hlm.attributes = s.hlm.attributes := by
  unfold lateItem; simp

/-- A completion at the sender is at most one event. -/
@[simp] theorem completeOwn_keeps (own : Option TxFrame) (r : ResultCode) (t : Option Nat) (s : State) :
    (completeOwn own r t s).pending = s.pending ∧ (completeOwn own r t s).power = s.power ∧
    (completeOwn own r t s).hpt.runState = s.hpt.runState ∧
    (completeOwn own r t s).hpt.straps = s.hpt.straps ∧
    (completeOwn own r t s).hpt.configured = s.hpt.configured ∧
    (completeOwn own r t s).hpt.slot = s.hpt.slot ∧ (completeOwn own r t s).hpt.miso = s.hpt.miso ∧
    (completeOwn own r t s).hpt.nextTag = s.hpt.nextTag ∧
    (completeOwn own r t s).hpt.ring = s.hpt.ring ∧
    (completeOwn own r t s).hpt.timeOfDay = s.hpt.timeOfDay ∧ (completeOwn own r t s).wch = s.wch ∧
    (completeOwn own r t s).cap = s.cap ∧ (completeOwn own r t s).lbl = s.lbl ∧
    (completeOwn own r t s).lnk = s.lnk ∧ (completeOwn own r t s).tkt = s.tkt ∧
    (completeOwn own r t s).clt = s.clt ∧ (completeOwn own r t s).day = s.day ∧
    (completeOwn own r t s).tst.mem = s.tst.mem ∧ (completeOwn own r t s).tst.latch = s.tst.latch ∧
    (completeOwn own r t s).tst.scrubPointer = s.tst.scrubPointer ∧
    (completeOwn own r t s).tst.scrubPending = s.tst.scrubPending ∧
    (completeOwn own r t s).tst.activity = s.tst.activity ∧
    (completeOwn own r t s).tst.walk = s.tst.walk ∧
    (completeOwn own r t s).tst.walkResult = s.tst.walkResult ∧
    (completeOwn own r t s).hlm.attributes = s.hlm.attributes := by
  unfold completeOwn; split <;> simp

/-- Restarting an expiry timer changes the orders alone. -/
@[simp] theorem restartExpiry_keeps (clerk : Nat) (s : State) :
    (restartExpiry clerk s).pending = s.pending ∧ (restartExpiry clerk s).power = s.power ∧
    (restartExpiry clerk s).hpt = s.hpt ∧ (restartExpiry clerk s).wch = s.wch ∧
    (restartExpiry clerk s).cap = s.cap ∧ (restartExpiry clerk s).lbl = s.lbl ∧
    (restartExpiry clerk s).lnk = s.lnk ∧ (restartExpiry clerk s).tkt = s.tkt ∧
    (restartExpiry clerk s).clt.expiryMinutes = s.clt.expiryMinutes ∧
    (restartExpiry clerk s).clt.censusOpen = s.clt.censusOpen ∧ (restartExpiry clerk s).day = s.day ∧
    (restartExpiry clerk s).tst = s.tst ∧ (restartExpiry clerk s).hlm = s.hlm := by
  unfold restartExpiry; split <;> simp

/-- A frame that ends otherwise than by acceptance changes the event queue, the reservations and an expiry timer. -/
@[simp] theorem endFrame_keeps (f : TxFrame) (e : FrameEnd) (s : State) :
    (endFrame f e s).pending = s.pending ∧ (endFrame f e s).power = s.power ∧
    (endFrame f e s).hpt.runState = s.hpt.runState ∧ (endFrame f e s).hpt.straps = s.hpt.straps ∧
    (endFrame f e s).hpt.configured = s.hpt.configured ∧ (endFrame f e s).hpt.slot = s.hpt.slot ∧
    (endFrame f e s).hpt.miso = s.hpt.miso ∧ (endFrame f e s).hpt.nextTag = s.hpt.nextTag ∧
    (endFrame f e s).hpt.ring = s.hpt.ring ∧ (endFrame f e s).hpt.timeOfDay = s.hpt.timeOfDay ∧
    (endFrame f e s).wch = s.wch ∧ (endFrame f e s).cap = s.cap ∧
    (endFrame f e s).lbl.records = s.lbl.records ∧ (endFrame f e s).lbl.nextSerial = s.lbl.nextSerial ∧
    (endFrame f e s).lbl.newest = s.lbl.newest ∧ (endFrame f e s).lnk = s.lnk ∧
    (endFrame f e s).tkt = s.tkt ∧ (endFrame f e s).clt.expiryMinutes = s.clt.expiryMinutes ∧
    (endFrame f e s).clt.censusOpen = s.clt.censusOpen ∧ (endFrame f e s).day = s.day ∧
    (endFrame f e s).tst.mem = s.tst.mem ∧ (endFrame f e s).tst.latch = s.tst.latch ∧
    (endFrame f e s).tst.scrubPointer = s.tst.scrubPointer ∧
    (endFrame f e s).tst.scrubPending = s.tst.scrubPending ∧
    (endFrame f e s).tst.activity = s.tst.activity ∧ (endFrame f e s).tst.walk = s.tst.walk ∧
    (endFrame f e s).tst.walkResult = s.tst.walkResult ∧
    (endFrame f e s).hlm.attributes = s.hlm.attributes := by
  unfold endFrame; cases f <;> simp <;> split <;> simp

/-- A DAYSUM placed changes the queue and the operation list. -/
@[simp] theorem placeDaysum_keeps (d : Nat) (s : State) :
    (placeDaysum d s).pending = s.pending ∧ (placeDaysum d s).power = s.power ∧
    (placeDaysum d s).hpt = s.hpt ∧ (placeDaysum d s).wch = s.wch ∧ (placeDaysum d s).cap = s.cap ∧
    (placeDaysum d s).lbl = s.lbl ∧ (placeDaysum d s).lnk.state = s.lnk.state ∧
    (placeDaysum d s).lnk.attempt = s.lnk.attempt ∧
    (placeDaysum d s).lnk.attemptCount = s.lnk.attemptCount ∧
    (placeDaysum d s).lnk.formWaiting = s.lnk.formWaiting ∧
    (placeDaysum d s).lnk.backlog = s.lnk.backlog ∧ (placeDaysum d s).lnk.roster = s.lnk.roster ∧
    (placeDaysum d s).lnk.clash = s.lnk.clash ∧ (placeDaysum d s).lnk.censusTimer = s.lnk.censusTimer ∧
    (placeDaysum d s).lnk.beaconTimer = s.lnk.beaconTimer ∧ (placeDaysum d s).lnk.drive = s.lnk.drive ∧
    (placeDaysum d s).tkt = s.tkt ∧ (placeDaysum d s).clt = s.clt ∧ (placeDaysum d s).day = s.day ∧
    (placeDaysum d s).tst.mem = s.tst.mem ∧ (placeDaysum d s).tst.latch = s.tst.latch ∧
    (placeDaysum d s).tst.scrubPointer = s.tst.scrubPointer ∧
    (placeDaysum d s).tst.scrubPending = s.tst.scrubPending ∧
    (placeDaysum d s).tst.activity = s.tst.activity ∧ (placeDaysum d s).tst.walk = s.tst.walk ∧
    (placeDaysum d s).tst.walkResult = s.tst.walkResult ∧ (placeDaysum d s).hlm = s.hlm := by
  unfold placeDaysum; dsimp only; split <;> simp

/-- One backlog item moved changes the queue, the backlog and the operation list. -/
@[simp] theorem moveBacklogItem_keeps (s : State) :
    (moveBacklogItem s).pending = s.pending ∧ (moveBacklogItem s).power = s.power ∧
    (moveBacklogItem s).hpt = s.hpt ∧ (moveBacklogItem s).wch = s.wch ∧
    (moveBacklogItem s).cap = s.cap ∧ (moveBacklogItem s).lbl = s.lbl ∧
    (moveBacklogItem s).lnk.state = s.lnk.state ∧ (moveBacklogItem s).lnk.attempt = s.lnk.attempt ∧
    (moveBacklogItem s).lnk.attemptCount = s.lnk.attemptCount ∧
    (moveBacklogItem s).lnk.formWaiting = s.lnk.formWaiting ∧
    (moveBacklogItem s).lnk.roster = s.lnk.roster ∧ (moveBacklogItem s).lnk.clash = s.lnk.clash ∧
    (moveBacklogItem s).lnk.censusTimer = s.lnk.censusTimer ∧
    (moveBacklogItem s).lnk.beaconTimer = s.lnk.beaconTimer ∧
    (moveBacklogItem s).lnk.drive = s.lnk.drive ∧ (moveBacklogItem s).tkt = s.tkt ∧
    (moveBacklogItem s).clt = s.clt ∧ (moveBacklogItem s).day = s.day ∧
    (moveBacklogItem s).tst.mem = s.tst.mem ∧ (moveBacklogItem s).tst.latch = s.tst.latch ∧
    (moveBacklogItem s).tst.scrubPointer = s.tst.scrubPointer ∧
    (moveBacklogItem s).tst.scrubPending = s.tst.scrubPending ∧
    (moveBacklogItem s).tst.activity = s.tst.activity ∧ (moveBacklogItem s).tst.walk = s.tst.walk ∧
    (moveBacklogItem s).tst.walkResult = s.tst.walkResult ∧ (moveBacklogItem s).hlm = s.hlm := by
  unfold moveBacklogItem; dsimp only; split
  · simp
  · split
    · split <;> simp
    · split <;> simp

/-- Backlog items moved change the queue, the backlog and the operation list. -/
@[simp] theorem fillStationPlaces_keeps (n : Nat) (s : State) :
    (fillStationPlaces n s).pending = s.pending ∧ (fillStationPlaces n s).power = s.power ∧
    (fillStationPlaces n s).hpt = s.hpt ∧ (fillStationPlaces n s).wch = s.wch ∧
    (fillStationPlaces n s).cap = s.cap ∧ (fillStationPlaces n s).lbl = s.lbl ∧
    (fillStationPlaces n s).lnk.state = s.lnk.state ∧
    (fillStationPlaces n s).lnk.attempt = s.lnk.attempt ∧
    (fillStationPlaces n s).lnk.attemptCount = s.lnk.attemptCount ∧
    (fillStationPlaces n s).lnk.formWaiting = s.lnk.formWaiting ∧
    (fillStationPlaces n s).lnk.roster = s.lnk.roster ∧
    (fillStationPlaces n s).lnk.clash = s.lnk.clash ∧
    (fillStationPlaces n s).lnk.censusTimer = s.lnk.censusTimer ∧
    (fillStationPlaces n s).lnk.beaconTimer = s.lnk.beaconTimer ∧
    (fillStationPlaces n s).lnk.drive = s.lnk.drive ∧ (fillStationPlaces n s).tkt = s.tkt ∧
    (fillStationPlaces n s).clt = s.clt ∧ (fillStationPlaces n s).day = s.day ∧
    (fillStationPlaces n s).tst.mem = s.tst.mem ∧ (fillStationPlaces n s).tst.latch = s.tst.latch ∧
    (fillStationPlaces n s).tst.scrubPointer = s.tst.scrubPointer ∧
    (fillStationPlaces n s).tst.scrubPending = s.tst.scrubPending ∧
    (fillStationPlaces n s).tst.activity = s.tst.activity ∧
    (fillStationPlaces n s).tst.walk = s.tst.walk ∧
    (fillStationPlaces n s).tst.walkResult = s.tst.walkResult ∧
    (fillStationPlaces n s).hlm = s.hlm := by
  induction n generalizing s with
  | zero => simp [fillStationPlaces]
  | succ n ih => unfold fillStationPlaces; split <;> simp [ih]

/-- Moving the backlog changes the queue, the backlog and the operation list. -/
@[simp] theorem moveBacklog_keeps (s : State) :
    (moveBacklog s).pending = s.pending ∧ (moveBacklog s).power = s.power ∧
    (moveBacklog s).hpt = s.hpt ∧ (moveBacklog s).wch = s.wch ∧ (moveBacklog s).cap = s.cap ∧
    (moveBacklog s).lbl = s.lbl ∧ (moveBacklog s).lnk.state = s.lnk.state ∧
    (moveBacklog s).lnk.attempt = s.lnk.attempt ∧
    (moveBacklog s).lnk.attemptCount = s.lnk.attemptCount ∧
    (moveBacklog s).lnk.formWaiting = s.lnk.formWaiting ∧ (moveBacklog s).lnk.roster = s.lnk.roster ∧
    (moveBacklog s).lnk.clash = s.lnk.clash ∧ (moveBacklog s).lnk.censusTimer = s.lnk.censusTimer ∧
    (moveBacklog s).lnk.beaconTimer = s.lnk.beaconTimer ∧ (moveBacklog s).lnk.drive = s.lnk.drive ∧
    (moveBacklog s).tkt = s.tkt ∧ (moveBacklog s).clt = s.clt ∧ (moveBacklog s).day = s.day ∧
    (moveBacklog s).tst.mem = s.tst.mem ∧ (moveBacklog s).tst.latch = s.tst.latch ∧
    (moveBacklog s).tst.scrubPointer = s.tst.scrubPointer ∧
    (moveBacklog s).tst.scrubPending = s.tst.scrubPending ∧
    (moveBacklog s).tst.activity = s.tst.activity ∧ (moveBacklog s).tst.walk = s.tst.walk ∧
    (moveBacklog s).tst.walkResult = s.tst.walkResult ∧ (moveBacklog s).hlm = s.hlm := by
  unfold moveBacklog; simp

/-- A DAYSUM made due changes the backlog and what moving it changes. -/
@[simp] theorem makeDaysumDue_keeps (d : Nat) (s : State) :
    (makeDaysumDue d s).pending = s.pending ∧ (makeDaysumDue d s).power = s.power ∧
    (makeDaysumDue d s).hpt = s.hpt ∧ (makeDaysumDue d s).wch = s.wch ∧
    (makeDaysumDue d s).cap = s.cap ∧ (makeDaysumDue d s).lbl = s.lbl ∧
    (makeDaysumDue d s).lnk.state = s.lnk.state ∧ (makeDaysumDue d s).lnk.attempt = s.lnk.attempt ∧
    (makeDaysumDue d s).lnk.attemptCount = s.lnk.attemptCount ∧
    (makeDaysumDue d s).lnk.formWaiting = s.lnk.formWaiting ∧
    (makeDaysumDue d s).lnk.roster = s.lnk.roster ∧ (makeDaysumDue d s).lnk.clash = s.lnk.clash ∧
    (makeDaysumDue d s).lnk.censusTimer = s.lnk.censusTimer ∧
    (makeDaysumDue d s).lnk.beaconTimer = s.lnk.beaconTimer ∧
    (makeDaysumDue d s).lnk.drive = s.lnk.drive ∧ (makeDaysumDue d s).tkt = s.tkt ∧
    (makeDaysumDue d s).clt = s.clt ∧ (makeDaysumDue d s).day = s.day ∧
    (makeDaysumDue d s).tst.mem = s.tst.mem ∧ (makeDaysumDue d s).tst.latch = s.tst.latch ∧
    (makeDaysumDue d s).tst.scrubPointer = s.tst.scrubPointer ∧
    (makeDaysumDue d s).tst.scrubPending = s.tst.scrubPending ∧
    (makeDaysumDue d s).tst.activity = s.tst.activity ∧ (makeDaysumDue d s).tst.walk = s.tst.walk ∧
    (makeDaysumDue d s).tst.walkResult = s.tst.walkResult ∧ (makeDaysumDue d s).hlm = s.hlm := by
  unfold makeDaysumDue; split
  · simp
  · split <;> simp

/-- A census answer changes the backlog and what moving it changes. -/
@[simp] theorem makeCensusDue_keeps (s : State) :
    (makeCensusDue s).pending = s.pending ∧ (makeCensusDue s).power = s.power ∧
    (makeCensusDue s).hpt = s.hpt ∧ (makeCensusDue s).wch = s.wch ∧ (makeCensusDue s).cap = s.cap ∧
    (makeCensusDue s).lbl = s.lbl ∧ (makeCensusDue s).lnk.state = s.lnk.state ∧
    (makeCensusDue s).lnk.attempt = s.lnk.attempt ∧
    (makeCensusDue s).lnk.attemptCount = s.lnk.attemptCount ∧
    (makeCensusDue s).lnk.formWaiting = s.lnk.formWaiting ∧
    (makeCensusDue s).lnk.roster = s.lnk.roster ∧ (makeCensusDue s).lnk.clash = s.lnk.clash ∧
    (makeCensusDue s).lnk.censusTimer = s.lnk.censusTimer ∧
    (makeCensusDue s).lnk.beaconTimer = s.lnk.beaconTimer ∧ (makeCensusDue s).lnk.drive = s.lnk.drive ∧
    (makeCensusDue s).tkt = s.tkt ∧ (makeCensusDue s).clt = s.clt ∧ (makeCensusDue s).day = s.day ∧
    (makeCensusDue s).tst.mem = s.tst.mem ∧ (makeCensusDue s).tst.latch = s.tst.latch ∧
    (makeCensusDue s).tst.scrubPointer = s.tst.scrubPointer ∧
    (makeCensusDue s).tst.scrubPending = s.tst.scrubPending ∧
    (makeCensusDue s).tst.activity = s.tst.activity ∧ (makeCensusDue s).tst.walk = s.tst.walk ∧
    (makeCensusDue s).tst.walkResult = s.tst.walkResult ∧ (makeCensusDue s).hlm = s.hlm := by
  unfold makeCensusDue; simp

/-- Entering a weighing state changes the state, and the OVERLOADS attribute. -/
@[simp] theorem enterState_keeps (w : WeighState) (s : State) :
    (enterState w s).pending = s.pending ∧ (enterState w s).power = s.power ∧
    (enterState w s).hpt.runState = s.hpt.runState ∧ (enterState w s).hpt.straps = s.hpt.straps ∧
    (enterState w s).hpt.configured = s.hpt.configured ∧ (enterState w s).hpt.slot = s.hpt.slot ∧
    (enterState w s).hpt.miso = s.hpt.miso ∧ (enterState w s).hpt.nextTag = s.hpt.nextTag ∧
    (enterState w s).hpt.ring = s.hpt.ring ∧ (enterState w s).hpt.timeOfDay = s.hpt.timeOfDay ∧
    (enterState w s).wch.rate = s.wch.rate ∧ (enterState w s).wch.filterLength = s.wch.filterLength ∧
    (enterState w s).wch.windowLength = s.wch.windowLength ∧
    (enterState w s).wch.tracking = s.wch.tracking ∧ (enterState w s).wch.zcal = s.wch.zcal ∧
    (enterState w s).wch.span = s.wch.span ∧ (enterState w s).wch.clamp = s.wch.clamp ∧
    (enterState w s).wch.filter = s.wch.filter ∧ (enterState w s).wch.window = s.wch.window ∧
    (enterState w s).wch.gross = s.wch.gross ∧ (enterState w s).wch.zadj = s.wch.zadj ∧
    (enterState w s).wch.zref = s.wch.zref ∧ (enterState w s).wch.zeroTaken = s.wch.zeroTaken ∧
    (enterState w s).wch.tare = s.wch.tare ∧ (enterState w s).wch.trackCount = s.wch.trackCount ∧
    (enterState w s).wch.watchdog = s.wch.watchdog ∧
    (enterState w s).wch.restorePending = s.wch.restorePending ∧ (enterState w s).cap = s.cap ∧
    (enterState w s).lbl = s.lbl ∧ (enterState w s).lnk = s.lnk ∧ (enterState w s).tkt = s.tkt ∧
    (enterState w s).clt = s.clt ∧ (enterState w s).day = s.day ∧
    (enterState w s).tst.mem = s.tst.mem ∧ (enterState w s).tst.latch = s.tst.latch ∧
    (enterState w s).tst.scrubPointer = s.tst.scrubPointer ∧
    (enterState w s).tst.scrubPending = s.tst.scrubPending ∧
    (enterState w s).tst.activity = s.tst.activity ∧ (enterState w s).tst.walk = s.tst.walk ∧
    (enterState w s).tst.walkResult = s.tst.walkResult := by
  unfold enterState; dsimp only; split <;> simp

/-- The zero-use figure moves the ZERO_USE attribute. -/
@[simp] theorem handZeroUse_keeps (s : State) :
    (handZeroUse s).pending = s.pending ∧ (handZeroUse s).power = s.power ∧
    (handZeroUse s).hpt.runState = s.hpt.runState ∧ (handZeroUse s).hpt.straps = s.hpt.straps ∧
    (handZeroUse s).hpt.configured = s.hpt.configured ∧ (handZeroUse s).hpt.slot = s.hpt.slot ∧
    (handZeroUse s).hpt.miso = s.hpt.miso ∧ (handZeroUse s).hpt.nextTag = s.hpt.nextTag ∧
    (handZeroUse s).hpt.ring = s.hpt.ring ∧ (handZeroUse s).hpt.timeOfDay = s.hpt.timeOfDay ∧
    (handZeroUse s).wch = s.wch ∧ (handZeroUse s).cap = s.cap ∧ (handZeroUse s).lbl = s.lbl ∧
    (handZeroUse s).lnk = s.lnk ∧ (handZeroUse s).tkt = s.tkt ∧ (handZeroUse s).clt = s.clt ∧
    (handZeroUse s).day = s.day ∧ (handZeroUse s).tst.mem = s.tst.mem ∧
    (handZeroUse s).tst.latch = s.tst.latch ∧ (handZeroUse s).tst.scrubPointer = s.tst.scrubPointer ∧
    (handZeroUse s).tst.scrubPending = s.tst.scrubPending ∧
    (handZeroUse s).tst.activity = s.tst.activity ∧ (handZeroUse s).tst.walk = s.tst.walk ∧
    (handZeroUse s).tst.walkResult = s.tst.walkResult := by
  unfold handZeroUse; simp

/-- Hearing a later day changes H and the day-behind flag, with an event and a fault. -/
@[simp] theorem hearLaterDay_keeps (d : Nat) (s : State) :
    (hearLaterDay d s).pending = s.pending ∧ (hearLaterDay d s).power = s.power ∧
    (hearLaterDay d s).hpt.runState = s.hpt.runState ∧ (hearLaterDay d s).hpt.straps = s.hpt.straps ∧
    (hearLaterDay d s).hpt.configured = s.hpt.configured ∧ (hearLaterDay d s).hpt.slot = s.hpt.slot ∧
    (hearLaterDay d s).hpt.miso = s.hpt.miso ∧ (hearLaterDay d s).hpt.nextTag = s.hpt.nextTag ∧
    (hearLaterDay d s).hpt.ring = s.hpt.ring ∧ (hearLaterDay d s).hpt.timeOfDay = s.hpt.timeOfDay ∧
    (hearLaterDay d s).wch = s.wch ∧ (hearLaterDay d s).cap = s.cap ∧ (hearLaterDay d s).lbl = s.lbl ∧
    (hearLaterDay d s).lnk = s.lnk ∧ (hearLaterDay d s).tkt = s.tkt ∧ (hearLaterDay d s).clt = s.clt ∧
    (hearLaterDay d s).day.day = s.day.day ∧ (hearLaterDay d s).day.latch = s.day.latch ∧
    (hearLaterDay d s).day.deferred = s.day.deferred ∧
    (hearLaterDay d s).day.copiesPending = s.day.copiesPending ∧
    (hearLaterDay d s).day.newestSlot = s.day.newestSlot ∧ (hearLaterDay d s).day.held = s.day.held ∧
    (hearLaterDay d s).tst.mem = s.tst.mem ∧ (hearLaterDay d s).tst.latch = s.tst.latch ∧
    (hearLaterDay d s).tst.scrubPointer = s.tst.scrubPointer ∧
    (hearLaterDay d s).tst.scrubPending = s.tst.scrubPending ∧
    (hearLaterDay d s).tst.activity = s.tst.activity ∧ (hearLaterDay d s).tst.walk = s.tst.walk ∧
    (hearLaterDay d s).tst.walkResult = s.tst.walkResult ∧
    (hearLaterDay d s).hlm.attributes = s.hlm.attributes := by
  unfold hearLaterDay; dsimp only; split <;> simp

/-- Comparing a carried day changes what hearing a later day changes. -/
@[simp] theorem compareDay_keeps (d : Nat) (s : State) :
    (compareDay d s).pending = s.pending ∧ (compareDay d s).power = s.power ∧
    (compareDay d s).hpt.runState = s.hpt.runState ∧ (compareDay d s).hpt.straps = s.hpt.straps ∧
    (compareDay d s).hpt.configured = s.hpt.configured ∧ (compareDay d s).hpt.slot = s.hpt.slot ∧
    (compareDay d s).hpt.miso = s.hpt.miso ∧ (compareDay d s).hpt.nextTag = s.hpt.nextTag ∧
    (compareDay d s).hpt.ring = s.hpt.ring ∧ (compareDay d s).hpt.timeOfDay = s.hpt.timeOfDay ∧
    (compareDay d s).wch = s.wch ∧ (compareDay d s).cap = s.cap ∧ (compareDay d s).lbl = s.lbl ∧
    (compareDay d s).lnk = s.lnk ∧ (compareDay d s).tkt = s.tkt ∧ (compareDay d s).clt = s.clt ∧
    (compareDay d s).day.day = s.day.day ∧ (compareDay d s).day.latch = s.day.latch ∧
    (compareDay d s).day.deferred = s.day.deferred ∧
    (compareDay d s).day.copiesPending = s.day.copiesPending ∧
    (compareDay d s).day.newestSlot = s.day.newestSlot ∧ (compareDay d s).day.held = s.day.held ∧
    (compareDay d s).tst.mem = s.tst.mem ∧ (compareDay d s).tst.latch = s.tst.latch ∧
    (compareDay d s).tst.scrubPointer = s.tst.scrubPointer ∧
    (compareDay d s).tst.scrubPending = s.tst.scrubPending ∧
    (compareDay d s).tst.activity = s.tst.activity ∧ (compareDay d s).tst.walk = s.tst.walk ∧
    (compareDay d s).tst.walkResult = s.tst.walkResult ∧
    (compareDay d s).hlm.attributes = s.hlm.attributes := by
  unfold compareDay; split <;> simp

/-- Listing a ticket changes the waiting list, or raises a mismatch. -/
@[simp] theorem listTicket_keeps (e : WaitEntry) (d b : MismatchKind) (s : State) :
    (listTicket e d b s).pending = s.pending ∧ (listTicket e d b s).power = s.power ∧
    (listTicket e d b s).hpt.runState = s.hpt.runState ∧
    (listTicket e d b s).hpt.straps = s.hpt.straps ∧
    (listTicket e d b s).hpt.configured = s.hpt.configured ∧
    (listTicket e d b s).hpt.slot = s.hpt.slot ∧ (listTicket e d b s).hpt.miso = s.hpt.miso ∧
    (listTicket e d b s).hpt.nextTag = s.hpt.nextTag ∧ (listTicket e d b s).hpt.ring = s.hpt.ring ∧
    (listTicket e d b s).hpt.timeOfDay = s.hpt.timeOfDay ∧ (listTicket e d b s).wch = s.wch ∧
    (listTicket e d b s).cap = s.cap ∧ (listTicket e d b s).lbl = s.lbl ∧
    (listTicket e d b s).lnk = s.lnk ∧ (listTicket e d b s).tkt.config = s.tkt.config ∧
    (listTicket e d b s).tkt.issued = s.tkt.issued ∧ (listTicket e d b s).tkt.called = s.tkt.called ∧
    (listTicket e d b s).tkt.nowServing = s.tkt.nowServing ∧
    (listTicket e d b s).tkt.passes = s.tkt.passes ∧
    (listTicket e d b s).tkt.conflict = s.tkt.conflict ∧ (listTicket e d b s).clt = s.clt ∧
    (listTicket e d b s).day = s.day ∧ (listTicket e d b s).tst.mem = s.tst.mem ∧
    (listTicket e d b s).tst.latch = s.tst.latch ∧
    (listTicket e d b s).tst.scrubPointer = s.tst.scrubPointer ∧
    (listTicket e d b s).tst.scrubPending = s.tst.scrubPending ∧
    (listTicket e d b s).tst.activity = s.tst.activity ∧ (listTicket e d b s).tst.walk = s.tst.walk ∧
    (listTicket e d b s).tst.walkResult = s.tst.walkResult := by
  unfold listTicket; split
  · simp
  · split
    · simp
    · split <;> simp

/-- The conflict rule changes the conflict flag and raises a mismatch. -/
@[simp] theorem modeConflict_keeps (s : State) :
    (modeConflict s).pending = s.pending ∧ (modeConflict s).power = s.power ∧
    (modeConflict s).hpt.runState = s.hpt.runState ∧ (modeConflict s).hpt.straps = s.hpt.straps ∧
    (modeConflict s).hpt.configured = s.hpt.configured ∧ (modeConflict s).hpt.slot = s.hpt.slot ∧
    (modeConflict s).hpt.miso = s.hpt.miso ∧ (modeConflict s).hpt.nextTag = s.hpt.nextTag ∧
    (modeConflict s).hpt.ring = s.hpt.ring ∧ (modeConflict s).hpt.timeOfDay = s.hpt.timeOfDay ∧
    (modeConflict s).wch = s.wch ∧ (modeConflict s).cap = s.cap ∧ (modeConflict s).lbl = s.lbl ∧
    (modeConflict s).lnk = s.lnk ∧ (modeConflict s).tkt.config = s.tkt.config ∧
    (modeConflict s).tkt.issued = s.tkt.issued ∧ (modeConflict s).tkt.called = s.tkt.called ∧
    (modeConflict s).tkt.nowServing = s.tkt.nowServing ∧ (modeConflict s).tkt.waiting = s.tkt.waiting ∧
    (modeConflict s).tkt.passes = s.tkt.passes ∧ (modeConflict s).clt = s.clt ∧
    (modeConflict s).day = s.day ∧ (modeConflict s).tst.mem = s.tst.mem ∧
    (modeConflict s).tst.latch = s.tst.latch ∧ (modeConflict s).tst.scrubPointer = s.tst.scrubPointer ∧
    (modeConflict s).tst.scrubPending = s.tst.scrubPending ∧
    (modeConflict s).tst.activity = s.tst.activity ∧ (modeConflict s).tst.walk = s.tst.walk ∧
    (modeConflict s).tst.walkResult = s.tst.walkResult := by
  unfold modeConflict; split <;> simp

/-- Refreshing the roster changes the roster alone. -/
@[simp] theorem refreshRoster_keeps (n : Nat) (s : State) :
    (refreshRoster n s).pending = s.pending ∧ (refreshRoster n s).power = s.power ∧
    (refreshRoster n s).hpt = s.hpt ∧ (refreshRoster n s).wch = s.wch ∧
    (refreshRoster n s).cap = s.cap ∧ (refreshRoster n s).lbl = s.lbl ∧
    (refreshRoster n s).lnk.state = s.lnk.state ∧ (refreshRoster n s).lnk.queue = s.lnk.queue ∧
    (refreshRoster n s).lnk.attempt = s.lnk.attempt ∧
    (refreshRoster n s).lnk.attemptCount = s.lnk.attemptCount ∧
    (refreshRoster n s).lnk.formWaiting = s.lnk.formWaiting ∧
    (refreshRoster n s).lnk.backlog = s.lnk.backlog ∧ (refreshRoster n s).lnk.clash = s.lnk.clash ∧
    (refreshRoster n s).lnk.censusTimer = s.lnk.censusTimer ∧
    (refreshRoster n s).lnk.beaconTimer = s.lnk.beaconTimer ∧
    (refreshRoster n s).lnk.drive = s.lnk.drive ∧ (refreshRoster n s).tkt = s.tkt ∧
    (refreshRoster n s).clt = s.clt ∧ (refreshRoster n s).day = s.day ∧
    (refreshRoster n s).tst = s.tst ∧ (refreshRoster n s).hlm = s.hlm := by
  unfold refreshRoster; split <;> simp

/-- Setting a roster entry changes the roster alone. -/
@[simp] theorem setRoster_keeps (n d : Nat) (l : Option Bool) (s : State) :
    (setRoster n d l s).pending = s.pending ∧ (setRoster n d l s).power = s.power ∧
    (setRoster n d l s).hpt = s.hpt ∧ (setRoster n d l s).wch = s.wch ∧
    (setRoster n d l s).cap = s.cap ∧ (setRoster n d l s).lbl = s.lbl ∧
    (setRoster n d l s).lnk.state = s.lnk.state ∧ (setRoster n d l s).lnk.queue = s.lnk.queue ∧
    (setRoster n d l s).lnk.attempt = s.lnk.attempt ∧
    (setRoster n d l s).lnk.attemptCount = s.lnk.attemptCount ∧
    (setRoster n d l s).lnk.formWaiting = s.lnk.formWaiting ∧
    (setRoster n d l s).lnk.backlog = s.lnk.backlog ∧ (setRoster n d l s).lnk.clash = s.lnk.clash ∧
    (setRoster n d l s).lnk.censusTimer = s.lnk.censusTimer ∧
    (setRoster n d l s).lnk.beaconTimer = s.lnk.beaconTimer ∧
    (setRoster n d l s).lnk.drive = s.lnk.drive ∧ (setRoster n d l s).tkt = s.tkt ∧
    (setRoster n d l s).clt = s.clt ∧ (setRoster n d l s).day = s.day ∧
    (setRoster n d l s).tst = s.tst ∧ (setRoster n d l s).hlm = s.hlm := by
  unfold setRoster; split
  · simp
  · split <;> simp

/-- A find changes the latch, and is reported. -/
@[simp] theorem handleFind_keeps (f : Find) (s : State) :
    (handleFind f s).pending = s.pending ∧ (handleFind f s).power = s.power ∧
    (handleFind f s).hpt.runState = s.hpt.runState ∧ (handleFind f s).hpt.straps = s.hpt.straps ∧
    (handleFind f s).hpt.configured = s.hpt.configured ∧ (handleFind f s).hpt.slot = s.hpt.slot ∧
    (handleFind f s).hpt.miso = s.hpt.miso ∧ (handleFind f s).hpt.nextTag = s.hpt.nextTag ∧
    (handleFind f s).hpt.ring = s.hpt.ring ∧ (handleFind f s).hpt.timeOfDay = s.hpt.timeOfDay ∧
    (handleFind f s).wch = s.wch ∧ (handleFind f s).cap = s.cap ∧ (handleFind f s).lbl = s.lbl ∧
    (handleFind f s).lnk = s.lnk ∧ (handleFind f s).tkt = s.tkt ∧ (handleFind f s).clt = s.clt ∧
    (handleFind f s).day = s.day ∧ (handleFind f s).tst.mem = s.tst.mem ∧
    (handleFind f s).tst.scrubPointer = s.tst.scrubPointer ∧
    (handleFind f s).tst.scrubPending = s.tst.scrubPending ∧
    (handleFind f s).tst.activity = s.tst.activity ∧ (handleFind f s).tst.walk = s.tst.walk ∧
    (handleFind f s).tst.walkResult = s.tst.walkResult := by
  unfold handleFind; split
  · simp
  · dsimp only; split <;> simp
  · split <;> simp

end Sys2Proof.Machine
end

