-- ==== Sys2Proof/WellFormed.lean ====
section
/-! DEFINITION. Which commands can be given: a frame that is accepted was well formed on the line (R47, R56), a damaged
frame was not (R58), and an order's timer belongs to one of the clerks 1..24 (R92). A request is well formed whatever its
parameter bytes hold: bytes out of range are answered PARAM. -/

namespace Sys2Proof

open Machine in
/-- A command that can be given. -/
def Instr.wf (i : Instr) : Bool :=
  match i with
  | .orderExpiry clerk => within 1 clerk.toNat 24
  | .frameDamaged r => (receivedFrame r).isNone && decide (r.bytes.length ≤ 15)
  | .dayCloseAccepted _ p => payloadInRange (.dayClose p)
  | .callAccepted _ p => payloadInRange (.call p)
  | .issueAccepted _ p => payloadInRange (.issue p)
  | .passAccepted _ p => payloadInRange (.pass p)
  | .txCloseAccepted _ p => payloadInRange (.txClose p)
  | .txCancelAccepted _ p => payloadInRange (.txCancel p)
  | .voidAccepted _ p => payloadInRange (.voidLine p)
  | .itemAccepted _ p => payloadInRange (.item p)
  | .daysumAccepted _ p => payloadInRange (.daysum p)
  | .daysumAskAccepted _ d => payloadInRange (.daysumAsk d)
  | .censusAskAccepted _ => true
  | .censusReplyAccepted _ p => payloadInRange (.censusReply p)
  | .censusTxAccepted _ p => payloadInRange (.censusTx p)
  | .beaconAccepted _ p => payloadInRange (.beacon p)
  | .powerOn _ _ | .mainPowerFail | .resetAssert | .resetRelease _ | .verificationWalkEnd | .initializationWalkEnd
  | .selectionEnd _ | .configure _ | .start | .restart | .setTime _ | .readStatus | .takeEvent | .zero | .tareWeigh
  | .tareSet _ | .tareClear | .readWeight | .weighItem _ _ _ _ _ _ | .countItem _ _ _ _ _ | .abortCapture
  | .releaseHeld | .discardHeld | .setWatch _ _ _ _ _ _ | .clearWatchStatus _ | .readWatches | .takeLabel
  | .readJournal _ | .issueTicket | .callNext _ | .passTicket _ | .readTickets | .totalOrder _ | .cancelOrder _
  | .voidLine _ _ | .readOrder _ | .closeDay _ | .joinDay | .askDaysum _ | .readDayRecord _ | .readTotals _
  | .readHealth | .readFaults _ | .clearStoreLatch | .readRoster | .sampleArrival _ _ | .sampleWatchdogExpiry
  | .captureTimerExpiry | .holdTimerExpiry | .beaconTimerExpiry | .censusTimerExpiry | .rosterAgeExpiry _
  | .timeOfDayTick | .scrubRequest | .storeRead | .storeUpdate | .itemPosting | .journalAppend | .takenFlagUpdate
  | .counterUpdate | .recordWrite | .closeCopy | .linkAttemptStart | .arbitrationLost | .attemptBitError
  | .attemptObjected | .closeStart | .vretDisturbance _ _ => true

end Sys2Proof
end

