-- ==== Sys2Proof/Tests/Slice0.lean ====
section
/-! SUPPORT. The model's own tests: ill-formed commands that the check refuses, worked examples of the manual, single
steps on small states, and for every statement with hypotheses a state and operands that meet them. -/

namespace Sys2Proof.Tests

open Sys2Proof.Machine

/-! ### Ill-formed commands are refused -/

/-- No order has clerk 0 or 25 (R92). -/
theorem test_wf_order_expiry : (Instr.orderExpiry 0).wf = false ∧ (Instr.orderExpiry 25).wf = false
    ∧ (Instr.orderExpiry 1).wf = true ∧ (Instr.orderExpiry 24).wf = true := by decide

/-- A well-formed envelope is no damaged frame; neither is one of 16 payload bytes a frame of the line (R47). -/
theorem test_wf_frame_damaged :
    (Instr.frameDamaged (sentEnvelope ⟨3, .daysumAsk 7⟩)).wf = false
      ∧ (Instr.frameDamaged ⟨0, 0, List.replicate 16 0, 0, true⟩).wf = false
      ∧ (Instr.frameDamaged ⟨0, 0, [], 0, true⟩).wf = true := by decide +kernel

/-- Business day 0 does not exist (R159). -/
theorem test_wf_days : (Instr.dayCloseAccepted 1 ⟨0, false⟩).wf = false
    ∧ (Instr.daysumAccepted 1 ⟨0, 1, 1, 1, 1⟩).wf = false ∧ (Instr.daysumAskAccepted 1 0).wf = false := by decide

/-- Tickets 0 and 1000 and clerks 0 and 25 are out of range (Table 3-10). -/
theorem test_wf_tickets : (Instr.callAccepted 1 ⟨1, 0, 1⟩).wf = false ∧ (Instr.issueAccepted 1 ⟨1, 1000⟩).wf = false
    ∧ (Instr.passAccepted 1 ⟨1, 5, 25⟩).wf = false ∧ (Instr.callAccepted 1 ⟨1, 999, 24⟩).wf = true := by decide

/-- An order frame's fields out of range (Tables 3-3 and 3-10). -/
theorem test_wf_orders : (Instr.txCloseAccepted 1 ⟨1, 1, 0, 0, 5⟩).wf = false
    ∧ (Instr.txCancelAccepted 1 ⟨1, 1, 2⟩).wf = false ∧ (Instr.voidAccepted 1 ⟨1, 1, 41, 5⟩).wf = false
    ∧ (Instr.itemAccepted 1 ⟨1, false, 1, 1, 1, 1, 5, 19, 1⟩).wf = false := by decide

/-- A census frame's and a beacon's fields out of range (Table 3-10). -/
theorem test_wf_census : (Instr.censusReplyAccepted 1 ⟨1, false, false, 0, 0, 25⟩).wf = false
    ∧ (Instr.censusTxAccepted 1 ⟨1, 0, 41, 0, 0⟩).wf = false
    ∧ (Instr.beaconAccepted 1 ⟨1, false, false, false, 1000, 0⟩).wf = false := by decide

/-! ### The words of the table -/

/-- The table gives no row any bits, so no word spells a command. -/
theorem test_no_word_spells_a_command : decodeTableWord 8 1 = none := rfl

/-- The block of TARE_SET 125 g, written out from Tables 11-1 and 11-2: code 9, length 2, 0x007D. -/
theorem test_block_tare_set : (requestBlock (.tareSet 125)).map blockBytes = some [9, 2, 0x00, 0x7D]
    ∧ requestCommand ⟨9, [0x00, 0x7D]⟩ = some (.tareSet 125) := by decide

/-- The bytes of VOID_LINE of clerk 3, line 2, and of ASK_DAYSUM of day 258. -/
theorem test_block_void_line : (requestBlock (.voidLine 3 2)).map blockBytes = some [28, 2, 3, 2]
    ∧ (requestBlock (.askDaysum 258)).map blockBytes = some [32, 2, 1, 2] := by decide

/-- The payload of an ITEM, laid out by hand from Table 3-3: day tag 5, counted by clerk 3, line 2, PLU 513, department 8,
price 3,745, quantity 3, serial 66,051. -/
theorem test_item_payload :
    payloadBytes (.item ⟨5, true, 3, 2, 513, 8, 3745, 3, 66051⟩)
      = [5, 0x83, 2, 0x00, 0x02, 0x01, 8, 0x00, 0x0E, 0xA1, 0x00, 0x03, 0x01, 0x02, 0x03]
    ∧ arbitrationField ⟨4, .item ⟨5, true, 3, 2, 513, 8, 3745, 3, 66051⟩⟩ = 0x74 := by decide

/-- The 12 bytes of LATE_ITEM of serial 66,051, clerk 3, reason LINK_FULL, at 01:00:00 (Table 11-4). -/
theorem test_event_bytes :
    EventRecord.bytes ⟨.lateItem 66051 3 .linkFull, 3600⟩ = [8, 0x00, 0x0E, 0x10, 1, 2, 3, 3, 2, 0, 0, 0] := by decide

/-! ### Worked examples of the manual -/

/-- The weighing channel of Table 1-6 and of the worked clamp: class B, N = 8, K = 104,858. -/
def channel (sample zadj zref : Int) (window : List Int) : Weighing :=
  { rate := 100, filterLength := 8, windowLength := 4, tracking := true, zcal := 20000, span := 104858, clamp := 30000,
    filter := List.replicate 8 sample, window := window, gross := window.getLast?, state := .live, zadj := zadj,
    zref := zref, zeroTaken := true, tare := none, trackCount := 0, watchdog := some 160, restorePending := false }

/-- Table 1-6: G, and the display weight of net 24,283 with its division. -/
theorem test_table_1_6 : (channel 264180 150 0 []).grossNow = 24403
    ∧ (figures 1).interval 24283 = 2 ∧ (figures 1).display 24283 = 2428 := by decide

/-- The interval change of class B: nets 60,000 and 60,001 show one weight with two divisions. -/
theorem test_interval_change : (figures 1).display 60000 = 6000 ∧ (figures 1).interval 60000 = 2
    ∧ (figures 1).display 60001 = 6000 ∧ (figures 1).interval 60001 = 5 := by decide

/-- The worked clamp: Cz is 30,000 counts. -/
theorem test_tracking_clamp : trackingClamp 3000 104858 = 30000 := by decide

/-- Table 2-7: P and P' of its six cases. -/
theorem test_table_2_7 : weighedPrice 2428 1899 = 4611 ∧ roundPrice 4611 5 = 4610 ∧ roundPrice 3747 5 = 3745
    ∧ roundPrice 999999 1 = 999999 ∧ roundPrice 999999 5 = 1000000 ∧ weighedPrice 30000 33334 = 1000020
    ∧ weighedPrice 40 12 = 0 ∧ roundPrice 3745 10 = 3750 := by decide

/-- Table 4-1: the newer relation, W = 99. -/
theorem test_table_4_1 : newer 99 5 3 = true ∧ newer 99 3 5 = false ∧ newer 99 1 99 = true ∧ newer 99 50 1 = true
    ∧ newer 99 51 1 = false ∧ newer 99 42 42 = false ∧ newer 99 17 0 = true := by decide

/-! ### States of the tests -/

/-- A station of class B, number 1, an issuing station, in a run state. -/
def at' (run : RunState) (link : LinkState) : State :=
  { State.fresh .on ⟨1, 1, true⟩ [] none [] with
    hpt := { HostPort.atReset ⟨1, 1, true⟩ with runState := run, configured := true, timeOfDay := 36000 }
    wch := channel 35200 15200 15200 [0, 0, 0, 0]
    cap := { CaptureUnit.atReset with timeout := 3, rounding := 5 }
    lnk := { Link.atReset with state := link }
    tkt := { TicketUnit.atReset with config := some ⟨false, 99⟩ }
    clt := { ClerkTable.atReset with expiryMinutes := 20 } }

/-- A station that works on a live link. -/
def station : State := at' .running .live

/-- A station that joins. -/
def joiner : State := at' .joining .joining

/-- A station before CONFIGURE. -/
def unconfigured : State :=
  { State.fresh .on ⟨1, 1, true⟩ [] none [] with hpt.runState := .config }

/-- The state with a request's block PENDING. -/
def asking (i : Instr) (s : State) : State :=
  { s with hpt.slot := match requestBlock i with
      | some b => .taken b
      | none => s.hpt.slot }

/-- The block that stands PENDING in `asking` is that of the request. -/
theorem asked_asking {i : Instr} (s : State) (h : (requestBlock i).isSome = true) : (asking i s).asked i := by
  obtain ⟨b, hb⟩ := Option.isSome_iff_exists.mp h
  exact ⟨b, hb, by simp [asking, hb]⟩

/-- The state that a command leaves. -/
def after (i : Instr) (s : State) : State :=
  match exec i s with
  | .next t => t
  | .fault _ => s
  | .refused _ => s

/-! ### Single steps -/

/-- Table 1-9: a tracking change that meets the clamp. -/
theorem test_table_1_9 :
    let s := { station with wch := { channel 65230 45150 15200 [8, 8, 8, 8] with trackCount := 99 } }
    let t := after (.sampleArrival 24 65230) s
    t.wch.zadj = 45200 ∧ t.wch.gross = some 3 ∧ t.wch.window = [8, 8, 8, 3] ∧ t.wch.trackCount = 0
      ∧ t.hlm.attributes.zeroUse.raw = 3000 := by decide

/-- The same load with ZERO pressed is ZERO_RANGE. -/
theorem test_zero_range :
    let s := { station with wch := channel 65230 45150 15200 [8, 8, 8, 8] }
    (after .zero (asking .zero s)).hpt.slot = .ready { result := .zeroRange, data := [] } := by decide

/-- R19: in class B a stable 59,999 fine gives a tare of 60,000 fine, and 60,001 is PARAM. -/
theorem test_tare_weigh :
    (after .tareWeigh (asking .tareWeigh { station with
        wch := { channel 0 0 0 [59999, 59999, 59999, 59999] with gross := some 59999 } })).wch.tare = some 60000
    ∧ (after .tareWeigh (asking .tareWeigh { station with
        wch := { channel 0 0 0 [60001, 60001, 60001, 60001] with gross := some 60001 } })).hpt.slot
        = .ready { result := .param, data := [] } := by decide

/-- Table 2-7: three of unit price 1,249 are posted at 3,745 with serial 1. -/
theorem test_count_item :
    let t := after (.countItem 0 7 2 1249 3) (asking (.countItem 0 7 2 1249 3) station)
    t.lbl.nextSerial = 2 ∧ t.tst.ops.getLast? = some (.itemPosting 2 3745 none)
      ∧ t.hpt.events = [⟨.captureDone 1 .ok 1, 36000⟩] := by decide

/-- Table 2-7: 99 of unit price 10,101 at r = 5 end with PRICE_RANGE. -/
theorem test_count_item_over :
    (after (.countItem 0 7 2 10101 99) (asking (.countItem 0 7 2 10101 99) station)).hpt.events
      = [⟨.captureDone 1 .priceRange 0, 36000⟩] := by decide

/-- A waiting item at the reading of Table 1-6 is posted with 2,440 g and 4,635: no tare is in force. -/
theorem test_weigh_item :
    let r : CaptureRequest := { tag := 9, clerk := 0, plu := 7, dept := 2, unitPrice := 1899, pluTare := none }
    let s := { station with
      wch := channel 264180 150 0 [24403, 24403, 24403, 24403]
      cap := { station.cap with capture := .waiting r .none 5 } }
    let t := after (.sampleArrival 24 264180) s
    t.cap.capture = .idle ∧ t.tst.ops.getLast? = some (.itemPosting 2 4635 (some 2440)) := by decide

/-- R132: the serial after 999,999 is 1. -/
theorem test_serial_wraps : serialAfter 999999 = 1 ∧ serialAfter 999998 = 999999 := by decide

/-- R159: day 65,535 is followed by 1, and day 1 is later than 65,535. -/
theorem test_days_wrap : nextDay 65535 = 1 ∧ laterDay 1 65535 = true ∧ laterDay 32768 1 = true
    ∧ laterDay 32769 1 = false := by decide

/-- R71: after ticket 99 an ISSUE forms ticket 1. -/
theorem test_issue_wraps :
    let s := { station with
      tkt := { station.tkt with issued := 99 }
      lnk := { station.lnk with queue := [.issue 4] } }
    (after .linkAttemptStart s).lnk.attempt = some ⟨1, .issue ⟨1, 1⟩⟩ := by decide

/-- R67: the third clash silences the station, and its request ends with LINK_SILENT. -/
theorem test_third_clash :
    let s := { station with
      lnk := { station.lnk with queue := [.call 6 2], attempt := some ⟨1, .call ⟨1, 5, 2⟩⟩, clash := 2 } }
    (after .attemptBitError s).lnk.state = .silent
      ∧ ⟨.requestDone 6 .linkSilent none, 36000⟩ ∈ (after .attemptBitError s).hpt.events := by decide

/-- R143: a bucket stays at 4,294,967,295. -/
theorem test_bucket_limit :
    let m := Memory.write [] (addrRunning offVoidAmount) 4294967290
    (Memory.read (runUpdate m [(addrRunning offVoidAmount, 10)]).mem (addrRunning offVoidAmount)).data
      = 4294967295 := by decide

/-- R141: one wrong bit reads CORRECTED with the data as written, two UNCORRECTABLE with the data as found. -/
theorem test_wrong_bits :
    Memory.read (after (.vretDisturbance 8 1) { station with tst.mem := Memory.write [] 8 6 }).tst.mem 8
      = ⟨8, .corrected, 6⟩
    ∧ Memory.read (after (.vretDisturbance 8 3) { station with tst.mem := Memory.write [] 8 6 }).tst.mem 8
      = ⟨8, .uncorrectable, 5⟩ := by decide

/-- R12: on an empty queue one unit of time passes, and the watchdog of S = 100 has 160 units of 250 µs. -/
theorem test_tick : watchdogTime 100 = 160 ∧ (tick station).wch.watchdog = some 159 := by decide

/-- R190: the next advance comes one second after a SET_TIME, and a second is 4000 units of 250 µs. -/
theorem test_set_time_restarts_the_second :
    let s := after (.setTime 100) { station with hpt.second := 1 }
    (after .timeOfDayTick s).hpt.timeOfDay = 100
      ∧ (after .timeOfDayTick (tick s)).hpt.timeOfDay = 101 ∧ (after .timeOfDayTick (tick s)).hpt.second = 4000 := by decide

/-- R57: a close that starts between attempts cuts off no objection being driven; one that finds the head's attempt under way
withdraws it. -/
theorem test_withdrawal :
    let s := { station with
      day := { station.day with latch := some ⟨2, false, false⟩ }
      lnk := { station.lnk with queue := [.issue 4, .beacon], drive := .objectionSlot } }
    (after .closeStart s).lnk.drive = .objectionSlot ∧ (after .closeStart s).lnk.queue = [.beacon]
      ∧ (let s' := { s with lnk := { s.lnk with attempt := some ⟨1, .issue ⟨1, 1⟩⟩, drive := .sending } }
         (after .closeStart s').lnk.drive = .recessive ∧ (after .closeStart s').lnk.attempt = none) := by decide

/-- R159, R167: day 32,768 closed late by a DAYCLOSE of 65,535 leaves H later than the new day 1, and the flag set. -/
theorem test_close_behind :
    let s := { station with day := { station.day with day := 32768, highest := 32768 } }
    let t := after (.dayCloseAccepted 2 ⟨65535, false⟩) s
    t.day.day = 1 ∧ t.day.highest = 32768 ∧ t.day.behind = true := by decide

/-- Table 2-2: the tare used by weight has a source, also NONE, and a value in fine units only with another; by count there
is none. -/
theorem test_held_tare :
    heldTareField (.weight 24403 none .none 24403 2440 2) = .opt true [(1, 0), (3, 0), (1, 2)]
    ∧ heldTareField (.weight 24403 (some 120) .station 24283 2428 2) = .opt true [(1, 1), (3, 120), (1, 1)]
    ∧ heldTareField (.count 3) = .opt false [(1, 0), (3, 0), (1, 0)] := by decide

/-- R128: the held item of a clerk sends its open-at-capture flag, that of clerk 0 sends none (R41). -/
theorem test_held_flag :
    let r : CaptureRequest := { tag := 9, clerk := 3, plu := 7, dept := 2, unitPrice := 1899, pluTare := none }
    let i : Item := { request := r, measure := .count 3, basePrice := 3747, price := 3745, openAtCapture := true, ticket := none }
    (heldFields i [] 480000)[12]? = some (.opt true [(1, 1)])
    ∧ (heldFields { i with request := { r with clerk := 0 }, openAtCapture := false } [] 480000)[12]?
        = some (.opt false [(1, 0)]) := by decide

/-! ### Witnesses: the machine and what every step keeps -/

/-- A line of an order. -/
def line1 : Line :=
  { number := 1, station := 1, serial := 1, plu := 7, dept := 2, byCount := true, measure := 3, price := 3745,
    voided := false }

/-- An order with one line and a ticket. -/
def order1 : Order :=
  { ticket := some 5, opened := some 35000, holder := 1, lineCount := 1, itemCount := 1, amount := 3745,
    lines := some [line1], lastActivity := 35000, timer := some 100, expiryMark := false }

/-- An order without lines. -/
def order0 : Order := { order1 with lineCount := 0, itemCount := 0, amount := 0, lines := some [] }

/-- A capture request of clerk 3. -/
def asked1 : CaptureRequest := { tag := 9, clerk := 3, plu := 7, dept := 2, unitPrice := 1899, pluTare := none }

/-- A waiting list entry. -/
def entry (n : Nat) : WaitEntry := { ticket := n, time := none, station := none, passes := 0 }

/-- The station with one order, of clerk 3. -/
def holding (o : Order) : State := { station with clt := { station.clt with orders := [(3, o)] } }

/-- A station with something in every unit: it waits for a stable load with a close latched, sends a TXCLOSE, and has a
ring, an order, a waiting list, a word of the store and an operation. -/
def busy : State :=
  { holding order1 with
    pending := [.storeUpdate]
    hpt := { station.hpt with ring := [⟨7, [0, 0, 0, 0]⟩], events := [⟨.samplesLost, 5⟩] }
    cap := { station.cap with capture := .waiting asked1 .none 5 }
    lbl := { station.lbl with reservations := 1 }
    lnk := { station.lnk with
      queue := [.txClose 6 3, .beacon], attempt := some ⟨1, .txClose ⟨1, 3, 5, 1, 3745⟩⟩, drive := .sending }
    tkt := { station.tkt with issued := 7, called := 5, waiting := [entry 6, entry 7] }
    day := { station.day with latch := some ⟨2, false, false⟩ }
    tst := { station.tst with mem := Memory.write [] 8 6, ops := [.update [(8, 5)]] } }

theorem test_witness_StepRunsFrontCommand : busy.pending = .storeUpdate :: [] := rfl

theorem test_witness_StepKeepsTheStoreCanonical : busy.StoreCanonical ∧ ∃ t, step busy = .next t :=
  ⟨by unfold State.StoreCanonical; decide, _, rfl⟩

theorem test_witness_StepKeepsTheQueueBounded : busy.QueueBounded ∧ ∃ t, step busy = .next t :=
  ⟨by unfold State.QueueBounded; decide, _, rfl⟩

theorem test_witness_StepKeepsThePortBounded : busy.PortBounded ∧ ∃ t, step busy = .next t :=
  ⟨by unfold State.PortBounded; decide, _, rfl⟩

theorem test_witness_StepKeepsTheLatchWhileBusy : busy.LatchedWhileBusy ∧ busy.day.latch ≠ none
    ∧ ∃ t, step busy = .next t :=
  ⟨by unfold State.LatchedWhileBusy; decide, by decide, _, rfl⟩

theorem test_witness_StepKeepsTheWaitingListSound : busy.WaitingSound ∧ ∃ t, step busy = .next t :=
  ⟨⟨fun c h => by cases h; decide, by decide, by decide, by decide⟩, _, rfl⟩

theorem test_witness_StepKeepsTheOrdersSound : busy.OrdersSound ∧ ∃ t, step busy = .next t := by
  refine ⟨⟨by decide, ?_, by decide⟩, _, rfl⟩
  intro e he
  obtain rfl : e = (3, order1) := by simpa [busy, holding] using he
  intro lines h
  obtain rfl : [line1] = lines := Option.some.inj h
  decide

theorem test_witness_StepKeepsTheLabelPlaces : busy.LabelsSound ∧ ∃ t, step busy = .next t := by
  refine ⟨⟨by decide, by decide, ?_, by decide, by decide⟩, _, rfl⟩
  intro f h
  obtain rfl : (⟨1, .txClose ⟨1, 3, 5, 1, 3745⟩⟩ : Frame) = f := Option.some.inj h
  exact ⟨_, rfl, by decide, by decide, by decide⟩

theorem test_witness_StepKeepsTheZeroInTheBand : busy.ZeroSound ∧ ∃ t, step busy = .next t :=
  ⟨⟨by decide, by decide, by decide, by decide⟩, _, rfl⟩

theorem test_witness_OnlyStoreStepsChangeWords : Instr.reachesWords .closeStart = false
    ∧ ∃ t, exec .closeStart busy = .next t := ⟨rfl, _, rfl⟩

/-- The ties of R12, R61, R63 and R113: a timer or an age that was just restarted does not run out. -/
theorem test_ties :
    (let s := { station with
       lnk := { station.lnk with beaconTimer := some 20000, roster := [(2, { day := none, lockout := none, age := 0 })] } }
     after .sampleWatchdogExpiry s = s ∧ after .beaconTimerExpiry s = s ∧ after (.rosterAgeExpiry 2) s = s)
    ∧ (let s := holding { order1 with timer := some 4800000 }
       after (.orderExpiry 3) s = s) := by decide

/-! ### Witnesses: encodings -/

/-- Payloads of the fourteen classes, at the ends of their ranges. -/
def boundaryPayloads : List Payload :=
  [.dayClose ⟨1, true⟩, .dayClose ⟨65535, false⟩, .call ⟨255, 999, 24⟩, .call ⟨0, 1, 1⟩, .issue ⟨255, 999⟩, .pass ⟨0, 1, 24⟩,
   .txClose ⟨1, 24, 999, 40, 39999960⟩, .txClose ⟨1, 1, 0, 1, 0⟩, .txCancel ⟨1, 24, 1⟩, .voidLine ⟨1, 24, 40, 999999⟩,
   .item ⟨255, true, 24, 40, 99999, 8, 999999, 99, 999999⟩, .item ⟨0, false, 1, 1, 1, 1, 0, 30000, 1⟩,
   .item ⟨0, false, 1, 1, 1, 1, 0, 20, 1⟩, .daysum ⟨65535, 4294967295, 16777215, 65535, 4294967295⟩,
   .daysumAsk 65535, .censusAsk, .censusReply ⟨65535, true, true, 999, 999, 24⟩,
   .censusTx ⟨24, 999, 40, 39999960, 15⟩, .beacon ⟨65535, true, true, true, 999, 999⟩]

theorem test_witness_SentFramesAreReadBack : boundaryPayloads.all payloadInRange = true
    ∧ (boundaryPayloads.map payloadClass).dedup = List.range 14 := by decide

/-! ### Witnesses: the host port -/

/-- The station with its slot PENDING and not yet taken by an owner. -/
def pendingSlot : State := { station with hpt := { station.hpt with slot := .awaiting } }

theorem not_slotFree : ¬pendingSlot.slotFree := by
  rintro (h | ⟨r, h⟩) <;> cases h

theorem test_witness_SelectionTakesOrDiscards :
    (station.power = .on ∧ station.slotFree)
    ∧ (pendingSlot.power = .on ∧ ¬pendingSlot.slotFree ∧ [(7 : Byte)] ≠ [])
    ∧ ((9 : Byte) ≠ 0 ∧ requestLength (9 : Byte).toNat = some [(0 : Byte), 125].length
        ∧ requestLength (38 : Byte).toNat = some ([] : List Byte).length)
    ∧ requestLength (39 : Byte).toNat = none
    ∧ (requestLength (9 : Byte).toNat ≠ some (3 : Byte).toNat ∧ [(0 : Byte)].length < (2 : Byte).toNat) :=
  ⟨⟨rfl, .inl rfl⟩, ⟨rfl, not_slotFree, by decide⟩, by decide, by decide, by decide⟩

theorem test_witness_RequestFromAFreeSlot :
    requestBlock .zero = some ⟨7, []⟩
    ∧ (station.power = .on ∧ station.slotFree ∧ station.hpt.runState ≠ .storePrep)
    ∧ (State.reset.power = .on ∧ State.reset.slotFree ∧ State.reset.hpt.runState = .storePrep ∧ Instr.zero ≠ .readStatus)
    ∧ (pendingSlot.power = .on ∧ ¬pendingSlot.slotFree ∧ pendingSlot.hpt.slot ≠ .taken ⟨7, []⟩)
    ∧ ({ station with power := .off }.power ≠ .on ∧ ¬{ station with power := .off }.asked .zero) := by
  refine ⟨rfl, ⟨rfl, .inl rfl, by decide⟩, ⟨rfl, .inl rfl, rfl, by decide⟩, ⟨rfl, not_slotFree, by decide⟩, by decide, ?_⟩
  rintro ⟨b, _, h⟩
  cases h

/-- CONFIGURE with every field at its lowest value in range. -/
def lowConfig : ConfigBlock :=
  { rate := 50, filterLength := 4, window := 4, timeout := 0, tracking := 0, zcal := 0x800000, span := 1, rounding := 1,
    ticketMode := 0, wrap := 99, expiry := 0, lowZeroUse := 0, lowOverloads := 0, lowMotion := 0, lowStore := 0,
    lowRetries := 0, lowMismatch := 0 }

/-- CONFIGURE with every field at its highest value in range. -/
def highConfig : ConfigBlock :=
  { rate := 200, filterLength := 32, window := 32, timeout := 8, tracking := 1, zcal := 0x7FFFFF, span := 16777215,
    rounding := 10, ticketMode := 1, wrap := 999, expiry := 60, lowZeroUse := 99, lowOverloads := 99, lowMotion := 99,
    lowStore := 99, lowRetries := 99, lowMismatch := 99 }

theorem test_witness_ConfigureSetsTheBlocks :
    (∀ c s, (asking (.configure c) s).asked (.configure c))
    ∧ (station.hpt.runState ≠ .config ∧ { unconfigured with hpt.straps := ⟨1, 3, true⟩ }.hpt.straps.cap = 3
        ∧ station.hpt.configured = true)
    ∧ (unconfigured.hpt.runState = .config ∧ unconfigured.hpt.straps.cap ≠ 3 ∧ unconfigured.hpt.configured = false)
    ∧ configInRange { lowConfig with span := 0 } = false ∧ configInRange { highConfig with expiry := 61 } = false
    ∧ configInRange { lowConfig with expiry := 4 } = false ∧ configInRange { highConfig with timeout := 9 } = false
    ∧ configInRange lowConfig = true ∧ configInRange highConfig = true ∧ configInRange { lowConfig with expiry := 5 } = true
    -- room for six events
    ∧ { unconfigured with hpt.events := List.replicate 26 ⟨.samplesLost, 5⟩ }.hpt.events.length ≤ 26 :=
  ⟨fun _ s => asked_asking s rfl, by decide, by decide, by decide, by decide, by decide, by decide, by decide, by decide,
    by decide, by decide⟩

theorem test_witness_StartAndRestartBeginACensus :
    ((asking .start station).asked .start ∧ station.hpt.runState ≠ .config)
    ∧ ((asking .start unconfigured).asked .start ∧ unconfigured.hpt.configured = false)
    ∧ (let s := { unconfigured with hpt.configured := true }
       (asking .start s).asked .start ∧ s.hpt.runState = .config ∧ s.hpt.configured = true ∧ s.hpt.straps.cap ≠ 3)
    ∧ ((asking .restart unconfigured).asked .restart ∧ unconfigured.hpt.runState = .config)
    ∧ ((asking .restart joiner).asked .restart ∧ joiner.hpt.runState = .joining)
    ∧ ((asking .restart station).asked .restart ∧ station.hpt.runState = .running) :=
  ⟨⟨asked_asking _ rfl, by decide⟩, ⟨asked_asking _ rfl, by decide⟩, ⟨asked_asking _ rfl, by decide⟩,
    ⟨asked_asking _ rfl, by decide⟩, ⟨asked_asking _ rfl, by decide⟩, ⟨asked_asking _ rfl, by decide⟩⟩

/-- A station in store preparation, its walk of a kind with so many words done. -/
def walking (kind : WalkKind) (done : Nat) (m : Memory) : State :=
  State.fresh .on ⟨1, 1, true⟩ m (some { Walk.begun kind with done := done, corrected := 3 }) []

theorem test_witness_TimeIsSetAndPasses :
    (∀ v, (asking (.setTime v) station).asked (.setTime v))
    ∧ 86399 < (86400 : BitVec 24).toNat ∧ (86399 : BitVec 24).toNat ≤ 86399
    ∧ (station.power = .on ∧ { station with hpt.timeOfDay := 86399 }.hpt.timeOfDay ≤ 86399
        ∧ { station with hpt.second := 3999 }.hpt.second < 4000)
    ∧ (station.hpt.second = 4000 ∧ { station with power := .off }.power ≠ .on)
    -- the passing of time: without power, without a walk, and a walk at its first and last words and beyond them
    ∧ ({ station with power := .off }.pending = [] ∧ station.pending = [] ∧ station.tst.walk = none)
    ∧ (∀ kind, (walking kind 2048 []).pending = [] ∧ (walking kind 2048 []).power = .on
        ∧ ∃ w, (walking kind 2048 []).tst.walk = some w ∧ 2048 ≤ w.done)
    ∧ (∀ kind, ∀ done < 2048, ∃ w, (walking kind done []).tst.walk = some w ∧ w.done < 2048 ∧ w.kind = kind)
    ∧ (Memory.read (walking .verify 2047 []).tst.mem 2047).judge = .sound
    ∧ (Memory.read (walking .verify 0 [(0, ⟨1, 2⟩)]).tst.mem 0).judge = .corrected
    ∧ (Memory.read (walking .verify 2047 [(2047, ⟨1, 3⟩)]).tst.mem 2047).judge = .uncorrectable :=
  ⟨fun _ => asked_asking _ rfl, by decide, by decide, by decide, by decide, by decide,
    fun _ => ⟨rfl, rfl, _, rfl, Nat.le_refl 2048⟩, fun _ _ h => ⟨_, rfl, h, rfl⟩, by decide, by decide, by decide⟩

theorem test_witness_ReadingRequestsChangeOnlyTheSlot :
    ((asking .readStatus station).asked .readStatus ∧ (asking .readStatus State.reset).asked .readStatus
      ∧ (asking .readWeight station).asked .readWeight
      ∧ (asking .readWatches station).asked .readWatches ∧ (asking .readTickets station).asked .readTickets
      ∧ (asking .readRoster station).asked .readRoster ∧ (asking .readHealth station).asked .readHealth
      ∧ (∀ c, (asking (.readOrder c) station).asked (.readOrder c)))
    ∧ (State.reset.hpt.runState = .storePrep ∧ station.hpt.runState = .running ∧ unconfigured.hpt.runState = .config)
    ∧ (station.lockedOut = true ↔ ∃ x, station.hlm.attributes.zeroUse.threshold = some x
        ∧ station.hlm.attributes.zeroUse.normalized ≤ x)
    ∧ (station.wch.state = .live ∧ { station.wch with state := .zeroWait }.state = .zeroWait
      ∧ { station.wch with state := .over }.state = .over)
    ∧ (station.windowStable = true ↔ station.wch.window ≠ [] ∧ station.wch.window.length = station.wch.windowLength
        ∧ ∀ x ∈ station.wch.window, ∀ y ∈ station.wch.window, x - y ≤ 10 * (station.figures.e1 : Int))
    ∧ (station.cap.capture = .idle ∧ busy.cap.capture = .waiting asked1 .none 5)
    ∧ (holding order1).order 3 = some order1
    ∧ (1 ≤ (24 : Byte).toNat ∧ (24 : Byte).toNat ≤ 24) ∧ (0 : Byte).toNat = 0 ∧ 24 < (25 : Byte).toNat :=
  ⟨⟨asked_asking _ rfl, asked_asking _ rfl, asked_asking _ rfl, asked_asking _ rfl, asked_asking _ rfl, asked_asking _ rfl,
    asked_asking _ rfl, fun _ => asked_asking _ rfl⟩, by decide,
    ⟨(fun h => absurd h (by decide)), fun ⟨x, h, _⟩ => absurd h (by decide +revert)⟩, by decide, by decide, by decide, by decide, by decide, by decide, by decide⟩

/-- The label of an item. -/
def label1 : LabelRecord :=
  { serial := 1, station := 1, day := 1, time := 35000, clerk := 3, body := .void 1 3745, slot := 1 }

theorem test_witness_TakingRequestsReturnWhatTheyRemove :
    ((asking .takeEvent station).asked .takeEvent ∧ station.hpt.events = [])
    ∧ ((asking .takeEvent busy).asked .takeEvent ∧ busy.hpt.events = ⟨.samplesLost, 5⟩ :: [])
    ∧ ((asking .takeLabel station).asked .takeLabel ∧ station.lbl.records = [])
    ∧ (let s := { station with lbl.records := [label1] }
       (asking .takeLabel s).asked .takeLabel ∧ s.lbl.records = label1 :: [])
    ∧ (asking .clearStoreLatch station).asked .clearStoreLatch :=
  ⟨⟨asked_asking _ rfl, rfl⟩, ⟨asked_asking _ rfl, rfl⟩, ⟨asked_asking _ rfl, rfl⟩, ⟨asked_asking _ rfl, rfl⟩,
    asked_asking _ rfl⟩

/-! ### Witnesses: supply, RESET and store preparation -/

/-- A station whose store state word holds the initialization mark. -/
def marked : State := { station with tst.mem := [markedStateWord] }

/-- R197: with RESET low a return of the supply does not start the part, and the release does; what RETAIN_OK negated calls
for is done then. -/
theorem test_reset_held_over_power :
    execMainPowerFail { station with power := .resetLow } = .next (State.fresh .offLow station.hpt.straps [] none [])
    ∧ (∀ p, execPowerOn ⟨1, 1, true⟩ false (State.fresh .offLow p [] none [])
        = .next (State.fresh .resetLow ⟨1, 1, true⟩ [markedStateWord] none []))
    ∧ (∀ p q, execResetRelease q (State.fresh .resetLow p [markedStateWord] none [])
        = .next (beginPreparation (retainedWalk [markedStateWord]) q [markedStateWord] []))
    ∧ retainedWalk [markedStateWord] = .fresh :=
  ⟨rfl, fun _ => rfl, fun _ _ => rfl, by decide⟩

theorem test_witness_SupplyAndResetKeepTheWords :
    ((Memory.read (drainOps station.tst.mem station.tst.ops) 4).data % 2 = 0)
    ∧ ((Memory.read (drainOps marked.tst.mem marked.tst.ops) 4).judge ≠ .uncorrectable
        ∧ (Memory.read (drainOps marked.tst.mem marked.tst.ops) 4).data % 2 = 1)
    ∧ (let s := { station with power := .resetLow }
       s.power = .resetLow ∧ (Memory.read s.tst.mem 4).data % 2 = 0)
    ∧ (let s := { marked with power := .resetLow }
       s.power = .resetLow ∧ (Memory.read s.tst.mem 4).judge ≠ .uncorrectable ∧ (Memory.read s.tst.mem 4).data % 2 = 1)
    ∧ (station.power = .on ∧ { station with power := .off }.power = .off
      ∧ { marked with power := .offLow }.power = .offLow) := by decide

/-- A station that verifies a store whose business day word holds 65,535. -/
def verifying : State :=
  State.fresh .on ⟨1, 1, true⟩ (Memory.write [] 0 65535) (some (Walk.begun .verify)) []

/-- A station that verifies a store with words of the given addresses UNCORRECTABLE. -/
def verifyingBad (m : Memory) (bad : List Nat) : State :=
  State.fresh .on ⟨1, 1, true⟩ (bad.foldl (fun acc a => Memory.set acc a ⟨0, 3⟩) m) (some (Walk.begun .verify)) []

/-- The control words and an attribute are UNCORRECTABLE, word 50 is CORRECTED, and days 7 and 9 are held. -/
def damaged : State :=
  verifyingBad (Memory.write (Memory.write (Memory.set [] 50 ⟨6, 1⟩) 381 7) 573 9) [0, 1, 2, 3, 1384]

/-- The fault word alone is UNCORRECTABLE. -/
def damagedFault : State := verifyingBad [] [3]

/-- Attributes with stored values, and word 700 CORRECTED. -/
def worn : State :=
  verifyingBad (Memory.set (Memory.write (Memory.write [] 1390 60) 1391 (40 + 30 * 256)) 700 ⟨6, 1⟩) []

theorem test_witness_VerificationWalkLoadsTheWorkingValues :
    (verifying.preparing = true ∧ ∃ w, verifying.tst.walk = some w ∧ w.kind = .verify)
    ∧ (verifying.preparing = true ∧ verifying.tst.walk = some (Walk.begun .verify)
        ∧ (∀ a < 2048, (Memory.read verifying.tst.mem a).judge = .sound)
        ∧ (∀ a ∈ loadAddresses, (Memory.read verifying.tst.mem a).judge ≠ .uncorrectable)
        ∧ verifying.hpt.events.length < 32)
    ∧ (damaged.preparing = true ∧ damaged.tst.walk = some (Walk.begun .verify)
        ∧ (Memory.read damaged.tst.mem 50).judge = .corrected
        ∧ (∀ a ∈ [0, 1, 2, 3, 1384], (Memory.read damaged.tst.mem a).judge = .uncorrectable)
        ∧ heldDays damaged.tst.mem = [(3, 7), (5, 9)])
    ∧ (damagedFault.preparing = true ∧ damagedFault.tst.walk = some (Walk.begun .verify)
        ∧ (Memory.read damagedFault.tst.mem 3).judge = .uncorrectable
        ∧ (∀ a < 2048, a ≠ 3 → (Memory.read damagedFault.tst.mem a).judge ≠ .uncorrectable)
        ∧ damagedFault.tst.latch = .empty ∧ damagedFault.hpt.events.length < 32)
    -- attributes with readable words, with and without a stored worst-ever value
    ∧ (worn.preparing = true ∧ worn.tst.walk = some (Walk.begun .verify) ∧ 1384 = 1384 + 2 * (Attribute.zeroUse.number - 1)
        ∧ 1390 = 1384 + 2 * (Attribute.storeErrors.number - 1)
        ∧ (∀ a ∈ loadAddresses, (Memory.read worn.tst.mem a).judge ≠ .uncorrectable)
        ∧ (Memory.read worn.tst.mem 1390).data = 60 ∧ (Memory.read worn.tst.mem 1391).data / 256 = 30
        ∧ (Memory.read worn.tst.mem 1387).data / 256 = 0 ∧ (Memory.read worn.tst.mem 700).judge = .corrected
        ∧ worn.writtenBack .storeErrors = false ∧ worn.writtenBack .overloads = true)
    -- a walk under way, and one that has passed every word, with what it has counted
    ∧ (let s := walking .verify 700 [(699, ⟨6, 1⟩), (700, ⟨6, 1⟩)]
       s.preparing = true ∧ s.tst.walk = some { Walk.begun .verify with done := 700, corrected := 3 }
        ∧ (Memory.read s.tst.mem 699).judge = .corrected ∧ (Memory.read s.tst.mem 700).judge = .corrected)
    ∧ (let s := { walking .verify 2048 [(3, ⟨0, 3⟩)] with tst.latch := .uncorrectable 3 }
       s.preparing = true ∧ (Memory.read s.tst.mem 3).judge = .uncorrectable ∧ s.tst.latch = .uncorrectable 3) := by
  refine ⟨⟨rfl, _, rfl, rfl⟩, ⟨rfl, rfl, fun a _ => ?_, by decide, by decide⟩, by decide, ⟨rfl, rfl, by decide,
    by decide +kernel, by decide⟩, by decide, by decide, by decide⟩
  by_cases h : a = 0
  · subst h
    exact congrArg JudgedWord.judge (Memory.read_write_same [] (by decide) 65535)
  · exact (congrArg JudgedWord.judge (Memory.read_write_other [] h 65535)).trans
      (StoreWord.judge_sound (show blankWord.wrongBits = 0 by decide))

theorem test_witness_InitializationWalkClearsTheStore :
    (State.reset.preparing = true ∧ State.reset.StoreCanonical ∧ State.reset.tst.walk = some (Walk.begun .fresh))
    -- a walk that has written the words 0 to 4, and a store whose other words are as found
    ∧ (let s := walking .fresh 5 [(4, ⟨1, 0⟩), (5, ⟨9, 0⟩)]
       s.preparing = true ∧ s.StoreCanonical ∧ (∃ w, s.tst.walk = some w ∧ w.kind = .fresh)
        ∧ (if 3 < 4 then 3 + 1 else 3) < 5 ∧ Memory.word s.tst.mem 3 = { written := 0, flips := 0 }
        ∧ 5 ≤ (if 5 < 4 then 5 + 1 else 5)) :=
  ⟨⟨rfl, by unfold State.StoreCanonical; decide, rfl⟩, rfl, by unfold State.StoreCanonical; decide, ⟨_, rfl, rfl⟩,
    by decide, by decide, by decide⟩

/-! ### Witnesses: weighing -/

theorem test_witness_SampleArrivalsEnterTheFilter :
    (23 ≠ 24 ∧ { station with power := .off }.power ≠ .on ∧ State.reset.hpt.runState = .storePrep
        ∧ unconfigured.hpt.runState = .config)
    ∧ (station.power = .on ∧ station.hpt.runState = .running ∧ joiner.power = .on ∧ joiner.hpt.runState = .joining)
    ∧ (0x800000 : BitVec 24).toInt = -8388608 ∧ (0x7FFFFF : BitVec 24).toInt = 8388607
    ∧ ((0x7FFFFE : BitVec 24).toInt ≠ -8388608 ∧ (0x7FFFFE : BitVec 24).toInt ≠ 8388607
        ∧ { station.wch with filter := List.replicate 6 0 }.filter.length + 1 < station.wch.filterLength)
    ∧ station.wch.state ≠ .over := by decide

/-- The station at the arrival before a tracking test, its filter full of one sample. -/
def beforeTest (sample : Int) : State :=
  { station with wch := { channel sample 15200 15200 [0, 0, 0, 0] with trackCount := 98 } }

/-- The station before its initial zero, its filter full of one sample and its window as given. -/
def unzeroed (sample : Int) (window : List Int) : State :=
  { station with wch := { channel sample 15200 15200 window with zeroTaken := false, state := .zeroWait } }

theorem test_witness_CompleteFilterGivesTheState :
    ((beforeTest 35200).power = .on ∧ (beforeTest 35200).hpt.runState = .running
      ∧ (35200 : BitVec 24).toInt ≠ -8388608 ∧ (35200 : BitVec 24).toInt ≠ 8388607
      ∧ 1 ≤ (beforeTest 35200).wch.filterLength
      ∧ (beforeTest 35200).wch.filter.length = (beforeTest 35200).wch.filterLength
      ∧ 2 ≤ (beforeTest 35200).wch.windowLength ∧ (beforeTest 35200).wch.zeroTaken = true
      ∧ (beforeTest 35200).wch.trackCount + 1 < (beforeTest 35200).wch.rate ∧ (beforeTest 35200).hpt.events.length < 26)
    ∧ (∃ g, (after (.sampleArrival 24 1539735) (beforeTest 1539735)).wch.gross = some g ∧ station.figures.overload < g)
    ∧ (∃ g, (after (.sampleArrival 24 30000) (beforeTest 30000)).wch.gross = some g ∧ g < station.figures.underload)
    ∧ (∃ g, (after (.sampleArrival 24 35200) (beforeTest 35200)).wch.gross = some g
        ∧ station.figures.underload ≤ g ∧ g ≤ station.figures.overload)
    ∧ (let filter := List.replicate 8 (35200 : Int)
       filter = ((List.replicate 7 (35200 : Int)) ++ [35200]).drop (7 + 1 - 8) ∧ filter.length = 8
        ∧ { (beforeTest 35200).wch with filter := List.replicate 7 35200, restorePending := true }.restorePending = true)
    -- the initial zero waits for a full and stable window within the band, and is taken there
    ∧ (let s := unzeroed 35200 [0, 0]
       s.wch.zeroTaken = false ∧ s.wch.grossNow = 0 ∧ ([0, 0, 0] : List Int).length ≠ s.wch.windowLength)
    ∧ (let s := unzeroed 35200 [0, 0, 0]
       s.wch.zeroTaken = false ∧ s.wch.grossNow = 0 ∧ ([0, 0, 0, 0] : List Int).length = s.wch.windowLength
        ∧ (∀ x ∈ ([0, 0, 0, 0] : List Int), ∀ y ∈ ([0, 0, 0, 0] : List Int), x - y ≤ s.figures.spread)
        ∧ (0 : Int).natAbs ≤ s.figures.initialBand)
    -- a tracking change that the clamp cuts (Table 1-9), and a test that changes nothing
    ∧ (let s := { beforeTest 65230 with wch := { channel 65230 45150 15200 [8, 8, 8, 8] with trackCount := 99 } }
       s.wch.zeroTaken = true ∧ s.wch.tracking = true ∧ s.wch.tare = none ∧ s.wch.rate ≤ s.wch.trackCount + 1
        ∧ s.wch.grossNow = 8 ∧ s.figures.underload ≤ 8 ∧ 8 ≤ s.figures.overload
        ∧ (8 : Int).natAbs ≤ s.figures.trackingWindow ∧ s.cap.capture = .idle
        ∧ s.wch.clamp < rhaDiv s.wch.filter.sum s.wch.filterLength - s.wch.zcal - s.wch.zref
        ∧ s.wch.zref + s.wch.clamp ≠ s.wch.zadj)
    ∧ rhaDiv (List.replicate 8 (35200 : Int)).sum 8 - 20000 = (beforeTest 35200).wch.zadj
    -- a test that is due and whose conditions fail, one after another
    ∧ (let w := { channel 35200 15200 15200 [0, 0, 0, 0] with trackCount := 99 }
       w.zeroTaken = true ∧ w.rate ≤ w.trackCount + 1 ∧ { w with tracking := false }.tracking = false
        ∧ { w with tare := some 100 }.tare ≠ none ∧ ([0, 0, 0] : List Int).length ≠ w.windowLength
        ∧ (channel 30000 15200 15200 []).grossNow < station.figures.underload
        ∧ station.figures.overload < (channel 1539735 15200 15200 []).grossNow
        ∧ station.figures.trackingWindow < (channel 36000 15200 15200 []).grossNow.natAbs
        ∧ ∃ x ∈ ([0, 0, 0, 99] : List Int), ∃ y ∈ ([0, 0, 0, 99] : List Int), station.figures.spread < x - y) :=
  ⟨by decide, ⟨_, rfl, by decide⟩, ⟨_, rfl, by decide⟩, ⟨_, rfl, by decide⟩, by decide, by decide, by decide, by decide,
    by decide, by decide⟩

/-- R16: a tracking test that finds a tare leaves the zero, and a capture that waits does not suspend one that may change. -/
theorem test_tracking_conditions :
    (let s := { station with wch := { channel 35210 15200 15200 [0, 0, 0, 0] with trackCount := 99 } }
     let t := after (.sampleArrival 24 35210) { s with wch.tare := some 100 }
     t.wch.zadj = 15200 ∧ t.wch.trackCount = 0
      ∧ (after (.sampleArrival 24 35210) { s with cap := { s.cap with capture := .waiting asked1 .aboveMax 5 } }).wch.zadj
          = 15210) := by decide

theorem test_witness_WatchdogExpiryLosesTheSamples :
    (let s := { station with wch.watchdog := some 0 }
     s.wch.watchdog = some 0 ∧ 0 < 4000 * unitsPerMilli / s.wch.rate ∧ s.wch.state ≠ .sampleLost)
    ∧ { station.wch with restorePending := true }.restorePending = true
    ∧ (station.wch.restorePending = false ∧ (List.replicate 31 (⟨.samplesLost, 5⟩ : EventRecord)).length < 32)
    ∧ (station.wch.watchdog = some (4000 * unitsPerMilli / station.wch.rate)
        ∧ (at' .config .off).wch.watchdog.isSome = true ∧ { station.wch with state := .sampleLost }.state = .sampleLost) := by
  decide

/-- A state that asks ZERO with a given channel. -/
def zeroing (w : Weighing) : State := asking .zero { station with wch := w }

theorem test_witness_ZeroTakesTheLoadAsZero :
    (∀ w, (zeroing w).asked .zero)
    ∧ (joiner.hpt.runState ≠ .running ∧ { station.wch with state := .over }.state ≠ .live)
    ∧ ((zeroing station.wch).hpt.runState = .running ∧ (zeroing station.wch).wch.state = .live)
    ∧ (zeroing (channel 35200 15200 15200 [0, 0, 21, 0])).windowStable = false
    ∧ (let w := { channel 35200 15200 15200 [0, 0, 20, 0] with tare := some 120 }
       (zeroing w).windowStable = true ∧ w.tare.isSome = true)
    ∧ (let w := channel 65230 45150 15200 [8, 8, 8, 8]
       (zeroing w).windowStable = true ∧ w.tare = none
        ∧ (zeroing w).figures.zeroBand
            < (rhaDiv ((rhaDiv w.filter.sum w.filterLength - w.zcal - w.zref) * w.span) 1048576).natAbs)
    ∧ (let w := channel 65200 45150 15200 [8, 8, 8, 8]
       (zeroing w).windowStable = true ∧ w.tare = none
        ∧ (rhaDiv ((rhaDiv w.filter.sum w.filterLength - w.zcal - w.zref) * w.span) 1048576).natAbs
            ≤ (zeroing w).figures.zeroBand) :=
  ⟨fun _ => asked_asking _ rfl, by decide, by decide, by decide, by decide, by decide, by decide⟩

/-- The station with the straps of class C. -/
def classC : State := { station with hpt := { station.hpt with straps := ⟨1, 2, true⟩ } }

theorem test_witness_TareSetTakesTheWeight :
    (∀ g, (asking (.tareSet g) station).asked (.tareSet g) ∧ (asking (.tareSet g) classC).asked (.tareSet g))
    ∧ joiner.hpt.runState ≠ .running
    ∧ (station.hpt.runState = .running ∧ (0 : BitVec 16).toNat = 0 ∧ station.figures.cap1 < (6001 : BitVec 16).toNat
        ∧ (3 : BitVec 16).toNat % station.figures.e1 ≠ 0)
    ∧ ((6000 : BitVec 16).toNat ≠ 0 ∧ (6000 : BitVec 16).toNat ≤ station.figures.cap1
        ∧ (6000 : BitVec 16).toNat % station.figures.e1 = 0 ∧ (2 : BitVec 16).toNat % station.figures.e1 = 0)
    ∧ (classC.hpt.runState = .running ∧ classC.hpt.straps.cap = 2) :=
  ⟨fun _ => ⟨asked_asking _ rfl, asked_asking _ rfl⟩, by decide, by decide, by decide, by decide⟩

/-- The station with a stable load of a given gross weight. -/
def loaded (g : Int) : State :=
  { station with wch := { channel 35200 15200 15200 [g, g, g, g] with gross := some g } }

theorem test_witness_TareWeighAndClear :
    (∀ s, (asking .tareWeigh s).asked .tareWeigh ∧ (asking .tareClear s).asked .tareClear)
    ∧ (joiner.hpt.runState ≠ .running ∧ { station.wch with state := .filling }.state ≠ .live)
    ∧ ((loaded 0).hpt.runState = .running ∧ (loaded 0).wch.state = .live)
    ∧ { station with wch := channel 35200 15200 15200 [0, 0, 0] }.windowStable = false
    ∧ ((loaded 0).windowStable = true ∧ (loaded 0).wch.gross = some 0)
    ∧ (10 * (station.figures.cap1 : Int) < 60001 ∧ (loaded 60001).windowStable = true)
    ∧ (10 * (station.figures.e1 : Int) * rhaDiv 9 (10 * station.figures.e1) = 0 ∧ (loaded 9).windowStable = true)
    ∧ ((0 : Int) < 60000 ∧ (60000 : Int) ≤ 10 * (station.figures.cap1 : Int) ∧ (loaded 60000).windowStable = true
        ∧ 10 * (station.figures.e1 : Int) * rhaDiv 60000 (10 * station.figures.e1) ≠ 0) :=
  ⟨fun _ => ⟨asked_asking _ rfl, asked_asking _ rfl⟩, by decide, by decide, by decide, by decide, by decide, by decide,
    by decide⟩

/-! ### Witnesses: captures -/

theorem test_witness_PriceIsTheNearestMultiple : 1 ≤ 10 ∧ roundPrice 3745 10 = 3750 := by decide

/-- A station that is asked to weigh an item with the given bytes. -/
def weighing (c : Byte) (p : BitVec 24) (d : Byte) (u : BitVec 24) (g : Byte) (t : BitVec 16) (s : State) : State :=
  asking (.weighItem c p d u g t) s

/-- The station locked out: ZERO_USE is low. -/
def lockedOutOf (s : State) : State :=
  { s with
    hlm := { s.hlm with attributes := { s.hlm.attributes with
      zeroUse := { raw := 3000, normalized := 1, worst := 1, threshold := some 1, low := true } } } }

/-- The station with a capture of clerk 3 waiting and a stable load of gross g. -/
def reading (sample g : Int) : State :=
  { station with
    wch := channel sample 150 0 [g, g, g, g]
    cap := { station.cap with capture := .waiting asked1 .none 5 } }

theorem test_witness_WeighItemWaitsForAReading :
    (∀ c p d u g t s, (weighing c p d u g t s).asked (.weighItem c p d u g t))
    ∧ (24 < (25 : Byte).toNat ∧ 99999 < (100000 : BitVec 24).toNat ∧ 8 < (9 : Byte).toNat
        ∧ 999999 < (1000000 : BitVec 24).toNat ∧ station.figures.cap1 < (6001 : BitVec 16).toNat)
    ∧ ((24 : Byte).toNat ≤ 24 ∧ (99999 : BitVec 24).toNat ≤ 99999 ∧ (8 : Byte).toNat ≤ 8
        ∧ (999999 : BitVec 24).toNat ≤ 999999 ∧ (1 : Byte).toNat = 1 ∧ (6000 : BitVec 16).toNat ≤ station.figures.cap1
        ∧ (6000 : BitVec 16).toNat % station.figures.e1 = 0)
    ∧ joiner.hpt.runState ≠ .running
    ∧ (busy.hpt.runState = .running ∧ busy.cap.capture ≠ .idle)
    ∧ (station.hpt.runState = .running ∧ station.cap.capture = .idle ∧ station.day.copiesPending = 0
        ∧ station.day.behind = false ∧ station.lockedOut = false ∧ station.lnk.state ≠ .silent
        ∧ station.order 24 = none)
    ∧ (0 < { station.day with copiesPending := 1 }.copiesPending ∧ { station.day with behind := true }.behind = true
        ∧ (lockedOutOf station).lockedOut = true ∧ (at' .running .silent).lnk.state = .silent)
    ∧ ((3 : Byte).toNat ≠ 0 ∧ (holding { order1 with lineCount := 40 }).linesFull 3 ∧ ¬station.linesFull 3)
    -- a stable reading of 24,403 fine units at a waiting capture: judged, and refused by the lockout
    ∧ ((reading 264180 24403).cap.capture = .waiting asked1 .none 5 ∧ (reading 264180 24403).StableArrival 264180 24403
        ∧ (reading 264180 24403).day.latch = none ∧ (reading 264180 24403).hpt.events.length < 26
        ∧ (reading 264180 24403).lockedOut = false ∧ (lockedOutOf (reading 264180 24403)).lockedOut = true
        ∧ station.figures.minimum ≤ station.figures.display 24403
        ∧ station.figures.display 24403 ≤ station.figures.max)
    ∧ station.figures.display 39 < station.figures.minimum
    ∧ (station.figures.minimum ≤ station.figures.display 150450
        ∧ (station.figures.max : Int) < station.figures.display 150450 ∧ (150450 : Int) ≤ station.figures.overload) := by
  refine ⟨fun _ _ _ _ _ _ _ => asked_asking _ rfl, by decide, by decide, by decide, by decide, by decide, by decide,
    ⟨by decide, ⟨_, rfl, rfl⟩, ?_⟩, ⟨rfl, ?_, rfl, by decide, by decide, by decide, by decide, by decide⟩, by decide, by decide⟩
  · rintro ⟨o, h, -⟩
    cases h
  · unfold State.StableArrival
    decide

/-- A held item: three of PLU 7 for clerk 3. -/
def item1 : Item :=
  { request := asked1, measure := .count 3, basePrice := 3747, price := 3745, openAtCapture := true, ticket := none }

/-- A held item by weight. -/
def item2 : Item := { item1 with measure := .weight 24403 none .none 24403 2440 2 }

/-- The station with an enabled watch of the given action on PLU 7 in slot 1. -/
def watching (a : WatchAction) : State :=
  { station with cap.slots := station.cap.slots.set 1 { watch := some ⟨.pluEqual, 7, a, true⟩, matched := false, serial := 0 } }

theorem test_witness_CountItemIsPosted :
    (∀ c p d u q s, (asking (.countItem c p d u q) s).asked (.countItem c p d u q))
    ∧ (¬ItemFieldsInRange 25 1 1 1 ∧ 99 < (100 : Byte).toNat ∧ ItemFieldsInRange 24 99999 8 999999
        ∧ ItemFieldsInRange 0 1 1 1 ∧ 1 ≤ (99 : Byte).toNat ∧ (99 : Byte).toNat ≤ 99)
    ∧ (joiner.hpt.runState ≠ .running ∧ busy.cap.capture ≠ .idle ∧ 0 < { station.day with copiesPending := 1 }.copiesPending
        ∧ { station.day with behind := true }.behind = true
        ∧ (holding { order1 with lineCount := 40 }).linesFull (3 : Byte).toNat ∧ (3 : Byte).toNat ≠ 0
        ∧ (at' .running .silent).lnk.state = .silent)
    ∧ ((holding order1).TakesCapture (3 : Byte).toNat ∧ (holding order1).day.latch = none
        ∧ (holding order1).hpt.events.length < 26)
    -- the price limit on both sides (Table 2-7, r = 5)
    ∧ (5 * ((2 * (99 * 10100) + 5) / (2 * 5)) ≤ 999999 ∧ 999999 < 5 * ((2 * (99 * 10101) + 5) / (2 * 5)))
    -- what completion and posting distinguish
    ∧ ((holding order1).heldBack item1 = false ∧ (watching .hold).heldBack item1 = true
        ∧ (watching .note).heldBack item1 = false ∧ (watching .note).watchMatches item1 1 = true)
    ∧ (8 ≤ { station.lbl with reservations := 8 }.records.length + 8 ∧ station.lbl.records.length + 7 < 8)
    ∧ ((holding order1).TakesFrame ∧ item1.request.clerk ≠ 0
        ∧ ¬{ station with lnk.queue := List.replicate 12 (.daysumAsk 1 1) }.TakesFrame) := by
  refine ⟨fun _ _ _ _ _ _ => asked_asking _ rfl, ?_, ⟨by decide, by decide, by decide, by decide, ⟨_, rfl, rfl⟩, by decide,
    by decide⟩, ⟨⟨rfl, rfl, rfl, rfl, fun _ => ⟨?_, by decide⟩⟩, rfl, by decide⟩, by decide, by decide, by decide, ?_⟩
  · unfold ItemFieldsInRange
    decide
  · rintro ⟨o, h, hc⟩
    obtain rfl : order1 = o := Option.some.inj h
    exact absurd hc (by decide)
  · unfold State.TakesFrame
    decide

/-- The station with a held item. -/
def heldStation (i : Item) : State :=
  { station with cap := { station.cap with capture := .held i [⟨0, .note, true⟩, ⟨1, .hold, true⟩] 480000 } }

/-- The station with a capture waiting. -/
def waitingStation : State := { station with cap := { station.cap with capture := .waiting asked1 .aboveMax 5 } }

theorem test_witness_WaitingCaptureEnds :
    (waitingStation.cap.capture = .waiting asked1 .aboveMax 5 ∧ waitingStation.day.latch = none
        ∧ waitingStation.hpt.events.length < 31)
    ∧ ((asking .abortCapture waitingStation).asked .abortCapture ∧ waitingStation.hpt.runState = .running)
    ∧ (busy.cap.capture = .waiting asked1 .none 5 ∧ busy.day.latch = some ⟨2, false, false⟩ ∧ busy.hpt.events.length < 31
        ∧ (asking .abortCapture busy).asked .abortCapture ∧ busy.hpt.runState = .running)
    -- the refusals of ABORT_CAPTURE
    ∧ ((∀ s, (asking .abortCapture s).asked .abortCapture) ∧ joiner.hpt.runState ≠ .running
        ∧ (station.hpt.runState = .running ∧ station.cap.capture = .idle)
        ∧ (heldStation item1).hpt.runState = .running ∧ ∃ i set n, (heldStation item1).cap.capture = .held i set n)
    -- an expiry in motion, whose report moves MOTION_TIMEOUTS
    ∧ (waitingStation.wch.state ≠ .sampleLost ∧ waitingStation.wch.zeroTaken = true ∧ waitingStation.wch.state ≠ .over) :=
  ⟨by decide, ⟨asked_asking _ rfl, rfl⟩, ⟨rfl, rfl, by decide, asked_asking _ rfl, rfl⟩,
    ⟨fun _ => asked_asking _ rfl, by decide, by decide, rfl, _, _, _, rfl⟩, by decide⟩

/-- The locked-out station with an item by weight held. -/
def lockedStation : State := lockedOutOf (heldStation item2)

theorem test_witness_ReleaseHeldPostsTheItem :
    (∀ s, (asking .releaseHeld s).asked .releaseHeld)
    ∧ ((at' .joining .live).hpt.runState ≠ .running ∧ station.hpt.runState = .running
        ∧ ∀ i set n, station.cap.capture ≠ .held i set n)
    ∧ (lockedStation.cap.capture = .held item2 [⟨0, .note, true⟩, ⟨1, .hold, true⟩] 480000
        ∧ lockedStation.hpt.runState = .running ∧ lockedStation.lockedOut = true
        ∧ ∃ g a b c d e, item2.measure = .weight g a b c d e)
    ∧ ((heldStation item1).lockedOut = false ∧ (∃ q, item1.measure = .count q)
        ∧ 8 ≤ { (heldStation item1).lbl with reservations := 8 }.records.length + 8)
    ∧ ((heldStation item1).lbl.records.length + { (heldStation item1).lbl with reservations := 7 }.reservations < 8
        ∧ (heldStation item1).day.latch = none ∧ (heldStation item1).hpt.events.length < 26
        ∧ [(⟨0, .note, true⟩ : Match), ⟨1, .hold, true⟩].length ≤ 4)
    ∧ { (heldStation item1) with day.latch := some ⟨2, false, false⟩ }.day.latch = some ⟨2, false, false⟩ :=
  ⟨fun _ => asked_asking _ rfl, ⟨by decide, rfl, fun _ _ _ h => by cases h⟩,
    ⟨by decide, by decide, by decide, _, _, _, _, _, _, rfl⟩,
    ⟨by decide, ⟨_, rfl⟩, by decide⟩, by decide, rfl⟩

theorem test_witness_HeldItemIsDropped :
    (∀ s, (asking .discardHeld s).asked .discardHeld)
    ∧ joiner.hpt.runState ≠ .running
    ∧ (station.hpt.runState = .running ∧ ∀ i set n, station.cap.capture ≠ .held i set n)
    ∧ (∃ i set n, (heldStation item1).cap.capture = .held i set n)
    ∧ ((heldStation item1).hpt.runState = .running ∧ (heldStation item1).day.latch = none
        ∧ (heldStation item1).hpt.events.length < 32)
    ∧ (let s := { (heldStation item1) with day.latch := some ⟨2, false, false⟩ }
       s.day.latch = some ⟨2, false, false⟩ ∧ s.hpt.events.length < 32 ∧ ∃ i set n, s.cap.capture = .held i set n) :=
  ⟨fun _ => asked_asking _ rfl, by decide, ⟨rfl, fun _ _ _ h => by cases h⟩, ⟨_, _, _, rfl⟩, by decide, rfl, by decide,
    _, _, _, rfl⟩

theorem test_witness_SetWatchWritesTheSlot :
    (∀ a b c d e f, (asking (.setWatch a b c d e f) station).asked (.setWatch a b c d e f))
    ∧ (3 < (4 : Byte).toNat ∧ (3 : Byte).toNat ≤ 3 ∧ (0 : Byte).toNat = 0)
    ∧ ((1 : Byte).toNat = 1 ∧ (99999 : BitVec 24).toNat ≤ 99999 ∧ 1 ≤ (8 : BitVec 24).toNat ∧ (8 : BitVec 24).toNat ≤ 8
        ∧ (24 : BitVec 24).toNat ≤ 24 ∧ (999999 : BitVec 24).toNat ≤ 999999 ∧ (30000 : BitVec 24).toNat ≤ 30000
        ∧ (4 : Byte).toNat = 4)
    ∧ (1 < (2 : Byte).toNat ∧ 4 < (5 : Byte).toNat)
    -- values just outside the range of each kind
    ∧ ((0 : BitVec 24).toNat = 0 ∧ 99999 < (100000 : BitVec 24).toNat ∧ 8 < (9 : BitVec 24).toNat ∧ 24 < (25 : BitVec 24).toNat
        ∧ 999999 < (1000000 : BitVec 24).toNat ∧ 30000 < (30001 : BitVec 24).toNat)
    ∧ ((asking (.clearWatchStatus 16) station).asked (.clearWatchStatus 16) ∧ 15 < (16 : Byte).toNat) :=
  ⟨fun _ _ _ _ _ _ => asked_asking _ rfl, by decide, by decide, by decide, by decide, asked_asking _ rfl, by decide⟩

theorem test_witness_ClearWatchStatusClearsTheSelected :
    (∀ b, (asking (.clearWatchStatus b) station).asked (.clearWatchStatus b))
    ∧ (0 : Byte).toNat = 0 ∧ 1 ≤ (1 : Byte).toNat ∧ (15 : Byte).toNat ≤ 15 :=
  ⟨fun _ => asked_asking _ rfl, by decide, by decide, by decide⟩

/-! ### Witnesses: requests that read the store or place a frame -/

/-- The station with a request that waits for its read, at the head of the list. -/
def awaiting (addresses : List Nat) (purpose : ReadPurpose) : State :=
  { station with
    hpt := { station.hpt with slot := .awaiting }
    tst := { station.tst with ops := [.read addresses purpose] } }

theorem test_witness_StoreReadingRequestsWait :
    (∀ n, (asking (.readJournal n) station).asked (.readJournal n) ∧ (asking (.readDayRecord n) station).asked (.readDayRecord n)
      ∧ (asking (.readFaults n) station).asked (.readFaults n) ∧ (asking (.readTotals n) station).asked (.readTotals n))
    ∧ (127 < (128 : Byte).toNat ∧ (127 : Byte).toNat ≤ 127 ∧ 7 < (8 : Byte).toNat ∧ (7 : Byte).toNat ≤ 7
        ∧ 5 < (6 : Byte).toNat ∧ (5 : Byte).toNat ≤ 5 ∧ 3 < (4 : Byte).toNat ∧ (3 : Byte).toNat = 3)
    ∧ (station.lbl.newest = 0 ∧ station.day.newestSlot = 0 ∧ station.hlm.newestFault = 0)
    ∧ ({ station.lbl with newest := 128 }.newest = 128 ∧ { station.day with newestSlot := 8 }.newestSlot = 8
        ∧ { station.hlm with newestFault := 6 }.newestFault = 6)
    ∧ (((1 : Nat) : Int) = (((128 : Nat) : Int) - 1 - (127 : Byte).toNat) % 128 + 1
        ∧ ((8 : Nat) : Int) = (((1 : Nat) : Int) - 1 - (1 : Byte).toNat) % 8 + 1
        ∧ ((6 : Nat) : Int) = (((6 : Nat) : Int) - 1 - (0 : Byte).toNat) % 6 + 1)
    ∧ (let s := awaiting [872, 873, 874, 875] (.journal 1 1)
       s.power = .on ∧ s.hpt.runState ≠ .storePrep ∧ s.hpt.slot = .awaiting ∧ s.tst.scrubPending = 0
        ∧ s.tst.ops = .read [872, 873, 874, 875] (.journal 1 1) :: []) :=
  ⟨fun _ => ⟨asked_asking _ rfl, asked_asking _ rfl, asked_asking _ rfl, asked_asking _ rfl⟩, by decide, by decide, by decide,
    by decide, by decide⟩

/-- The station with eleven request frames queued: one place is left. -/
def nearlyFull (s : State) : State := { s with lnk := { s.lnk with queue := List.replicate 11 (.daysumAsk 1 1) } }

theorem test_witness_FrameRequestsAreAccepted :
    ((nearlyFull station).hpt.runState = .running ∧ (nearlyFull station).lnk.state = .live
        ∧ (nearlyFull station).lnk.requestFrames < 12)
    ∧ ((asking (.askDaysum 65535) (nearlyFull station)).asked (.askDaysum 65535) ∧ (65535 : BitVec 16).toNat ≠ 0)
    ∧ (∀ f, (asking (.closeDay f) (nearlyFull station)).asked (.closeDay f))
    ∧ (station.day.behind = false ∧ (1 : Byte).toNat = 1 ∧ (0 : Byte).toNat = 0 ∧ station.clt.orders = [])
    ∧ ((asking .issueTicket station).asked .issueTicket ∧ station.hpt.straps.issuer = true
        ∧ station.tkt.conflict = false ∧ station.ticketConfig.untracked = false ∧ station.tkt.waiting.length < 48
        ∧ station.waits (nextTicket station.ticketConfig.wrap station.tkt.issued) = false
        ∧ station.bound (nextTicket station.ticketConfig.wrap station.tkt.issued) = false)
    ∧ ((asking (.callNext 24) busy).asked (.callNext 24) ∧ busy.tkt.waiting ≠ [] ∧ busy.order 24 = none)
    ∧ ((asking (.passTicket 3) (holding order0)).asked (.passTicket 3) ∧ (holding order0).order 3 = some order0
        ∧ order0.ticket.isSome = true ∧ order0.itemCount = 0)
    ∧ ((asking (.cancelOrder 3) (holding order1)).asked (.cancelOrder 3) ∧ (holding order1).order 3 = some order1)
    ∧ ((asking (.totalOrder 3) (holding order1)).asked (.totalOrder 3) ∧ 0 < order1.itemCount
        ∧ (holding order1).lbl.records.length + (holding order1).lbl.reservations < 8)
    ∧ ((asking (.voidLine 3 1) (holding order1)).asked (.voidLine 3 1) ∧ order1.line 1 = some line1
        ∧ line1.voided = false) :=
  ⟨by decide, ⟨asked_asking _ rfl, by decide⟩, fun _ => asked_asking _ rfl, by decide, ⟨asked_asking _ rfl, by decide⟩,
    ⟨asked_asking _ rfl, by decide⟩, ⟨asked_asking _ rfl, by decide⟩, ⟨asked_asking _ rfl, by decide⟩,
    ⟨asked_asking _ rfl, by decide⟩, ⟨asked_asking _ rfl, by decide⟩⟩

theorem test_witness_RefusedFrameRequestsChangeNothing :
    (asking (.callNext 1) station).asked (.callNext 1) ∧ (∃ t, exec (.callNext 1) (asking (.callNext 1) station) = .next t)
    ∧ (asking (.voidLine 3 1) (holding order1)).asked (.voidLine 3 1)
    -- the requests of the tables, on states where each row comes first (`test_refusals_in_order` names them)
    ∧ (station.lnk.state ≠ .off ∧ { station.lnk with state := .silent }.state ≠ .off
        ∧ (∀ s, (asking .issueTicket s).asked .issueTicket) ∧ (∀ s c, (asking (.callNext c) s).asked (.callNext c))
        ∧ (∀ s c, (asking (.passTicket c) s).asked (.passTicket c)) ∧ (∀ s c, (asking (.totalOrder c) s).asked (.totalOrder c))
        ∧ (∀ s c, (asking (.cancelOrder c) s).asked (.cancelOrder c))
        ∧ (∀ s c l, (asking (.voidLine c l) s).asked (.voidLine c l)) ∧ (∀ s f, (asking (.closeDay f) s).asked (.closeDay f))
        ∧ ∀ s d, (asking (.askDaysum d) s).asked (.askDaysum d)) :=
  ⟨asked_asking _ rfl, ⟨_, rfl⟩, asked_asking _ rfl, by decide, by decide, fun _ => asked_asking _ rfl,
    fun _ _ => asked_asking _ rfl, fun _ _ => asked_asking _ rfl, fun _ _ => asked_asking _ rfl, fun _ _ => asked_asking _ rfl,
    fun _ _ _ => asked_asking _ rfl, fun _ _ => asked_asking _ rfl, fun _ _ => asked_asking _ rfl⟩

/-- The station with every reason to refuse that a frame request can meet. -/
def unwilling : State :=
  { holding { order1 with lines := none, ticket := none } with
    hpt := { joiner.hpt with straps := ⟨1, 1, false⟩ }
    day := { station.day with behind := true }
    tkt := { station.tkt with conflict := true, waiting := (List.range 48).map fun k => entry (k + 30) }
    lbl := { station.lbl with reservations := 8 }
    lnk := { station.lnk with state := .silent, queue := List.replicate 12 (.daysumAsk 1 1) } }

/-- The result of a request on a state, and on that state after each of some repairs, made one upon another. -/
def results (i : Instr) (s : State) (repairs : List (State → State)) : List (Option ResultCode) :=
  (repairs.scanl (fun s f => f s) s).map fun s =>
    match (after i (asking i s)).hpt.slot with
    | .ready r => some r.result
    | .empty | .taken _ | .awaiting => none

/-! Repairs of a state that would refuse. -/

def runs (s : State) : State := { s with hpt.runState := .running }
def present (s : State) : State := { s with day.behind := false }
def agrees (s : State) : State := { s with tkt.conflict := false }
def hears (s : State) : State := { s with lnk.state := .live }
def drains (s : State) : State := { s with lnk.queue := [] }
def places (s : State) : State := { s with lbl.reservations := 7 }
def serves (o : Order) (s : State) : State := { s with clt.orders := [(3, o)] }
def waitsFor (l : List WaitEntry) (s : State) : State := { s with tkt.waiting := l }
def free (s : State) : State := { s with clt.orders := [] }

/-- Tables 4-3 to 4-5, R104, R163 and R174: each row refuses while it and the rows below it hold, and no longer. -/
theorem test_refusals_in_order :
    results .issueTicket unwilling
        [runs, fun s => { s with hpt.straps := ⟨1, 1, true⟩ }, present, agrees, waitsFor [], hears, drains]
      = [some .wrongState, some .notIssuer, some .dayBehind, some .ticketConflict, some .waitingFull, some .linkSilent,
          some .linkFull, some .accepted]
    ∧ results (.callNext 3) (waitsFor [] unwilling)
        [runs, present, agrees, waitsFor [entry 9], serves order0, hears, drains]
      = [some .wrongState, some .dayBehind, some .ticketConflict, some .noWaiting, some .clerkBusy, some .linkSilent,
          some .linkFull, some .accepted]
    ∧ results (.passTicket 3) unwilling [runs, present, agrees, serves order1, serves order0, hears, drains]
      = [some .wrongState, some .dayBehind, some .ticketConflict, some .noOrder, some .clerkBusy, some .linkSilent,
          some .linkFull, some .accepted]
    ∧ results (.cancelOrder 3) (free unwilling) [runs, present, serves order0, hears, drains]
      = [some .wrongState, some .dayBehind, some .noOrder, some .linkSilent, some .linkFull, some .accepted]
    ∧ results (.closeDay 0) unwilling [runs, present, free, hears, drains]
      = [some .wrongState, some .dayBehind, some .openOrders, some .linkSilent, some .linkFull, some .accepted]
    ∧ results (.askDaysum 1) unwilling [runs, hears, drains]
      = [some .wrongState, some .linkSilent, some .linkFull, some .accepted] := by decide +kernel

/-- Tables 5-4 and 5-5 in the same way, and PARAM before every other row. -/
theorem test_refusals_in_order_with_a_label :
    results (.totalOrder 3) (free unwilling) [runs, present, serves order0, serves order1, places, hears, drains]
      = [some .wrongState, some .dayBehind, some .noOrder, some .empty, some .labelFull, some .linkSilent, some .linkFull,
          some .accepted]
    ∧ results (.voidLine 3 1) (free unwilling)
        [runs, present, serves { order1 with lines := none }, serves { order1 with lines := some [{ line1 with voided := true }] },
          serves order1, places, hears, drains]
      = [some .wrongState, some .dayBehind, some .noOrder, some .linesAbsent, some .param, some .labelFull, some .linkSilent,
          some .linkFull, some .accepted]
    ∧ results (.voidLine 3 2) (present (runs (serves order1 unwilling))) [] = [some .param]
    ∧ ([.callNext 0, .callNext 25, .passTicket 0, .passTicket 25, .totalOrder 0, .totalOrder 25, .cancelOrder 0,
          .cancelOrder 25, .voidLine 0 1, .voidLine 25 1, .voidLine 3 0, .voidLine 3 41, .closeDay 2, .askDaysum 0].flatMap
        fun i => results i unwilling []) = List.replicate 14 (some .param) := by decide +kernel

/-! ### Witnesses: the link -/

theorem test_witness_AttemptSendsTheFormedHead :
    (let s := { station with lnk.queue := [.beacon, .censusReply] }
     s.power = .on ∧ s.lnk.state = .live ∧ s.lnk.attempt = none ∧ s.lnk.queue = .beacon :: [.censusReply]
      ∧ formation .beacon s = .formed (.beacon ⟨1, false, false, false, 0, 0⟩))
    ∧ (station.lnk.queue = [] ∧ busy.lnk.attempt.isSome = true ∧ unconfigured.lnk.state = .off)
    ∧ (let s := { station with tkt.issued := 99 }
       s.tkt.waiting.length < 48 ∧ s.ticketConfig.wrap = 99 ∧ s.waits 1 = false ∧ s.bound 1 = false)
    ∧ (let s := { station with tkt.waiting := [entry 6, entry 2] }
       s.order 3 = none ∧ s.ticketConfig.untracked = false ∧ s.tkt.waiting = entry 6 :: [entry 2])
    ∧ (let s := { station with tkt.config := some { untracked := true, wrap := 99 }, tkt.called := 99 }
       s.ticketConfig.untracked = true ∧ s.tkt.called = s.ticketConfig.wrap)
    ∧ ((holding { order1 with lineCount := 39 }).order 3 = some { order1 with lineCount := 39 })
    ∧ (station.order 3 = none ∧ (itemFrame { item1 with openAtCapture := false } 1).openAtCapture = false)
    ∧ ((holding order0).order 3 = some order0 ∧ order0.ticket = some 5 ∧ order0.itemCount = 0)
    ∧ ((holding order1).order 3 = some order1 ∧ 0 < order1.itemCount ∧ order1.holder ≤ 15
        ∧ order1.line 1 = some line1 ∧ line1.voided = false ∧ { order1 with expiryMark := true }.expiryMark = true)
    ∧ station.clt.orders = []
    ∧ (let s := { station with lnk.queue := [.call 4 3, .beacon] }
       s.lnk.backlog = { replyDue := false, clerks := [], days := [] } ∧ (TxFrame.call 4 3).tag = some 4
        ∧ s.hpt.events.length < 32)
    ∧ ({ station with day.held := [(1, 7)] }.recordSlot 7).isSome = true := by decide

/-- Each row of Table 3-5 in a state that meets it: a code for the request of the head, no event, or a late item. -/
theorem test_witness_removals :
    station.RemovesHead (.call 4 3) .noWaiting
    ∧ { holding order1 with tkt := { station.tkt with waiting := [entry 6] } }.RemovesHead (.call 4 3) .clerkBusy
    ∧ { station with tkt := { station.tkt with waiting := (List.range 48).map entry } }.RemovesHead (.issue 4) .waitingFull
    ∧ (holding order1).RemovesHead (.pass 4 3) .clerkBusy ∧ station.RemovesHead (.pass 4 3) .clerkBusy
    ∧ station.RemovesHead (.voidLine 4 3 1) .noOrder ∧ (holding order1).RemovesHead (.voidLine 4 3 2) .param
    ∧ station.RemovesHead (.txClose 4 3) .noOrder ∧ (holding order0).RemovesHead (.txClose 4 3) .empty
    ∧ station.RemovesHead (.cancelHost 4 3) .noOrder ∧ (holding order1).RemovesHead (.dayClose 4 1 false) .openOrders
    ∧ station.RemovesQuietly (.cancelExpiry 3) ∧ (holding order1).RemovesQuietly (.cancelExpiry 3)
    ∧ station.RemovesQuietly (.daysum 7 0 none) ∧ station.RemovesQuietly (.censusTx 3)
    ∧ station.MakesLate (itemFrame item1 1) .closed
    ∧ (holding { order1 with lineCount := 40 }).MakesLate (itemFrame item1 1) .linesFull := by
  have none3 : station.order 3 = none := rfl
  have some1 : (holding order1).order 3 = some order1 := rfl
  refine ⟨.inl ⟨rfl, rfl, rfl⟩, .inr ⟨rfl, .inr (by decide), order1, rfl, by decide⟩, ⟨rfl, .inl (by decide)⟩,
    ⟨rfl, fun o h => ?_⟩, ⟨rfl, fun o h => ?_⟩, .inl ⟨rfl, none3⟩, .inr ⟨rfl, order1, some1, fun l h => ?_⟩,
    .inl ⟨rfl, none3⟩, .inr ⟨rfl, order0, rfl, rfl⟩, ⟨rfl, none3⟩, ⟨rfl, rfl, by decide⟩, fun o h => ?_, fun o h => ?_, rfl,
    none3, .inl ⟨rfl, rfl, rfl⟩, .inr ⟨rfl, _, rfl, by decide⟩⟩
  · obtain rfl : order1 = o := Option.some.inj (some1.symm.trans h)
    exact .inr (by decide)
  · exact absurd (none3.symm.trans h) (by simp)
  · cases (show none = some l from h)
  · exact absurd (none3.symm.trans h) (by simp)
  · obtain rfl : order1 = o := Option.some.inj (some1.symm.trans h)
    rfl

/-- The station with an attempt for its TXCLOSE under way. -/
def sendingTxClose : State :=
  { holding order1 with
    lnk := { station.lnk with
      queue := [.txClose 6 3, .beacon], attempt := some ⟨1, .txClose ⟨1, 3, 5, 1, 3745⟩⟩, drive := .sending }
    lbl := { station.lbl with reservations := 1 } }

theorem test_witness_FailedAttemptsAreCounted :
    sendingTxClose.lnk.attempt.isSome = true ∧ { sendingTxClose.lnk with attemptCount := 14 }.attemptCount < 15
    ∧ { sendingTxClose.lnk with clash := 1 }.clash < 2 ∧ sendingTxClose.hpt.events.length < 32 ∧ 0 < (figures 1).zeroBand
    -- a count that brings LINK_RETRIES to its threshold
    ∧ normalizedValue .linkRetries 199 3000 = 91 ∧ normalizedValue .linkRetries 200 3000 = 90 := by decide

theorem test_witness_ClashSilencesAndFailuresDrop :
    (let s := { sendingTxClose with lnk := { sendingTxClose.lnk with
       clash := 2, queue := sendingTxClose.lnk.queue ++ [TxFrame.item (itemFrame item1 1)] } }
     s.lnk.attempt.isSome = true ∧ s.lnk.clash = 2 ∧ s.hpt.events.length + s.lnk.queue.length < 30
      ∧ TxFrame.txClose 6 3 ∈ s.lnk.queue ∧ (TxFrame.txClose 6 3).tag = some 6
      ∧ TxFrame.item (itemFrame item1 1) ∈ s.lnk.queue)
    ∧ (let s := { sendingTxClose with lnk := { sendingTxClose.lnk with attemptCount := 15 } }
       s.lnk.attempt.isSome = true ∧ s.lnk.attemptCount = 15 ∧ s.lnk.queue = .txClose 6 3 :: [.beacon] ∧ s.lnk.clash < 2
        ∧ s.lnk.backlog = { replyDue := false, clerks := [], days := [] } ∧ s.hpt.events.length < 29)
    ∧ (let s := { holding order1 with lnk := { station.lnk with
         queue := [.cancelExpiry 3], attempt := some ⟨1, .txCancel ⟨1, 3, 1⟩⟩, attemptCount := 15 } }
       s.lnk.attempt.isSome = true ∧ s.order 3 = some order1) := by decide

theorem test_witness_DamagedFramesAreObjectedTo :
    (let r : RawFrame := ⟨0xDF, 7, [], 0, true⟩
     station.power = .on ∧ station.lnk.state ≠ .off ∧ receivedFrame r = none ∧ r.arbitration.toNat / 16 < 14
      ∧ station.lnk.state = .live)
    ∧ (let r : RawFrame := ⟨0xE0, 0, [], 0, true⟩
       receivedFrame r = none ∧ 14 ≤ r.arbitration.toNat / 16)
    ∧ { station.lnk with state := .silent }.state = .silent := by decide

/-- A joiner that has heard of one open order and holds none. -/
def shortCensus (link : LinkState) : State :=
  { at' .joining link with
    lnk := { (at' .joining link).lnk with censusTimer := some 0 }
    clt := { joiner.clt with censusOpen := 1 } }

theorem test_witness_LinkAndOrderTimersRunOut :
    (let s := { station with lnk.beaconTimer := some 0 }
     s.lnk.beaconTimer = some 0 ∧ 0 < 5 * unitsPerSecond ∧ s.lnk.state = .live)
    ∧ { station with lnk.beaconTimer := some (5 * unitsPerSecond) }.lnk.beaconTimer = some (5 * unitsPerSecond)
    ∧ (let s := { joiner with lnk.censusTimer := some 0 }
       s.lnk.censusTimer.isSome = true ∧ s.hpt.runState = .joining ∧ s.clt.censusOpen ≤ s.openOrders
        ∧ s.lnk.state = .joining)
    ∧ (let s := { at' .joining .silent with lnk.censusTimer := some 0 }
       s.lnk.censusTimer.isSome = true ∧ s.hpt.runState = .joining)
    ∧ (let e : RosterEntry := { day := none, lockout := none, age := 1 }
       Table.get { station.lnk with roster := [(15, e)] }.roster (15 : BitVec 4).toNat = some e ∧ 0 < e.age)
    ∧ (∀ e, Table.get station.lnk.roster (15 : BitVec 4).toNat = some e → e.age = 0)
    ∧ ((holding order1).order (3 : Byte).toNat = some order1 ∧ order1.timer = some 100
        ∧ 100 < (holding order1).expiryDuration order1.holder
        ∧ (holding order1).hpt.events.length < 32 ∧ (holding order1).lnk.state = .live
        ∧ (holding order1).lnk.requestFrames < 12)
    ∧ { order1 with timer := some ((holding order1).expiryDuration 1) }.timer
        = some ((holding order1).expiryDuration order1.holder)
    ∧ 12 ≤ { station.lnk with queue := List.replicate 12 (.daysumAsk 1 1) }.requestFrames
    ∧ { holding order1 with lnk.state := .silent }.lnk.state = .silent
    -- a census that ends one order short (R110)
    ∧ ((shortCensus .joining).lnk.censusTimer.isSome = true ∧ (shortCensus .joining).hpt.runState = .joining
        ∧ (shortCensus .joining).openOrders < (shortCensus .joining).clt.censusOpen
        ∧ (shortCensus .joining).hpt.events.length < 28 ∧ (shortCensus .joining).lnk.state = .joining
        ∧ (shortCensus .silent).lnk.state = .silent) :=
  ⟨by decide, by decide, by decide, by decide, by decide, (fun _ h => by cases h), by decide, by decide, by decide, by decide,
    by decide⟩

theorem test_witness_AcceptedFramesRefreshTheRoster :
    (station.receives = true ∧ payloadInRange (.daysumAsk 65535) = true ∧ (15 : BitVec 4) ≠ station.hpt.straps.station
      ∧ ∃ t, exec (Frame.command ⟨15, .daysumAsk 65535⟩) station = .next t)
    ∧ (∀ g ∈ ([⟨2, .call ⟨2, 5, 3⟩⟩] : List Frame), g.origin.toNat ≠ 3)
    ∧ (Frame.origin ⟨1, .censusAsk⟩ = station.hpt.straps.station ∧ station.day.deferred = []
      ∧ ∃ t, exec (Frame.command ⟨1, .censusAsk⟩) station = .next t) :=
  ⟨⟨by decide, by decide, by decide, _, rfl⟩, by decide, by decide, by decide, _, rfl⟩

/-- The state with one frame queued and its attempt under way. -/
def sendingOne (f : TxFrame) (p : Payload) (s : State) : State :=
  { s with lnk := { s.lnk with queue := [f], attempt := some ⟨s.hpt.straps.station, p⟩, drive := .sending } }

/-- The station with 48 entries, the tickets 30 to 77, on its waiting list. -/
def fullList : State := { station with tkt := { station.tkt with waiting := (List.range 48).map fun k => entry (k + 30) } }

/-- The station in untracked mode. -/
def untracked : State := { station with tkt := { station.tkt with config := some ⟨true, 99⟩ } }

/-- The state with 32 event records held. -/
def brimming (s : State) : State := { s with hpt := { s.hpt with events := List.replicate 32 ⟨.holdExpired, 0⟩ } }

/-- R189: an event that finds 32 records is dropped and counted, up to 255, and the fault entry 7 recorded. -/
theorem test_full_event_queue :
    (let t := after (.issueAccepted 2 ⟨1, 5⟩) (brimming untracked)
     t.hpt.events = (brimming untracked).hpt.events ∧ t.hpt.overflow = 1 ∧ t.hlm.newestFault = 1 ∧ t.hlm.faultCount = 1
      ∧ ∃ words, t.tst.ops = [.recordWrite ((1400, 0x307) :: words)])
    ∧ (after (.issueAccepted 2 ⟨1, 5⟩) { brimming untracked with hpt.overflow := 255 }).hpt.overflow = 255 :=
  ⟨⟨by decide, by decide, by decide, by decide, _, rfl⟩, by decide⟩

theorem test_witness_full_event_queue :
    32 ≤ (brimming station).hpt.events.length
    ∧ ((brimming untracked).hearsToday (.issue ⟨1, 5⟩) ∧ (brimming untracked).ticketConfig.untracked = true
        ∧ (brimming untracked).sends ⟨2, .issue ⟨1, 5⟩⟩ = false)
    ∧ (let s := asking .abortCapture (brimming waitingStation)
       s.asked .abortCapture ∧ s.hpt.runState = .running ∧ s.cap.capture = .waiting asked1 .aboveMax 5
        ∧ s.day.latch = none)
    ∧ (let s := brimming (holding { order1 with timer := some 0 })
       s.order (3 : Byte).toNat = some { order1 with timer := some 0 } ∧ 0 < s.expiryDuration order1.holder
        ∧ order1.expiryMark = false) :=
  ⟨by decide, ⟨⟨by decide, by decide, by decide⟩, by decide, by decide⟩, ⟨asked_asking _ rfl, by decide⟩, by decide⟩

/-- What VIEW_MISMATCH a command raises: the kind, the clerk and the ticket of each. -/
def raises (i : Instr) (s : State) : List (MismatchKind × Option Nat × Option Nat) :=
  (after i s).hpt.events.filterMap fun r =>
    match r.event with
    | .viewMismatch k clerk ticket => some (k, clerk, ticket)
    | _ => none

/-- R77, R80, R83, R94, R95: the mismatches of ticket frames that do not fit the view. -/
theorem test_ticket_mismatches :
    [raises (.issueAccepted 2 ⟨1, 30⟩) fullList,
      raises (.issueAccepted 2 ⟨1, 5⟩) (holding order1),
      raises (.issueAccepted 2 ⟨1, 5⟩) fullList,
      raises (.callAccepted 2 ⟨1, 6, 3⟩) (holding order1),
      raises (.passAccepted 2 ⟨1, 30, 24⟩) fullList,
      raises (.passAccepted 2 ⟨1, 5, 24⟩) (holding order1),
      raises (.passAccepted 2 ⟨1, 5, 24⟩) fullList,
      raises (.passAccepted 2 ⟨1, 5, 3⟩) (holding order1),
      raises (.passAccepted 2 ⟨1, 6, 3⟩) (holding order0)]
      = [[(.issueDuplicate, none, some 30)],
          [(.issueBound, none, some 5)],
          [(.listFull, none, some 5)],
          [(.callAbsent, none, some 6), (.callBusy, some 3, none)],
          [(.orderUnknown, some 24, none), (.passDuplicate, none, some 30)],
          [(.orderUnknown, some 24, none), (.passBound, none, some 5)],
          [(.orderUnknown, some 24, none), (.listFull, none, some 5)],
          [(.passBusy, some 3, none)],
          [(.ticketDiffers, some 3, none)]] := by decide +kernel

theorem test_witness_TicketFramesMoveTheTicketView :
    (station.hearsToday (.issue ⟨1, 999⟩) ∧ station.hpt.events.length < 28)
    ∧ (sendingOne (.issue 4) (.issue ⟨1, 1⟩) station).sends ⟨1, .issue ⟨1, 1⟩⟩ = true
    ∧ (busy.hearsToday (.call ⟨1, 6, 24⟩) ∧ busy.order 24 = none)
    ∧ (let s := sendingOne (.call 4 3) (.call ⟨1, 6, 3⟩) (holding order0)
       s.sends ⟨1, .call ⟨1, 6, 3⟩⟩ = true ∧ s.lnk.queue = .call 4 (3 : BitVec 8).toNat :: [] ∧ s.order 3 = some order0
        ∧ order0.itemCount = 0 ∧ order0.ticket = some 5 ∧ 5 ≠ (6 : BitVec 16).toNat ∧ s.hpt.events.length < 26)
    ∧ ((holding order0).hearsToday (.pass ⟨1, 5, 3⟩) ∧ Table.sorted (holding order0).clt.orders = true
        ∧ (holding order0).order 3 = some order0 ∧ order0.itemCount = 0 ∧ order0.ticket = some 5
        ∧ (holding order0).ticketConfig.untracked = false ∧ (holding order0).waits 5 = false
        ∧ (holding order0).tkt.waiting.length < 48
        ∧ ∀ c o, (holding order0).order c = some o → c ≠ 3 → o.ticket ≠ some 5)
    ∧ (let s := sendingOne (.pass 4 3) (.pass ⟨1, 5, 3⟩) (holding order0)
       s.sends ⟨1, .pass ⟨1, 5, 3⟩⟩ = true ∧ s.lnk.queue = .pass 4 (3 : BitVec 8).toNat :: []
        ∧ (holding order0).sends ⟨1, .pass ⟨1, 5, 3⟩⟩ = false)
    -- ISSUE: a ticket listed, bound, one too many, and one that joins; untracked mode
    ∧ (fullList.hearsToday (.issue ⟨1, 30⟩) ∧ fullList.hpt.events.length < 26 ∧ fullList.ticketConfig.untracked = false
        ∧ fullList.waits 30 = true ∧ (holding order1).waits 5 = false ∧ (holding order1).bound 5 = true
        ∧ fullList.waits 5 = false ∧ fullList.bound 5 = false ∧ 48 ≤ fullList.tkt.waiting.length
        ∧ station.tkt.waiting.length < 48 ∧ untracked.ticketConfig.untracked = true)
    -- CALL: a ticket listed or absent, an order with and without lines
    ∧ (busy.hearsToday (.call ⟨1, 6, 3⟩) ∧ busy.waits 6 = true ∧ (holding order1).waits 6 = false
        ∧ (holding order1).ServesLines 3 ∧ ¬(holding order0).ServesLines 3 ∧ (holding order0).waits 6 = false)
    -- PASS: an order FREE, with lines, and with another ticket; a ticket listed, bound, and with two passes already
    ∧ (fullList.hearsToday (.pass ⟨1, 30, 24⟩) ∧ fullList.hpt.events.length < 24 ∧ fullList.order 24 = none
        ∧ (holding order1).order 3 = some order1 ∧ 0 < order1.itemCount
        ∧ (holding order0).order 3 = some order0 ∧ order0.ticket ≠ some 6
        ∧ fullList.ticketConfig.untracked = false ∧ fullList.waits 30 = true
        ∧ (after (.passAccepted 2 ⟨1, 5, 24⟩) (holding order1)).bound 5 = true ∧ (holding order1).waits 5 = false
        ∧ (after (.passAccepted 2 ⟨1, 5, 24⟩) fullList).bound 5 = false ∧ 48 ≤ fullList.tkt.waiting.length
        ∧ (Table.get { station.tkt with passes := [(24, ⟨5, 2⟩)] }.passes 24) = some ⟨5, 2⟩ ∧ 2 < 2 + 1) := by
  refine ⟨⟨⟨by decide, by decide, by decide⟩, by decide⟩, by decide, ⟨⟨by decide, by decide, by decide⟩, by decide⟩, by decide,
    ⟨⟨by decide, by decide, by decide⟩, by decide, by decide, by decide, by decide, by decide, by decide, by decide, ?_⟩,
    by decide, ⟨⟨by decide, by decide, by decide⟩, by decide +kernel⟩,
    ⟨⟨by decide, by decide, by decide⟩, by decide, by decide, ⟨_, rfl, by decide⟩, ?_, by decide⟩,
    ⟨⟨by decide, by decide, by decide⟩, by decide +kernel⟩⟩
  case refine_2 =>
    rintro ⟨o, h, hc⟩
    obtain rfl : order0 = o := Option.some.inj h
    exact absurd hc (by decide)
  intro c o h hc
  have hn : (holding order0).order c = none := by simp [State.order, holding, Table.get, Ne.symm hc]
  rw [hn] at h
  cases h

/-- The station whose order of clerk 3 is known without its lines. -/
def stubStation : State := holding { order1 with lines := none }

/-- An order whose one line is void. -/
def orderVoid : Order := { order1 with itemCount := 0, amount := 0, lines := some [{ line1 with voided := true }] }

/-- R96 to R100: the mismatches of order frames that do not fit the order. -/
theorem test_order_mismatches :
    [raises (.itemAccepted 2 ⟨1, true, 24, 2, 1, 1, 5, 1, 1⟩) station,
      raises (.itemAccepted 2 ⟨1, true, 3, 3, 1, 1, 5, 1, 1⟩) (holding order1),
      raises (.voidAccepted 2 ⟨1, 24, 1, 5⟩) station,
      raises (.voidAccepted 2 ⟨1, 3, 1, 3746⟩) stubStation,
      raises (.voidAccepted 2 ⟨1, 3, 2, 3746⟩) (holding order1),
      raises (.voidAccepted 2 ⟨1, 3, 1, 3745⟩) (holding orderVoid),
      raises (.voidAccepted 2 ⟨1, 3, 1, 3744⟩) (holding order1),
      raises (.txCloseAccepted 2 ⟨1, 3, 5, 1, 3744⟩) (holding order1),
      raises (.txCloseAccepted 2 ⟨1, 24, 5, 1, 3744⟩) station,
      raises (.txCancelAccepted 2 ⟨1, 24, 0⟩) station,
      raises .censusTimerExpiry (shortCensus .joining)]
      = [[(.orderUnknown, some 24, none)],
          [(.lineConflict, some 3, none)],
          [(.orderUnknown, some 24, none)],
          [(.voidAbsent, some 3, none)],
          [(.voidAbsent, some 3, none)],
          [(.voidRepeat, some 3, none)],
          [(.voidAbsent, some 3, none)],
          [(.totalFigures, some 3, none)],
          [(.orderUnknown, some 24, none)],
          [(.orderUnknown, some 24, none)],
          [(.censusShort, none, none)]] := by decide +kernel

theorem test_witness_ItemAndVoidMoveTheOrder :
    (station.hearsToday (.item ⟨1, true, 24, 40, 99999, 8, 999999, 99, 999999⟩) ∧ station.order 24 = none)
    ∧ ((holding order1).hearsToday (.item ⟨1, false, 3, 2, 1, 1, 0, 20, 1⟩) ∧ (holding order1).order 3 = some order1
        ∧ order1.lines = some [line1] ∧ (2 : BitVec 8).toNat = order1.lineCount + 1)
    ∧ (stubStation.hearsToday (.item ⟨1, false, 3, 40, 1, 1, 0, 20, 1⟩) ∧ stubStation.order 3 = some { order1 with lines := none })
    ∧ ((holding order1).hearsToday (.voidLine ⟨1, 3, 1, 3745⟩) ∧ (holding order1).sends ⟨2, .voidLine ⟨1, 3, 1, 3745⟩⟩ = false
        ∧ order1.line 1 = some line1 ∧ line1.voided = false ∧ (3745 : BitVec 24).toNat = line1.price
        ∧ 1 ≤ order1.itemCount ∧ line1.price ≤ order1.amount)
    ∧ (let s := sendingOne (.voidLine 4 3 1) (.voidLine ⟨1, 3, 1, 3745⟩) (holding order1)
       s.sends ⟨1, .voidLine ⟨1, 3, 1, 3745⟩⟩ = true ∧ s.lnk.queue = .voidLine 4 (3 : BitVec 8).toNat 1 :: []
        ∧ s.hpt.events.length < 32 ∧ s.lnk.backlog.days = [])
    -- an ITEM that opens an order with its first line, and one that leaves a line out
    ∧ (station.hearsToday (.item ⟨1, true, 24, 1, 1, 1, 5, 1, 1⟩) ∧ (1 : BitVec 8).toNat = 1 ∧ station.hpt.events.length < 28
        ∧ (3 : BitVec 8).toNat ≠ order1.lineCount + 1)
    -- a VOID for a FREE order, a stub with and without the price, a line absent, void, and held with another price
    ∧ (station.hearsToday (.voidLine ⟨1, 24, 40, 999999⟩) ∧ station.order 24 = none ∧ station.hpt.events.length < 27
        ∧ stubStation.order 3 = some { order1 with lines := none } ∧ { order1 with lines := none }.amount < 3746
        ∧ { order1 with lines := none }.itemCount ≠ 0 ∧ 3745 ≤ order1.amount
        ∧ order1.lines ≠ none ∧ order1.line 2 = none
        ∧ (holding orderVoid).order 3 = some orderVoid ∧ orderVoid.line 1 = some { line1 with voided := true }
        ∧ 3744 ≠ line1.price)
    ∧ (let s := sendingOne (.voidLine 4 24 1) (.voidLine ⟨1, 24, 1, 5⟩) station
       s.sends ⟨1, .voidLine ⟨1, 24, 1, 5⟩⟩ = true ∧ s.lnk.queue = .voidLine 4 (24 : BitVec 8).toNat 1 :: []
        ∧ s.order 24 = none) :=
  ⟨⟨⟨by decide, by decide, by decide⟩, by decide⟩, ⟨⟨by decide, by decide, by decide⟩, by decide, by decide, by decide⟩,
    ⟨⟨by decide, by decide, by decide⟩, by decide⟩, ⟨⟨by decide, by decide, by decide⟩, by decide, by decide, by decide,
    by decide, by decide, by decide⟩, by decide, ⟨⟨by decide, by decide, by decide⟩, by decide⟩,
    ⟨⟨by decide, by decide, by decide⟩, by decide⟩, by decide⟩

theorem test_witness_CloseAndCancelFreeTheOrder :
    ((holding order1).hearsToday (.txClose ⟨1, 3, 5, 1, 3745⟩) ∧ (holding order1).order 3 = some order1
        ∧ order1.ticket.getD 0 = (5 : BitVec 16).toNat ∧ order1.itemCount = (1 : BitVec 8).toNat
        ∧ order1.amount = (3745 : BitVec 32).toNat ∧ (holding order1).sends ⟨2, .txClose ⟨1, 3, 5, 1, 3745⟩⟩ = false)
    ∧ (sendingTxClose.hearsToday (.txClose ⟨1, 3, 5, 1, 3745⟩)
        ∧ sendingTxClose.sends ⟨1, .txClose ⟨1, 3, 5, 1, 3745⟩⟩ = true
        ∧ sendingTxClose.lnk.queue = .txClose 6 3 :: [.beacon] ∧ sendingTxClose.hpt.events.length < 32)
    ∧ ((holding order1).hearsToday (.txCancel ⟨1, 3, 1⟩) ∧ (holding order1).order 3 = some order1
        ∧ (holding order1).sends ⟨2, .txCancel ⟨1, 3, 1⟩⟩ = false)
    ∧ (let s := sendingOne (.cancelHost 4 3) (.txCancel ⟨1, 3, 0⟩) (holding order1)
       s.sends ⟨1, .txCancel ⟨1, 3, 0⟩⟩ = true ∧ s.lnk.queue = .cancelHost 4 3 :: [] ∧ s.hpt.events.length < 32
        ∧ s.lnk.backlog.days = [])
    -- a TXCLOSE with another count, and both frames for a FREE order, at a receiver and at the sender
    ∧ ((holding order1).hearsToday (.txClose ⟨1, 3, 5, 2, 3745⟩) ∧ order1.itemCount ≠ (2 : BitVec 8).toNat
        ∧ (holding order1).hpt.events.length < 27)
    ∧ (let s := sendingOne (.txClose 4 24) (.txClose ⟨1, 24, 5, 1, 5⟩) station
       s.hearsToday (.txClose ⟨1, 24, 5, 1, 5⟩) ∧ s.sends ⟨1, .txClose ⟨1, 24, 5, 1, 5⟩⟩ = true
        ∧ s.lnk.queue = .txClose 4 (24 : BitVec 8).toNat :: [] ∧ s.order 24 = none)
    ∧ (let s := sendingOne (.cancelHost 4 24) (.txCancel ⟨1, 24, 0⟩) station
       s.hearsToday (.txCancel ⟨1, 24, 0⟩) ∧ s.sends ⟨1, .txCancel ⟨1, 24, 0⟩⟩ = true
        ∧ s.lnk.queue = .cancelHost 4 24 :: [] ∧ (TxFrame.cancelHost 4 24).tag = some 4 ∧ s.order 24 = none) :=
  ⟨⟨⟨by decide, by decide, by decide⟩, by decide, by decide, by decide, by decide, by decide⟩,
    ⟨⟨by decide, by decide, by decide⟩, by decide, by decide, by decide⟩,
    ⟨⟨by decide, by decide, by decide⟩, by decide, by decide⟩, by decide,
    ⟨⟨by decide, by decide, by decide⟩, by decide⟩, ⟨⟨by decide, by decide, by decide⟩, by decide⟩,
    ⟨⟨by decide, by decide, by decide⟩, by decide⟩⟩

/-- The station with the record of day 7 in slot 1. -/
def recording : State := { station with day := { station.day with newestSlot := 1, held := [(1, 7)] } }

/-- The station with OPEN orders of three clerks and the given station frames queued. -/
def censused (q : List TxFrame) : State :=
  { station with
    clt := { station.clt with orders := [(1, order1), (3, order0), (24, order1)] }
    lnk := { station.lnk with queue := q } }

/-- The state that sends its head frame, with three station frames behind it and a backlog. -/
def backlogged (b : Backlog) : State :=
  { censused [.beacon, .beacon, .beacon, .beacon] with
    lnk := { station.lnk with
      queue := [.beacon, .beacon, .beacon, .beacon]
      attempt := some ⟨1, .beacon ⟨1, false, false, false, 0, 0⟩⟩
      drive := .sending
      backlog := b } }

/-- R50, R65: the answer to a CENSUS_ASK fills the free station places, the reply first and then the lowest clerks, and the
other clerks wait; a place that an own acceptance frees takes the lowest clerk whose order is still OPEN, then a day. -/
theorem test_census_answer :
    (let t := after (.censusAskAccepted 2) (censused [.beacon, .beacon])
     t.lnk.queue = [.beacon, .beacon, .censusReply, .censusTx 1]
      ∧ t.lnk.backlog = { replyDue := false, clerks := [3, 24], days := [] })
    ∧ (after (.censusAskAccepted 2) (censused [.censusReply, .censusTx 3])).lnk.queue
        = [.censusReply, .censusTx 3, .censusTx 1, .censusTx 24]
    ∧ (let t := after (.beaconAccepted 1 ⟨1, false, false, false, 0, 0⟩)
          (backlogged { replyDue := false, clerks := [2, 24], days := [9] })
       t.lnk.queue = [.beacon, .beacon, .beacon, .censusTx 24]
        ∧ t.lnk.backlog = { replyDue := false, clerks := [], days := [9] })
    ∧ (after (.beaconAccepted 1 ⟨1, false, false, false, 0, 0⟩)
          (backlogged { replyDue := false, clerks := [2], days := [9, 7] })).lnk.backlog
        = { replyDue := false, clerks := [], days := [7] } := by decide

/-- R172: a read that RESTART leaves in the list fills no DAYSUM placed after it; the frame takes its own read. -/
theorem test_stale_daysum_read :
    let placed := after (.daysumAskAccepted 2 7) (after .restart (asking .restart (after (.daysumAskAccepted 2 7) recording)))
    placed.lnk.queue = [.censusAsk, .daysum 7 2 none] ∧ placed.tst.ops.length = 2
      ∧ (after .storeRead placed).lnk.queue = [.censusAsk, .daysum 7 2 none]
      ∧ (after .storeRead (after .storeRead placed)).lnk.queue = [.censusAsk, .daysum 7 2 (some ⟨0, 0, 0, 0⟩)] := by
  decide +kernel

theorem test_witness_DaysumsAndAsksAreHandled :
    (recording.receives = true ∧ payloadInRange (.daysum ⟨7, 1, 2, 3, 4⟩) = true
        ∧ recording.recordSlot (8 : BitVec 16).toNat = none ∧ recording.sends ⟨2, .daysum ⟨8, 1, 2, 3, 4⟩⟩ = false
        ∧ recording.recordSlot (7 : BitVec 16).toNat = some 1)
    -- a DAYSUM_ASK: a day not held, a place free, and none free with 8 days listed
    ∧ ((7 : BitVec 16).toNat ≠ 0 ∧ recording.sends ⟨2, .daysumAsk 7⟩ = false ∧ recording.lnk.state = .live
        ∧ (∀ n figures, .daysum 7 n figures ∉ recording.lnk.queue) ∧ recording.lnk.stationFrames < 4
        ∧ recording.lnk.backlog = { replyDue := false, clerks := [], days := [] })
    ∧ (let l := { recording.lnk with
          queue := [.beacon, .beacon, .beacon, .beacon], backlog := { Backlog.none with days := List.range 8 } }
       (∀ n figures, .daysum 9 n figures ∉ l.queue) ∧ 9 ∉ l.backlog.days ∧ 4 ≤ l.stationFrames ∧ 8 ≤ l.backlog.days.length)
    -- its sender, behind whose head a beacon waits
    ∧ (let s := sendingOne (.daysumAsk 4 7) (.daysumAsk 7) recording
       s.receives = true ∧ s.sends ⟨1, .daysumAsk 7⟩ = true ∧ s.lnk.queue = .daysumAsk 4 7 :: [] ∧ s.recordSlot 7 = some 1
        ∧ (∀ n figures, .daysum 7 n figures ∉ ([.beacon] : List TxFrame)) ∧ s.hpt.events.length < 32
        ∧ s.lnk.stationFrames < 4 ∧ station.recordSlot 7 = none)
    -- a CENSUS_ASK at a station with OPEN orders, at a joiner and at its sender
    ∧ (let s := censused [.beacon, .beacon]
       s.receives = true ∧ s.sends ⟨2, .censusAsk⟩ = false ∧ s.hpt.runState = .running ∧ s.lnk.state = .live
        ∧ Table.sorted s.clt.orders = true ∧ s.lnk.backlog = { replyDue := false, clerks := [], days := [] }
        ∧ 2 = 4 - s.lnk.stationFrames)
    ∧ (joiner.receives = true ∧ joiner.hpt.runState ≠ .running)
    ∧ (let s := sendingOne .censusAsk .censusAsk joiner
       s.receives = true ∧ s.sends ⟨1, .censusAsk⟩ = true ∧ s.lnk.queue = .censusAsk :: [])
    -- a freed place
    ∧ (let s := backlogged { replyDue := false, clerks := [2, 24], days := [9] }
       s.receives = true ∧ s.sends ⟨1, .beacon ⟨1, false, false, false, 0, 0⟩⟩ = true
        ∧ payloadInRange (.beacon ⟨1, false, false, false, 0, 0⟩) = true
        ∧ payloadClass (.beacon ⟨1, false, false, false, 0, 0⟩) = 13
        ∧ s.lnk.queue = .beacon :: [.beacon, .beacon, .beacon]
        ∧ (([.beacon, .beacon, .beacon] : List TxFrame).filter fun x => !x.isRequest).length = 3
        ∧ s.lnk.backlog.clerks.dropWhile (fun c => (s.order c).isNone) = 24 :: []) := by
  refine ⟨by decide, ⟨by decide, by decide, by decide, (fun _ _ h => by cases h), by decide, by decide⟩,
    ⟨?_, by decide, by decide, by decide⟩, ⟨by decide, by decide, by decide, by decide, ?_, by decide, by decide, by decide⟩,
    by decide, by decide, by decide, by decide⟩
  all_goals
    intro n figures h
    simp at h

theorem test_witness_CensusFramesFillAJoinersView :
    (joiner.receives = true ∧ payloadInRange (.censusReply ⟨1, false, false, 99, 98, 24⟩) = true
        ∧ joiner.hpt.runState = .joining ∧ joiner.ticketConfig.untracked = false
        ∧ joiner.ticketConfig.wrap = (if false then 999 else 99)
        ∧ newer joiner.ticketConfig.wrap 99 joiner.tkt.issued = true ∧ 99 ≤ joiner.ticketConfig.wrap
        ∧ newer joiner.ticketConfig.wrap 0 joiner.tkt.issued = false)
    ∧ (payloadInRange (.censusTx ⟨24, 99, 40, 39999960, 2⟩) = true ∧ joiner.order 24 = none)
    ∧ (station.receives = true ∧ station.hpt.runState ≠ .joining)
    -- a CENSUS_REPLY of the own mode and wrap at a RUNNING station, and a BEACON of them at a joiner
    ∧ (payloadInRange (.censusReply ⟨1, false, false, 99, 98, 24⟩) = true ∧ station.hpt.runState = .running
        ∧ station.ticketConfig.wrap = (if false then 999 else 99))
    ∧ (payloadInRange (.beacon ⟨1, false, false, true, 99, 98⟩) = true ∧ newer 99 98 joiner.tkt.called = true)
    -- a later day that is not the successor of D, with a close latched
    ∧ (busy.receives = true ∧ laterDay (3 : BitVec 16).toNat busy.day.day = true ∧ busy.hpt.events.length < 29
        ∧ (3 : BitVec 16).toNat ≠ (if busy.day.day = 65535 then 1 else busy.day.day + 1) ∧ busy.day.latch ≠ none)
    ∧ (payloadInRange (.beacon ⟨1, false, false, true, 99, 99⟩) = true ∧ (2 : BitVec 4) ≠ station.hpt.straps.station
        ∧ laterDay (1 : BitVec 16).toNat station.day.day = false ∧ station.ticketConfig.untracked = false
        ∧ station.ticketConfig.wrap = (if false then 999 else 99))
    ∧ { station.tkt with conflict := true }.conflict = true
    ∧ (payloadInRange (.beacon ⟨2, true, true, false, 0, 0⟩) = true ∧ station.hpt.events.length < 29
        ∧ station.ticketConfig.untracked ≠ true ∧ station.ticketConfig.wrap ≠ (if true then 999 else 99)
        ∧ station.tkt.conflict = false)
    ∧ (laterDay (2 : BitVec 16).toNat station.day.day = true ∧ station.day.latch = none ∧ station.day.behind = false
        ∧ busy.day.latch = some ⟨2, false, false⟩ ∧ (2 : BitVec 16).toNat = busy.day.day + 1) := by decide

/-! ### Witnesses: the day and the totals store -/

/-- Station 1 with the stations 2 and 15 in its roster. -/
def rostered : State :=
  { station with lnk.roster := [(2, ⟨none, none, 0⟩), (15, ⟨none, none, 0⟩)] }

/-- The station with a latched close of day 1 and one deferred frame of day 2. -/
def deferring : State :=
  { station with day := { station.day with latch := some ⟨2, false, true⟩, deferred := [⟨7, .issue ⟨2, 5⟩⟩] } }

/-- R166: a deferred frame of the new day is applied by the close start, and its origin enters the roster; one of another day
enters its origin alone. -/
theorem test_deferred_frames :
    (let t := after .closeStart deferring
     t.day.day = 2 ∧ t.day.deferred = [] ∧ t.tkt.issued = 5 ∧ (Table.get t.lnk.roster 7).isSome = true)
    ∧ (let t := after .closeStart { deferring with day := { deferring.day with deferred := [⟨7, .issue ⟨3, 5⟩⟩] } }
       t.day.deferred = [] ∧ t.tkt.issued = 0 ∧ t.tkt.waiting = [] ∧ (Table.get t.lnk.roster 7).isSome = true) := by
  decide

/-- The sender of a DAYCLOSE with an ISSUE, an ITEM and a beacon queued behind it. -/
def closing : State :=
  let s := sendingOne (.dayClose 4 1 true) (.dayClose ⟨1, true⟩) station
  { s with lnk.queue := [.dayClose 4 1 true, .issue 5, .item (itemFrame item1 1), .beacon] }

/-- R84, R114, R163, R167: at the sender the day advances, the ISSUE behind the DAYCLOSE completes with DAY_CLOSED and then the
sender's own request with OK, and the ITEM is no late item. -/
theorem test_close_at_the_sender :
    let t := after (.dayCloseAccepted 1 ⟨1, true⟩) closing
    t.day.day = 2 ∧ t.lnk.queue = [.beacon]
      ∧ t.hpt.events.map EventRecord.event = [.requestDone 5 .dayClosed none, .requestDone 4 .ok none] := by decide

theorem test_witness_CloseStartAdvancesTheDay :
    (station.cap.capture = .idle ∧ station.day.deferred = [])
    ∧ (let s := { station with day := { station.day with day := 65535 } }
       (∃ t, exec (.dayCloseAccepted 2 ⟨65535, true⟩) s = .next t) ∧ s.receives = true
        ∧ (65535 : BitVec 16).toNat = s.day.day ∧ s.day.latch = none ∧ s.sends ⟨2, .dayClose ⟨65535, true⟩⟩ = false)
    ∧ ((∃ t, exec (.dayCloseAccepted 2 ⟨32768, true⟩) station = .next t) ∧ laterDay (32768 : BitVec 16).toNat station.day.day = true
        ∧ station.sends ⟨2, .dayClose ⟨32768, true⟩⟩ = false)
    ∧ (let s := { station with day := { station.day with latch := some ⟨2, false, true⟩ } }
       (∃ t, exec .closeStart s = .next t) ∧ s.day.latch = some { newDay := 2, late := false, forced := true })
    ∧ (let s := { station with day := { station.day with behind := true, highest := 3 } }
       (∃ t, exec .joinDay (asking .joinDay s) = .next t) ∧ (asking .joinDay s).asked .joinDay
        ∧ s.hpt.runState = .running ∧ s.day.behind = true)
    -- a highest day that is still later than the new one
    ∧ (laterDay 65535 32768 = true ∧ laterDay 32768 1 = true)
    -- a head of classes 1..7 and one of class 13, and a roster of three
    ∧ ((sendingOne (.issue 4) (.issue ⟨1, 1⟩) station).lnk.queue = .issue 4 :: [] ∧ (TxFrame.issue 4).isDayScoped = true
        ∧ TxFrame.beacon.isDayScoped = false)
    ∧ rostered.snapshot = 0x8006
    -- one deferred frame of the new day, on a link that is idle
    ∧ (∃ t₀, exec .closeStart { deferring with day.deferred := [] } = .next t₀ ∧ deferring.cap.capture = .idle
        ∧ deferring.day.latch ≠ none ∧ deferring.day.deferred = [⟨7, .issue ⟨2, 5⟩⟩]
        ∧ payloadInRange (.issue ⟨2, 5⟩) = true ∧ payloadClass (.issue ⟨2, 5⟩) = 2
        ∧ dayTagOf (.issue ⟨2, 5⟩) = t₀.day.day % 256 ∧ t₀.receives = true ∧ t₀.lnk.attempt = none
        ∧ t₀.lnk.formWaiting = false ∧ t₀.lnk.drive = .recessive)
    -- the four ways in which a close starts: DAYCLOSE at a receiver and at its sender, CLOSE_START, JOIN_DAY
    ∧ rostered.StartsClose (.dayCloseAccepted 2 ⟨1, true⟩) ⟨2, false, true⟩ (some 2) none .empty
    ∧ closing.StartsClose (.dayCloseAccepted 1 ⟨1, true⟩) ⟨2, false, true⟩ (some 1) (some 4) .empty
    ∧ deferring.StartsClose .closeStart ⟨2, false, true⟩ none none .empty
    ∧ (let s := asking .joinDay { station with day := { station.day with behind := true, highest := 3 } }
       s.StartsClose .joinDay ⟨3, true, false⟩ none none (.ready { result := .ok, data := [] }))
    -- room for the events of the frames behind the sender's, and its deferred frame
    ∧ (closing.CloseRoom ∧ closing.lnk.queue.filter TxFrame.isDayScoped ≠ [] ∧ closing.lnk.backlog = Backlog.none
        ∧ { closing with day.deferred := [⟨7, .issue ⟨2, 5⟩⟩] }.StartsClose (.dayCloseAccepted 1 ⟨1, true⟩) ⟨2, false, true⟩
            (some 1) (some 4) .empty
        ∧ ∃ t₀, exec (.dayCloseAccepted 1 ⟨1, true⟩) closing = .next t₀ ∧ t₀.hpt.events.length < 32) := by
  refine ⟨by decide, ⟨⟨_, rfl⟩, by decide⟩, ⟨⟨_, rfl⟩, by decide⟩, ⟨⟨_, rfl⟩, by decide⟩,
    ⟨⟨_, rfl⟩, asked_asking _ rfl, by decide⟩, by decide, by decide, by decide, ⟨_, rfl, by decide⟩, ?_, ?_, ?_, ?_,
    ⟨by decide, fun a => ?_⟩, by decide, rfl, ?_, _, rfl, by decide⟩
  · exact ⟨rfl, .inl ⟨2, ⟨1, true⟩, rfl, by decide, by decide, rfl, .inl ⟨rfl, rfl, rfl⟩, rfl, rfl, rfl,
      .inl ⟨by decide, rfl⟩⟩⟩
  · exact ⟨rfl, .inl ⟨1, ⟨1, true⟩, rfl, by decide, by decide, rfl, .inl ⟨rfl, rfl, rfl⟩, rfl, rfl, rfl,
      .inr ⟨by decide, _, _, _, _, rfl, rfl⟩⟩⟩
  · exact ⟨rfl, .inr (.inl ⟨rfl, rfl, rfl, rfl, rfl⟩)⟩
  · exact ⟨rfl, .inr (.inr ⟨rfl, asked_asking _ rfl, rfl, rfl, rfl, rfl, rfl, rfl⟩)⟩
  · cases a <;> decide
  · exact ⟨rfl, .inl ⟨1, ⟨1, true⟩, rfl, by decide, by decide, rfl, .inl ⟨rfl, rfl, rfl⟩, rfl, rfl, rfl,
      .inr ⟨by decide, _, _, _, _, rfl, rfl⟩⟩⟩

theorem test_witness_DayCommandsComplete :
    (waitingStation.receives = true ∧ (1 : BitVec 16).toNat ≠ 0 ∧ waitingStation.sends ⟨2, .dayClose ⟨1, true⟩⟩ = false
        ∧ waitingStation.cap.capture ≠ .idle ∧ waitingStation.day.latch = none
        ∧ (1 : BitVec 16).toNat = waitingStation.day.day)
    ∧ ((65535 : BitVec 16).toNat ≠ station.day.day ∧ laterDay (65535 : BitVec 16).toNat station.day.day = false)
    ∧ (station.receives = true ∧ station.day.latch = none ∧ station.cap.capture = .idle)
    ∧ ({ station with day := { station.day with latch := some ⟨2, false, true⟩ } }.day.latch.isSome = true)
    ∧ ((asking .joinDay station).asked .joinDay ∧ station.day.behind = false)
    ∧ (let s := { waitingStation with day := { station.day with behind := true } }
       (asking .joinDay s).asked .joinDay ∧ s.hpt.runState = .running ∧ s.day.behind = true ∧ s.cap.capture ≠ .idle)
    ∧ (let s := { station with day := { station.day with behind := true } }
       (asking .joinDay s).asked .joinDay ∧ s.hpt.runState = .running ∧ s.day.behind = true ∧ s.cap.capture = .idle)
    ∧ (busy.receives = true ∧ busy.day.latch = some ⟨2, false, false⟩ ∧ busy.cap.capture ≠ .idle
        ∧ busy.day.day = (1 : BitVec 16).toNat ∧ laterDay (32768 : BitVec 16).toNat busy.day.day = true
        ∧ busy.sends ⟨2, .dayClose ⟨1, true⟩⟩ = false)
    ∧ (let s := sendingOne (.dayClose 4 1 true) (.dayClose ⟨1, true⟩) station
       s.receives = true ∧ s.sends ⟨1, .dayClose ⟨1, true⟩⟩ = true ∧ s.lnk.queue = .dayClose 4 1 true :: []
        ∧ (1 : BitVec 16).toNat = s.day.day ∧ s.day.deferred = [] ∧ s.hpt.events.length + s.lnk.queue.length < 29
        ∧ laterDay (65535 : BitVec 16).toNat s.day.day = false)
    -- the sender of a DAYCLOSE with a busy capture unit, with and without a latched close
    ∧ (let s := sendingOne (.dayClose 4 1 true) (.dayClose ⟨1, true⟩) waitingStation
       s.receives = true ∧ s.sends ⟨1, .dayClose ⟨1, true⟩⟩ = true ∧ s.cap.capture ≠ .idle ∧ s.day.latch = none
        ∧ (1 : BitVec 16).toNat = s.day.day ∧ laterDay (32768 : BitVec 16).toNat s.day.day = true
        ∧ { s with day.latch := some ⟨2, false, true⟩ }.day.latch = some ⟨2, false, true⟩
        ∧ s.lnk.backlog = Backlog.none)
    -- another tag: day 2 heard with and without a latched close, and day 3
    ∧ (payloadInRange (.issue ⟨2, 5⟩) = true ∧ station.sends ⟨2, .issue ⟨2, 5⟩⟩ = false
        ∧ 1 ≤ payloadClass (.issue ⟨2, 5⟩) ∧ payloadClass (.issue ⟨2, 5⟩) ≤ 7
        ∧ dayTagOf (.issue ⟨2, 5⟩) ≠ station.day.day % 256 ∧ station.hpt.events.length < 30
        ∧ dayTagOf (.issue ⟨2, 5⟩) = 2 % 256 ∧ station.day.latch = none ∧ station.day.behind = false
        ∧ busy.day.deferred.length < 8 ∧ 8 ≤ (List.replicate 8 (⟨2, .issue ⟨2, 5⟩⟩ : Frame)).length
        ∧ dayTagOf (.issue ⟨3, 5⟩) ≠ station.day.day % 256 ∧ dayTagOf (.issue ⟨3, 5⟩) ≠ 2 % 256) :=
  ⟨by decide, by decide, by decide, by decide, ⟨asked_asking _ rfl, by decide⟩, ⟨asked_asking _ rfl, by decide⟩,
    ⟨asked_asking _ rfl, by decide⟩, by decide, by decide, by decide, by decide⟩

theorem test_witness_StorePerformsTheHeadOfTheList :
    (busy.power = .on ∧ busy.hpt.runState ≠ .storePrep ∧ busy.tst.ops = .update [(8, 5)] :: []
      ∧ busy.tst.scrubPending = 0 ∧ Instr.closeCopy ≠ Op.command (.update [(8, 5)])
      ∧ (∃ op' : Op, Instr.closeCopy = op'.command)
      ∧ (runOp busy.tst.mem (.update [(8, 5)])).finds = [] ∧ busy.hpt.events.length < 29 ∧ busy.lnk.formWaiting = false)
    -- one find, of each kind
    ∧ ((runOp (Memory.set [] 8 ⟨6, 1⟩) (.update [(8, 5)])).finds = [⟨8, .corrected, .update, true⟩]
      ∧ (runOp (Memory.set [] 8 ⟨6, 1⟩) (.read [8] (.totals .departments))).finds = [⟨8, .corrected, .read, false⟩]
      ∧ (runOp (Memory.set [] 8 ⟨6, 3⟩) (.read [8] (.totals .departments))).finds = [⟨8, .uncorrectable, .read, false⟩]
      ∧ station.tst.latch ≠ .uncorrectable 8)
    -- the end of a close copy
    ∧ ((runOp [] (.closeCopy ⟨1, 7, 0, false, false, 0⟩)).finds = [] ∧ recording.lnk.state = .live
      ∧ (∀ n figures, .daysum 7 n figures ∉ recording.lnk.queue) ∧ recording.lnk.stationFrames < 4
      ∧ recording.lnk.backlog = { replyDue := false, clerks := [], days := [] } ∧ recording.recordSlot 7 = some 1)
    -- a DAYSUM that waits at the head of the queue, for its own read 2 and not for read 1
    ∧ (let s := { recording with lnk := { recording.lnk with queue := [.daysum 7 2 none], formWaiting := true } }
       s.lnk.formWaiting = true ∧ s.lnk.attempt = none ∧ s.lnk.queue = .daysum 7 2 none :: [] ∧ s.recordSlot 7 = some 1)
    -- a counter section read whole, its station new or counted, and one read with an uncorrectable word
    ∧ ((∀ o, 87 ≤ o → o ≤ 92 → (Memory.read ([] : Memory) (104 + 96 * (1 - 1) + o)).judge ≠ .uncorrectable)
      ∧ (Memory.read (Memory.write [] 192 32768) 192).data % 65536 / 2 ^ 15 % 2 = 1
      ∧ (Memory.read ([] : Memory) 192).data % 65536 / 2 ^ 15 % 2 = 0
      ∧ (Memory.read (Memory.set [] 192 ⟨0, 3⟩) (104 + 96 * (1 - 1) + 88)).judge = .uncorrectable)
    -- an update whose words can be read, and one with a word that cannot, its flag word readable
    ∧ (([(8, 5), (9, 7)] : List (Nat × Nat)).map Prod.fst).Nodup
    ∧ (∀ p ∈ ([(8, 5), (9, 7)] : List (Nat × Nat)), p.1 < 2048 ∧ p.1 ≠ 92
        ∧ (Memory.read ([] : Memory) p.1).judge ≠ .uncorrectable)
    ∧ ((Memory.read (Memory.set [] 9 ⟨0, 3⟩) 9).judge = .uncorrectable
      ∧ (Memory.read (Memory.set [] 9 ⟨0, 3⟩) 92).judge ≠ .uncorrectable)
    -- a label count that can be read, and one that cannot
    ∧ ((Memory.read ([] : Memory) 90).judge ≠ .uncorrectable
      ∧ (Memory.read (Memory.set [] 90 ⟨0, 3⟩) 90).judge = .uncorrectable)
    -- an entry that the taken-flag update finds, and one of another serial
    ∧ (let m := Memory.write (Memory.write [] 1380 5) 1381 7
       (Memory.read m (872 + 4 * (128 - 1))).judge ≠ .uncorrectable ∧ (Memory.read m (872 + 4 * (128 - 1) + 1)).judge ≠ .uncorrectable
        ∧ (Memory.read m (872 + 4 * (128 - 1))).data % 1048576 = 5 ∧ (Memory.read m (872 + 4 * (128 - 1) + 1)).data % 65536 = 7
        ∧ (Memory.read m 872).data % 1048576 ≠ 5)
    ∧ (([(0, 5), (2047, 9)] : List (Nat × Word)).map Prod.fst).Nodup := by
  refine ⟨⟨by decide, by decide, by decide, by decide, by decide, ⟨.closeCopy ⟨1, 1, 1, false, false, 0⟩, rfl⟩, by decide,
    by decide, by decide⟩, by decide, ⟨by decide +kernel, by decide, (fun _ _ h => by cases h), by decide, by decide, by decide⟩,
    by decide, ⟨fun o h1 h2 => ?_, by decide, by decide, by decide⟩, by decide, by decide, by decide, by decide, by decide,
    by decide⟩
  rw [show (Memory.read [] (104 + 96 * (1 - 1) + o)).judge = .sound from
    StoreWord.judge_sound (show blankWord.wrongBits = 0 by decide)]
  decide

/-- The station with its scrub pointer at the last word, and that word as given. -/
def scrubbing (w : StoreWord) : State :=
  { station with tst := { station.tst with mem := Memory.set [] 2047 w, scrubPointer := 2047 } }

theorem test_witness_ScrubStepsRepairSingleErrors :
    (let s := scrubbing ⟨5, 0⟩
     s.power = .on ∧ s.hpt.runState ≠ .storePrep ∧ s.tst.ops = [] ∧ s.tst.activity = false ∧ s.tst.scrubPending = 0
      ∧ s.tst.scrubPointer < 2048 ∧ (Memory.read s.tst.mem s.tst.scrubPointer).judge = .sound)
    ∧ (Memory.read (scrubbing ⟨5, 1⟩).tst.mem (scrubbing ⟨5, 1⟩).tst.scrubPointer).judge = .corrected
    ∧ ((Memory.read (scrubbing ⟨5, 3⟩).tst.mem 2047).judge = .uncorrectable
      ∧ (scrubbing ⟨5, 3⟩).tst.latch ≠ .uncorrectable 2047 ∧ (scrubbing ⟨5, 3⟩).hpt.events.length < 31)
    ∧ (busy.tst.scrubPending < 3 ∧ busy.tst.ops ≠ [] ∧ { station.tst with activity := true }.activity = true
      ∧ 3 ≤ { busy.tst with scrubPending := 4 }.scrubPending)
    ∧ (let tst := { (scrubbing ⟨5, 0⟩).tst with scrubPending := 3, activity := true }
       tst.ops = [] ∧ 3 ≤ tst.scrubPending ∧ 4 = min 4 (tst.scrubPending + 1)
        ∧ ∀ k < 4, (Memory.read tst.mem ((tst.scrubPointer + k) % 2048)).judge = .sound)
    ∧ (let tst := { station.tst with ops := [.recordWrite [(0, 1)], .update []], scrubPending := 3 }
       tst.ops = .recordWrite [(0, 1)] :: [.update []] ∧ tst.scrubPointer < 2048 ∧ [Op.update []] ≠ [] ∧ tst.scrubPending < 4)
    ∧ (let s := { station with tst.ops := [.itemPosting 3 5 none], tst.scrubPending := 2 }
       s.tst.ops = .itemPosting 3 5 none :: [] ∧ (runOp s.tst.mem (.itemPosting 3 5 none)).finds = []
        ∧ s.hpt.events.length < 32
        ∧ ∀ k < 2, (Memory.read (runOp s.tst.mem (.itemPosting 3 5 none)).mem ((s.tst.scrubPointer + k) % 2048)).judge
            = .sound) := by
  decide

theorem test_witness_WrongBitsAreJudged :
    (Memory.word (scrubbing ⟨5, 0⟩).tst.mem (2047 : BitVec 11).toNat).flips = 0 ∧ (0 : Fin 39) ≠ 38 := by decide

/-- The station that is about to perform an item posting, with its amounts in step. -/
def posting : State :=
  { station with
    pending := [.itemPosting]
    tst := { station.tst with mem := Memory.write (Memory.write [] 29 70) 80 70, ops := [.itemPosting 8 5 none] } }

theorem posting_in_step : posting.AmountsInStep := by
  refine ⟨fun op h => ?_, fun _ h => (by cases h), by decide +kernel, by decide +kernel, .inl ?_⟩
  · obtain rfl : op = .itemPosting 8 5 none := by simpa [posting] using h
    exact ⟨by decide, by decide⟩
  · unfold Memory.AmountsAgree
    decide +kernel

/-- Table 8-6: the item posting of 1,500 and 612 g for department 3, whose amount is UNCORRECTABLE; and at the amount limit the
amounts stay, the count and the weight grow and the flag is set. -/
theorem test_item_posting :
    (let m := Memory.write (Memory.write (Memory.write (Memory.write (Memory.set [] 14 ⟨41220, 3⟩) 15 27) 16 9844) 80 198400)
       81 96
     let e := runOp m (.itemPosting 3 1500 (some 612))
     (Memory.read e.mem 14).judge = .uncorrectable ∧ Memory.read e.mem 15 = ⟨15, .sound, 28⟩
      ∧ Memory.read e.mem 16 = ⟨16, .sound, 10456⟩ ∧ Memory.read e.mem 80 = ⟨80, .sound, 199900⟩
      ∧ Memory.read e.mem 81 = ⟨81, .sound, 97⟩ ∧ Memory.read e.mem 92 = ⟨92, .sound, 2⟩
      ∧ e.finds = [⟨14, .uncorrectable, .update, true⟩])
    ∧ (let e := runOp (Memory.write [] 80 4294967290) (.itemPosting 3 6 (some 612))
       Memory.read e.mem 14 = ⟨14, .sound, 0⟩ ∧ Memory.read e.mem 80 = ⟨80, .sound, 4294967290⟩
        ∧ Memory.read e.mem 15 = ⟨15, .sound, 1⟩ ∧ Memory.read e.mem 16 = ⟨16, .sound, 612⟩
        ∧ Memory.read e.mem 92 = ⟨92, .sound, 4⟩) := by decide +kernel

theorem test_witness_ItemPostingKeepsTheAmountsInStep :
    ((Memory.read (Memory.set [] 14 ⟨41220, 3⟩) 14).judge = .uncorrectable
      ∧ (Memory.read (Memory.write [] 80 4294967290) 80).judge ≠ .uncorrectable
      ∧ 4294967295 < (Memory.read (Memory.write [] 80 4294967290) 80).data + 6
      ∧ (Memory.read (Memory.set [] 92 ⟨0, 3⟩) 92).judge = .uncorrectable)
    ∧ (let m := Memory.write (Memory.write [] 29 4294967290) 80 4294967290
     (∀ o < 85, (Memory.read m (8 + o)).judge = .sound)
      ∧ (Memory.read m 80).data = ((List.range 8).map fun d => (Memory.read m (8 + 3 * d)).data).sum
      ∧ (Memory.read m 80).data + 5 ≤ 4294967295 ∧ ¬(Memory.read m 80).data + 6 ≤ 4294967295)
    ∧ (posting.AmountsInStep ∧ (∀ a flips, posting.pending.head? ≠ some (.vretDisturbance a flips))
      ∧ ∃ t, step posting = .next t) :=
  ⟨by decide, by decide +kernel, posting_in_step, (fun _ _ h => by cases h), _, rfl⟩

/-- A running region with an UNCORRECTABLE item amount, a CORRECTED item count and the flags totals lost and amount limit. -/
def worn84 : Memory := Memory.write (Memory.set (Memory.set [] 80 ⟨70, 3⟩) 81 ⟨4, 1⟩) 92 5

/-- R147: the late and forced copy of a region with an UNCORRECTABLE word carries its flags, the word as found and the
snapshot; a control word that cannot be read gives late, forced and uncorrectable seen alone. -/
theorem test_close_copy :
    (let m := (runOp worn84 (.closeCopy ⟨1, 9, 60, true, true, 0x8006⟩)).mem
     (Memory.read m 188).data = 31 ∧ Memory.read m 176 = ⟨176, .uncorrectable, 69⟩ ∧ Memory.read m 177 = ⟨177, .sound, 4⟩
      ∧ (Memory.read m 191).data = 0x8006)
    ∧ (Memory.read (runOp (Memory.set [] 92 ⟨5, 3⟩) (.closeCopy ⟨1, 9, 60, false, true, 0⟩)).mem 188) = ⟨188, .sound, 18⟩ := by
  decide +kernel

theorem test_witness_CloseCopyCarriesTheDay :
    1 ≤ 8 ∧ 8 ≤ 8 ∧ (Memory.read (Memory.write [] 91 7) (8 + 83)).judge ≠ .uncorrectable
    ∧ (Memory.read worn84 (8 + 72)).judge = .uncorrectable ∧ (Memory.read worn84 (8 + 73)).judge = .corrected
    ∧ (Memory.read worn84 92).judge ≠ .uncorrectable ∧ (Memory.read (Memory.set [] 92 ⟨5, 3⟩) 92).judge = .uncorrectable := by
  decide

end Sys2Proof.Tests
end

section
/-! SUPPORT. What the operations of the other blocks leave: the queue of commands, main power, the weighing channel, the
straps, the configured mark and the run state, and most of them the words of the store too. -/

namespace Sys2Proof.Machine

/-- The queue of commands, main power, and the straps, the configured mark and the run state are the same. -/
@[simp] abbrev State.KeepsSettings (t s : State) : Prop :=
  t.pending = s.pending ∧ t.power = s.power ∧ t.hpt.straps = s.hpt.straps ∧ t.hpt.configured = s.hpt.configured
    ∧ t.hpt.runState = s.hpt.runState

/-- The weighing channel is the same too. -/
@[simp] abbrev State.KeepsChannel (t s : State) : Prop := t.KeepsSettings s ∧ t.wch = s.wch

/-- The words of the store are the same too, and every event that was queued still is. -/
@[simp] abbrev State.KeepsRecords (t s : State) : Prop :=
  t.KeepsChannel s ∧ t.tst.mem = s.tst.mem ∧ ∀ r ∈ s.hpt.events, r ∈ t.hpt.events

theorem State.KeepsRecords.trans {s t u : State} (h : t.KeepsRecords s) (g : u.KeepsRecords t) : u.KeepsRecords s := by
  obtain ⟨⟨hset, hwch⟩, hmem, hev⟩ := h
  obtain ⟨⟨hset', hwch'⟩, hmem', hev'⟩ := g
  simp_all

/-- What each step of a fold keeps, the fold keeps. -/
theorem foldl_keepsRecords {α : Type} (f : State → α → State)
    (hf : ∀ s a, (f s a).KeepsRecords s) (l : List α) (s : State) :
    (l.foldl f s).KeepsRecords s := by
  induction l generalizing s with
  | nil => simp
  | cons a l ih => exact (hf s a).trans (ih (f s a))

/-! ### Queued events stay queued -/

@[simp] theorem mem_queueEvent {r : EventRecord} {s : State} (h : r ∈ s.hpt.events) (e : Event) :
    r ∈ (queueEvent e s).hpt.events := by
  unfold queueEvent
  split <;> simp [h]

@[simp] theorem mem_moveAttribute {r : EventRecord} {s : State} (h : r ∈ s.hpt.events) (a : Attribute) (raw : Nat) :
    r ∈ (moveAttribute a raw s).hpt.events := by
  unfold moveAttribute
  dsimp only
  split
  · exact h
  · split <;> simp [h]

@[simp] theorem mem_raiseAttribute {r : EventRecord} {s : State} (h : r ∈ s.hpt.events) (a : Attribute) (n : Nat) :
    r ∈ (raiseAttribute a n s).hpt.events := by
  simp [raiseAttribute, h]

@[simp] theorem mem_raiseMismatch {r : EventRecord} {s : State} (h : r ∈ s.hpt.events) (k : MismatchKind)
    (clerk ticket : Option Nat) : r ∈ (raiseMismatch k clerk ticket s).hpt.events := by
  simp [raiseMismatch, h]

@[simp] theorem mem_completeRequest {r : EventRecord} {s : State} (h : r ∈ s.hpt.events) (tag : Nat)
    (code : ResultCode) (ticket : Option Nat) : r ∈ (completeRequest tag code ticket s).hpt.events := by
  simp [completeRequest, h]

@[simp] theorem mem_completeOwn {r : EventRecord} {s : State} (h : r ∈ s.hpt.events) (own : Option TxFrame)
    (code : ResultCode) (ticket : Option Nat) : r ∈ (completeOwn own code ticket s).hpt.events := by
  unfold completeOwn
  split <;> simp [h]

@[simp] theorem mem_lateItem {r : EventRecord} {s : State} (h : r ∈ s.hpt.events) (f : ItemFrame)
    (reason : LateReason) :
    r ∈ (lateItem f reason s).hpt.events := by
  simp [lateItem, h]

@[simp] theorem mem_endFrame {r : EventRecord} {s : State} (h : r ∈ s.hpt.events) (f : TxFrame) (e : FrameEnd) :
    r ∈ (endFrame f e s).hpt.events := by
  cases f with
  | cancelExpiry | item =>
    unfold endFrame
    dsimp only
    split <;> simp [h]
  | _ => simp [endFrame, h]

@[simp] theorem mem_listTicket {r : EventRecord} {s : State} (h : r ∈ s.hpt.events) (e : WaitEntry)
    (duplicate bound : MismatchKind) : r ∈ (listTicket e duplicate bound s).hpt.events := by
  unfold listTicket
  split
  · simp [h]
  · split
    · simp [h]
    · split <;> simp [h]

@[simp] theorem mem_modeConflict {r : EventRecord} {s : State} (h : r ∈ s.hpt.events) :
    r ∈ (modeConflict s).hpt.events := by
  unfold modeConflict
  split <;> simp [h]

@[simp] theorem mem_hearLaterDay {r : EventRecord} {s : State} (h : r ∈ s.hpt.events) (day : Nat) :
    r ∈ (hearLaterDay day s).hpt.events := by
  unfold hearLaterDay
  dsimp only
  split <;> simp [h]

@[simp] theorem mem_compareDay {r : EventRecord} {s : State} (h : r ∈ s.hpt.events) (day : Nat) :
    r ∈ (compareDay day s).hpt.events := by
  unfold compareDay
  split <;> simp [h]

@[simp] theorem mem_handleFind {r : EventRecord} {s : State} (h : r ∈ s.hpt.events) (f : Find) :
    r ∈ (handleFind f s).hpt.events := by
  unfold handleFind
  split
  · exact h
  · dsimp only
    split <;> simp [h]
  · split <;> simp [h]

/-! ### Serving a request -/

@[simp] theorem takeBlock_keepsRecords (mosi : List Byte) (s : State) : (takeBlock mosi s).KeepsRecords s := by
  cases mosi with
  | nil => simp [takeBlock]
  | cons code rest =>
    simp only [takeBlock]
    split
    · simp
    · split
      · simp
      · split <;> simp

@[simp] theorem selection_keepsRecords (mosi : List Byte) (s : State) : (selection mosi s).KeepsRecords s := by
  unfold selection
  split
  · simp +contextual
  · split <;> simp +contextual

/-! ### Sending -/

@[simp] theorem requestFrame_keepsRecords (refusals : List (Bool × ResultCode)) (frame : Nat → TxFrame)
    (claim : State → State) (hc : ∀ s, (claim s).KeepsRecords s) (s : State) :
    (requestFrame refusals claim frame s).KeepsRecords s := by
  obtain ⟨r, -, -, h⟩ | ⟨code, -, h⟩ | ⟨-, -, h⟩ := requestFrame_cases refusals claim frame s <;>
    simp +contextual [h, hc s]

@[simp] theorem formHeads_keepsRecords (n : Nat) (s : State) : (formHeads n s).KeepsRecords s := by
  induction n generalizing s with
  | zero => simp +contextual [formHeads]
  | succ n ih =>
    unfold formHeads
    split
    · simp +contextual
    · split <;> simp +contextual [ih]

@[simp] theorem beginAttempt_keepsRecords (s : State) : (beginAttempt s).KeepsRecords s := by
  simp +contextual [beginAttempt]

@[simp] theorem dropFrame_keepsRecords (s : State) : (dropFrame s).KeepsRecords s := by
  unfold dropFrame
  split <;> simp +contextual

@[simp] theorem failAttempt_keepsRecords (s : State) : (failAttempt s).KeepsRecords s := by
  simp +contextual [failAttempt]

@[simp] theorem fallSilent_keepsRecords (s : State) : (fallSilent s).KeepsRecords s := by
  have h := foldl_keepsRecords (fun acc f => endFrame f .silent acc) (by simp +contextual) s.lnk.queue
  simp +contextual [fallSilent, h]

/-! ### Orders and tickets -/

@[simp] theorem bindCall_keepsRecords (origin ticket clerk : Nat) (atSender : Bool) (s : State) :
    (bindCall origin ticket clerk atSender s).KeepsRecords s := by
  unfold bindCall
  split
  · simp +contextual
  · dsimp only
    split
    · simp +contextual
    · split <;> simp +contextual

@[simp] theorem passOrder_keepsRecords (origin ticket clerk : Nat) (s : State) :
    (passOrder origin ticket clerk s).KeepsRecords s := by
  unfold passOrder
  split
  · simp +contextual
  · dsimp only
    split
    · simp +contextual
    · split <;> simp +contextual

@[simp] theorem applyItem_keepsRecords (origin : Nat) (p : ItemPayload) (s : State) :
    (applyItem origin p s).KeepsRecords s := by
  unfold applyItem
  split
  · unfold openByItem
    dsimp only
    split <;> simp +contextual
  · unfold addItem
    dsimp only
    split
    · simp +contextual
    · split <;> simp +contextual

@[simp] theorem applyVoid_keepsRecords (origin : Nat) (p : VoidPayload) (own : Option TxFrame) (s : State) :
    (applyVoid origin p own s).KeepsRecords s := by
  unfold applyVoid
  dsimp only
  cases s.order p.clerk.toNat with
  | none => split <;> simp +contextual
  | some o =>
    dsimp only
    cases (o.voidLine p).2 <;> split <;> simp +contextual

@[simp] theorem applyTxClose_keepsRecords (p : TxClosePayload) (own : Option TxFrame) (s : State) :
    (applyTxClose p own s).KeepsRecords s := by
  unfold applyTxClose
  dsimp only
  split
  · split <;> simp +contextual
  · split <;> split <;> simp +contextual

@[simp] theorem applyTxCancel_keepsRecords (p : TxCancelPayload) (own : Option TxFrame) (s : State) :
    (applyTxCancel p own s).KeepsRecords s := by
  unfold applyTxCancel
  dsimp only
  split
  · simp +contextual
  · split <;> simp +contextual

@[simp] theorem noteOpenCount_keepsRecords (n : Nat) (s : State) : (noteOpenCount n s).KeepsRecords s := by
  unfold noteOpenCount
  split <;> simp

@[simp] theorem judgeCensus_keepsRecords (s : State) : (judgeCensus s).KeepsRecords s := by
  unfold judgeCensus
  split <;> simp +contextual

@[simp] theorem offerExpiry_keepsRecords (clerk : Nat) (o : Order) (s : State) :
    (offerExpiry clerk o s).KeepsRecords s := by
  unfold offerExpiry
  split <;> simp

@[simp] theorem expireOrder_keepsRecords (clerk : Nat) (o : Order) (s : State) :
    (expireOrder clerk o s).KeepsRecords s := by
  unfold expireOrder
  dsimp only
  split <;> simp +contextual

@[simp] theorem applyIssue_keepsRecords (origin : Nat) (p : IssuePayload) (own : Option TxFrame) (s : State) :
    (applyIssue origin p own s).KeepsRecords s := by
  unfold applyIssue
  extract_lets n tickets s1 s2
  have h : s2.KeepsRecords s := by
    unfold s2
    split <;> simp +contextual [s1]
  exact h.trans (by simp +contextual)

@[simp] theorem applyCall_keepsRecords (origin : Nat) (p : TicketPayload) (own : Option TxFrame) (s : State) :
    (applyCall origin p own s).KeepsRecords s := by
  unfold applyCall
  extract_lets n clerk kept s1 tickets s2 s3
  have h : s1.KeepsRecords s := by
    unfold s1
    split
    · simp
    · split <;> simp +contextual
  have h' : s3.KeepsRecords s1 := by simp +contextual [s3, s2]
  exact (h.trans h').trans (by simp +contextual)

@[simp] theorem endTicket_keepsRecords (own : Option TxFrame) (s : State) : (endTicket own s).KeepsRecords s := by
  unfold endTicket
  split <;> simp

@[simp] theorem requeue_keepsRecords (ticket passes : Nat) (own : Option TxFrame) (s : State) :
    (requeue ticket passes own s).KeepsRecords s := by
  unfold requeue
  dsimp only
  split
  · simp +contextual
  · split
    · simp +contextual
    · split <;> simp +contextual

@[simp] theorem applyPass_keepsRecords (origin : Nat) (p : TicketPayload) (own : Option TxFrame) (s : State) :
    (applyPass origin p own s).KeepsRecords s := by
  unfold applyPass
  extract_lets n clerk s1 passes tickets s2 s3
  have h : s2.KeepsRecords s := by simp +contextual [s2, s1]
  have h' : s3.KeepsRecords s2 := by
    unfold s3
    split <;> simp +contextual
  exact (h.trans h').trans (by simp +contextual)

@[simp] theorem applyFigures_keepsRecords (f : TicketFigures) (s : State) : (applyFigures f s).KeepsRecords s := by
  unfold applyFigures
  split
  · simp +contextual
  · split
    · unfold takeFigures
      dsimp only
      split <;> simp +contextual
    · simp +contextual

@[simp] theorem applyCensusTx_keepsRecords (p : CensusTxPayload) (s : State) : (applyCensusTx p s).KeepsRecords s := by
  unfold applyCensusTx
  split
  · split <;> simp [openStub]
  · simp

/-! ### The business day -/

@[simp] theorem compareDay_keepsRecords (day : Nat) (s : State) : (compareDay day s).KeepsRecords s := by
  simp +contextual

@[simp] theorem applyDayFrame_keepsRecords (f : Frame) (own : Option TxFrame) (s : State) :
    (applyDayFrame f own s).KeepsRecords s := by
  unfold applyDayFrame
  dsimp only
  split <;> simp +contextual

@[simp] theorem deferFrame_keepsRecords (f : Frame) (s : State) : (deferFrame f s).KeepsRecords s := by
  unfold deferFrame
  split <;> simp +contextual

@[simp] theorem receiveDayFrame_keepsRecords (f : Frame) (own : Option TxFrame) (s : State) :
    (receiveDayFrame f own s).KeepsRecords s := by
  unfold receiveDayFrame
  split <;> simp +contextual

@[simp] theorem withdrawHead_keepsRecords (s : State) : (withdrawHead s).KeepsRecords s := by
  unfold withdrawHead
  split
  · simp
  · split <;> simp

@[simp] theorem removeDayFrames_keepsRecords (s : State) : (removeDayFrames s).KeepsRecords s := by
  have h := foldl_keepsRecords (fun acc f => endFrame f .dayClosed acc) (by simp +contextual)
    (s.lnk.queue.filter TxFrame.isDayScoped)
  simp +contextual [removeDayFrames, h]

@[simp] theorem clearDayScoped_keepsRecords (s : State) : (clearDayScoped s).KeepsRecords s :=
  foldl_keepsRecords (fun acc a => moveAttribute a 0 acc) (by simp +contextual) dayScoped s

@[simp] theorem settleBehind_hpt (s : State) : (settleBehind s).hpt = s.hpt := by rw [settleBehind_eq]

@[simp] theorem settleBehind_keepsRecords (s : State) : (settleBehind s).KeepsRecords s := by
  simp [settleBehind_eq]

@[simp] theorem applyDeferredFrame_keepsRecords (f : Frame) (s : State) :
    (applyDeferredFrame s f).KeepsRecords s := by
  unfold applyDeferredFrame
  dsimp only
  split <;> simp +contextual

@[simp] theorem applyDeferred_keepsRecords (s : State) : (applyDeferred s).KeepsRecords s := by
  have h := foldl_keepsRecords applyDeferredFrame (fun s f => applyDeferredFrame_keepsRecords f s) s.day.deferred
  simp +contextual [applyDeferred, h]

@[simp] theorem startClose_keepsRecords (c : LatchedClose) (s : State) : (startClose c s).KeepsRecords s := by
  unfold startClose
  dsimp only
  refine .trans ?_ (applyDeferred_keepsRecords _)
  simp +contextual

@[simp] theorem startLatched_keepsRecords (s : State) : (startLatched s).KeepsRecords s := by
  unfold startLatched
  split
  · simp +contextual
  · split <;> simp +contextual

@[simp] theorem beginClose_keepsRecords (c : LatchedClose) (s : State) : (beginClose c s).KeepsRecords s := by
  unfold beginClose
  split <;> simp +contextual

@[simp] theorem applyDayClose_keepsRecords (p : DayClosePayload) (own : Option TxFrame) (s : State) :
    (applyDayClose p own s).KeepsRecords s := by
  unfold applyDayClose
  dsimp only
  split
  · split <;> simp +contextual
  · split
    · split <;> simp +contextual
    · simp +contextual

@[simp] theorem applyDaysum_keepsRecords (origin : Nat) (p : DaysumPayload) (s : State) :
    (applyDaysum origin p s).KeepsRecords s := by
  unfold applyDaysum
  split <;> simp

@[simp] theorem applyDaysumAsk_keepsRecords (day : BitVec 16) (own : Option TxFrame) (s : State) :
    (applyDaysumAsk day own s).KeepsRecords s := by
  unfold applyDaysumAsk
  split <;> simp +contextual

/-! ### Captures -/

@[simp] theorem becomeIdle_keepsRecords (s : State) : (becomeIdle s).KeepsRecords s := by
  simp +contextual [becomeIdle]

@[simp] theorem offerItem_keepsRecords (i : Item) (serial : Nat) (s : State) :
    (offerItem i serial s).KeepsRecords s := by
  unfold offerItem
  split
  · simp +contextual
  · split <;> simp +contextual

@[simp] theorem postItem_keepsRecords (i : Item) (set : List Match) (s : State) :
    (postItem i set s).KeepsRecords s := by
  unfold postItem
  extract_lets serial s1 s2 unit s3 s4 s5
  have h3 : s3.KeepsRecords s := by simp [s3, s2, s1]
  have h4 : s4.KeepsRecords s3 := foldl_keepsRecords _ (by simp +contextual) (noteSlots set) s3
  have h5 : s5.KeepsRecords s4 := offerItem_keepsRecords i serial s4
  exact ((h3.trans h4).trans h5).trans (by simp +contextual)

@[simp] theorem endCapture_keepsRecords (tag : Nat) (r : ResultCode) (s : State) :
    (endCapture tag r s).KeepsRecords s := by
  unfold endCapture
  refine .trans ?_ (becomeIdle_keepsRecords _)
  split <;> simp +contextual

@[simp] theorem completeCapture_keepsRecords (r : CaptureRequest) (m : Measure) (s : State) :
    (completeCapture r m s).KeepsRecords s := by
  unfold completeCapture
  dsimp only
  split
  · simp +contextual
  · split
    · simp +contextual
    · split <;> simp +contextual

@[simp] theorem stableReading_keepsRecords (gross : Int) (s : State) : (stableReading gross s).KeepsRecords s := by
  unfold stableReading
  split
  · simp +contextual
  · simp +contextual
  · dsimp only
    split
    · simp +contextual
    · split
      · simp +contextual
      · split <;> simp +contextual

/-! ### Accepted and damaged frames -/

@[simp] theorem takeOwnFrame_keepsRecords (s : State) : (takeOwnFrame s).KeepsRecords s := by
  simp [takeOwnFrame]

@[simp] theorem discardDamaged_keepsRecords (d : LinkDrive) (s : State) : (discardDamaged d s).KeepsRecords s := by
  unfold discardDamaged
  dsimp only
  split <;> simp

theorem acceptFrame_keepsRecords (f : Frame) (apply : Option TxFrame → State → State)
    (ha : ∀ own s, (apply own s).KeepsRecords s) (s : State) :
    (acceptFrame f apply s).KeepsRecords s := by
  unfold acceptFrame
  dsimp only
  split
  · simp +contextual
  · split
    · simp +contextual
    · split <;> simp +contextual [ha]

@[simp] theorem acceptDayFrame_keepsRecords (f : Frame) (s : State) : (acceptDayFrame f s).KeepsRecords s :=
  acceptFrame_keepsRecords f _ (by simp +contextual) s

@[simp] theorem applyCensusAsk_keepsRecords (own : Option TxFrame) (s : State) :
    (applyCensusAsk own s).KeepsRecords s := by
  unfold applyCensusAsk
  split <;> simp

@[simp] theorem applyCensusReply_keepsRecords (origin : Nat) (p : CensusReplyPayload) (s : State) :
    (applyCensusReply origin p s).KeepsRecords s := by
  unfold applyCensusReply
  refine .trans ?_ (compareDay_keepsRecords _ _)
  simp +contextual

@[simp] theorem applyBeacon_keepsRecords (origin : Nat) (p : BeaconPayload) (s : State) :
    (applyBeacon origin p s).KeepsRecords s := by
  simp +contextual [applyBeacon]

/-! ### The totals store -/

@[simp] theorem handleFinds_keepsRecords (finds : List Find) (s : State) :
    (handleFinds finds s).KeepsRecords s :=
  foldl_keepsRecords (fun acc f => handleFind f acc) (by simp +contextual) finds s

@[simp] theorem journalAnswer_keepsRecords (newest slot : Nat) (words : List JudgedWord) (s : State) :
    (journalAnswer newest slot words s).KeepsRecords s := by
  unfold journalAnswer
  dsimp only
  split <;> simp

@[simp] theorem totalsAnswer_keepsRecords (g : TotalsGroup) (words : List JudgedWord) (s : State) :
    (totalsAnswer g words s).KeepsRecords s := by
  cases g <;> simp [totalsAnswer]

@[simp] theorem dayRecordAnswer_keepsRecords (slot : Nat) (words : List JudgedWord) (s : State) :
    (dayRecordAnswer slot words s).KeepsRecords s := by
  unfold dayRecordAnswer
  dsimp only
  split <;> simp

@[simp] theorem faultAnswer_keepsRecords (count newest slot : Nat) (words : List JudgedWord) (s : State) :
    (faultAnswer count newest slot words s).KeepsRecords s := by
  unfold faultAnswer
  dsimp only
  split <;> simp

@[simp] theorem finishRead_keepsRecords (purpose : ReadPurpose) (words : List JudgedWord) (s : State) :
    (finishRead purpose words s).KeepsRecords s := by
  cases purpose with
  | daysum read =>
    unfold finishRead
    dsimp only
    split <;> simp +contextual
  | journal | totals | dayRecord | fault =>
    unfold finishRead answerAwaited
    dsimp only
    split <;> simp +contextual

@[simp] theorem finishOp_keepsRecords (op : Op) (e : OpEffect) (s : State) : (finishOp op e s).KeepsRecords s := by
  unfold finishOp
  split <;> simp +contextual
  split <;> simp +contextual

@[simp] theorem scrubStep_keepsChannel (s : State) : (scrubStep s).KeepsChannel s := by
  unfold scrubStep
  dsimp only
  split <;> simp

@[simp] theorem scrubSteps_keepsChannel (n : Nat) (s : State) : (scrubSteps n s).KeepsChannel s := by
  induction n generalizing s with
  | zero => simp [scrubSteps]
  | succ n ih => simp [scrubSteps, ih]

@[simp] theorem runPending_keepsChannel (s : State) : (runPending s).KeepsChannel s := by
  unfold runPending
  split <;> simp

@[simp] theorem performOp_keepsChannel (op : Op) (rest : List Op) (s : State) :
    (performOp op rest s).KeepsChannel s := by
  unfold performOp scrubAfterOp
  dsimp only
  split <;> simp

@[simp] theorem scrubRequest_keepsChannel (s : State) : (scrubRequest s).KeepsChannel s := by
  unfold scrubRequest
  dsimp only
  split <;> simp

@[simp] theorem walkWord_keepsChannel (s : State) : (walkWord s).KeepsChannel s := by
  rw [walkWord_eq]
  simp

@[simp] theorem walkWords_keepsChannel (n : Nat) (s : State) : (walkWords n s).KeepsChannel s := by
  induction n generalizing s with
  | zero => simp [walkWords]
  | succ n ih => simp [walkWords, ih]

/-! ### The loads of store preparation and the low flags -/

@[simp] theorem loadLabels_keepsRecords (s : State) : (loadLabels s).KeepsRecords s := by
  unfold loadLabels
  dsimp only
  split <;> simp

@[simp] theorem loadDay_keepsRecords (s : State) : (loadDay s).KeepsRecords s := by
  unfold loadDay
  extract_lets m j0 j2 held day newest fresh s1 s2
  have h : s2.KeepsRecords s := by
    unfold s2
    split <;> simp +contextual [s1]
  split <;> simp +contextual [h]

@[simp] theorem loadAttribute_keepsRecords (a : Attribute) (s : State) : (loadAttribute a s).KeepsRecords s := by
  unfold loadAttribute
  extract_lets j0 j1 bad raw n stored worst r health s'
  split <;> simp [s']

@[simp] theorem loadHealth_keepsRecords (s : State) : (loadHealth s).KeepsRecords s := by
  have h := foldl_keepsRecords (fun acc a => loadAttribute a acc) (by simp +contextual) allAttributes
  unfold loadHealth loadFaultWord
  dsimp only
  split <;> simp +contextual [h]

@[simp] theorem evaluateLowFlags_keepsRecords (s : State) : (evaluateLowFlags s).KeepsRecords s := by
  refine foldl_keepsRecords _ (fun s a => ?_) allAttributes s
  dsimp only
  split <;> simp +contextual

end Sys2Proof.Machine
end

section
/-! SUPPORT. What a whole command leaves: every command outside a short list leaves the weighing channel, the straps, the
configured mark and the run state. -/

namespace Sys2Proof.Machine

/-! ### Requests -/

/-- A request that is served is taken by its owner, or not taken; till then the channel, the words and the queued events
are as they were. -/
theorem serve_eq (i : Instr) (owner : State → State) (s : State) :
    ∃ u : State, u.KeepsRecords s ∧ (serve i owner s = .next (owner u) ∨ serve i owner s = .next u) := by
  unfold serve
  split
  · exact ⟨s, by simp, .inr rfl⟩
  · next b _ =>
    dsimp only
    by_cases hs : s.hpt.slot = .taken b
    · exact ⟨s, by simp, .inl (by simp [hs])⟩
    · refine ⟨selection (blockBytes b) s, selection_keepsRecords _ s, ?_⟩
      rw [if_neg hs]
      split
      · exact .inl rfl
      · exact .inr rfl

/-- What an owner keeps, its request keeps. -/
theorem serve_keepsChannel (i : Instr) (owner : State → State) (ho : ∀ s, (owner s).KeepsChannel s) {s t : State}
    (h : serve i owner s = .next t) : t.KeepsChannel s := by
  obtain ⟨u, ⟨⟨hset, hwch⟩, -⟩, hu | hu⟩ := serve_eq i owner s <;>
    obtain rfl := Host.Outcome.next.inj (hu.symm.trans h)
  · simpa [hset, hwch] using ho u
  · exact ⟨hset, hwch⟩

theorem readJournalOwner_keepsChannel (index : Byte) (s : State) : (readJournalOwner index s).KeepsChannel s := by
  unfold readJournalOwner
  dsimp only
  split
  · simp
  · split <;> simp

theorem takeLabelOwner_keepsChannel (s : State) : (takeLabelOwner s).KeepsChannel s := by
  unfold takeLabelOwner
  split <;> simp

theorem readOrderOwner_keepsChannel (clerk : Byte) (s : State) : (readOrderOwner clerk s).KeepsChannel s := by
  unfold readOrderOwner
  split <;> simp

theorem joinDayOwner_keepsChannel (s : State) : (joinDayOwner s).KeepsChannel s := by
  unfold joinDayOwner
  split
  · simp
  · split <;> simp

theorem weighItemOwner_keepsChannel (clerk : Byte) (plu : BitVec 24) (dept : Byte) (price : BitVec 24) (given : Byte)
    (tare : BitVec 16) (s : State) : (weighItemOwner clerk plu dept price given tare s).KeepsChannel s := by
  unfold weighItemOwner
  dsimp only
  split <;> simp

theorem countItemOwner_keepsChannel (clerk : Byte) (plu : BitVec 24) (dept : Byte) (price : BitVec 24) (quantity : Byte)
    (s : State) : (countItemOwner clerk plu dept price quantity s).KeepsChannel s := by
  unfold countItemOwner
  dsimp only
  split <;> simp

theorem abortCaptureOwner_keepsChannel (s : State) : (abortCaptureOwner s).KeepsChannel s := by
  unfold abortCaptureOwner
  split
  · simp
  · split <;> simp

theorem releaseHeldOwner_keepsChannel (s : State) : (releaseHeldOwner s).KeepsChannel s := by
  unfold releaseHeldOwner
  split
  · simp
  · split
    · simp
    · simp
    · split
      · simp
      · split <;> simp

theorem discardHeldOwner_keepsChannel (s : State) : (discardHeldOwner s).KeepsChannel s := by
  unfold discardHeldOwner
  split
  · simp
  · split <;> simp

theorem setWatchOwner_keepsChannel (slot form kind : Byte) (value : BitVec 24) (action enable : Byte) (s : State) :
    (setWatchOwner slot form kind value action enable s).KeepsChannel s := by
  unfold setWatchOwner
  split
  · simp
  · split <;> simp

theorem clearWatchStatusOwner_keepsChannel (set : Byte) (s : State) : (clearWatchStatusOwner set s).KeepsChannel s := by
  unfold clearWatchStatusOwner
  split <;> simp

theorem readTotalsOwner_keepsChannel (group : Byte) (s : State) : (readTotalsOwner group s).KeepsChannel s := by
  unfold readTotalsOwner
  split <;> simp

theorem readDayRecordOwner_keepsChannel (index : Byte) (s : State) : (readDayRecordOwner index s).KeepsChannel s := by
  unfold readDayRecordOwner
  dsimp only
  split
  · simp
  · split <;> simp

theorem readFaultsOwner_keepsChannel (index : Byte) (s : State) : (readFaultsOwner index s).KeepsChannel s := by
  unfold readFaultsOwner
  dsimp only
  split
  · simp
  · split <;> simp

theorem setTimeOwner_keepsChannel (time : BitVec 24) (s : State) : (setTimeOwner time s).KeepsChannel s := by
  unfold setTimeOwner
  split <;> simp

theorem takeEventOwner_keepsChannel (s : State) : (takeEventOwner s).KeepsChannel s := by
  unfold takeEventOwner
  split <;> simp

/-! ### Every other command -/

theorem performHead_keepsChannel {isKind : Op → Bool} {s t : State} (h : performHead isKind s = .next t) :
    t.KeepsChannel s := by
  unfold performHead at h
  split at h
  · obtain rfl := Host.Outcome.next.inj h
    simp
  · obtain rfl := Host.Outcome.next.inj h
    split <;> simp

end Sys2Proof.Machine

namespace Sys2Proof

/-- The commands that may change the weighing channel, the straps, the configured mark or the run state: the supply and
the resets, the ends of the walks and of the census, CONFIGURE, START and RESTART, and the commands of the channel. -/
def Instr.reachesChannel (i : Instr) : Bool :=
  match i with
  | .powerOn _ _ | .mainPowerFail | .resetAssert | .resetRelease _ | .verificationWalkEnd | .initializationWalkEnd
  | .configure _ | .start | .restart | .zero | .tareWeigh | .tareSet _ | .tareClear | .sampleArrival _ _
  | .sampleWatchdogExpiry | .censusTimerExpiry => true
  | _ => false

end Sys2Proof

namespace Sys2Proof.Machine

/-- Every command outside that list leaves the channel, the straps, the configured mark and the run state. -/
theorem exec_keepsChannel {i : Instr} {s t : State} (hi : i.reachesChannel = false) (h : exec i s = .next t) :
    t.KeepsChannel s := by
  cases i with
  | powerOn | mainPowerFail | resetAssert | resetRelease | verificationWalkEnd | initializationWalkEnd | configure
  | start | restart | zero | tareWeigh | tareSet | tareClear | sampleArrival | sampleWatchdogExpiry
  | censusTimerExpiry => cases hi
  | selectionEnd mosi =>
    obtain rfl := Host.Outcome.next.inj h
    simp
  | setTime time => exact serve_keepsChannel (.setTime time) _ (setTimeOwner_keepsChannel time) h
  | readStatus => exact serve_keepsChannel .readStatus readStatusOwner (by simp [readStatusOwner]) h
  | takeEvent => exact serve_keepsChannel .takeEvent _ takeEventOwner_keepsChannel h
  | readWeight => exact serve_keepsChannel .readWeight readWeightOwner (by simp [readWeightOwner]) h
  | weighItem clerk plu dept price given tare =>
    exact serve_keepsChannel (.weighItem clerk plu dept price given tare) _
      (weighItemOwner_keepsChannel clerk plu dept price given tare) h
  | countItem clerk plu dept price quantity =>
    exact serve_keepsChannel (.countItem clerk plu dept price quantity) _
      (countItemOwner_keepsChannel clerk plu dept price quantity) h
  | abortCapture => exact serve_keepsChannel .abortCapture _ abortCaptureOwner_keepsChannel h
  | releaseHeld => exact serve_keepsChannel .releaseHeld _ releaseHeldOwner_keepsChannel h
  | discardHeld => exact serve_keepsChannel .discardHeld _ discardHeldOwner_keepsChannel h
  | setWatch slot form kind value action enable =>
    exact serve_keepsChannel (.setWatch slot form kind value action enable) _
      (setWatchOwner_keepsChannel slot form kind value action enable) h
  | clearWatchStatus slots =>
    exact serve_keepsChannel (.clearWatchStatus slots) _ (clearWatchStatusOwner_keepsChannel slots) h
  | readWatches => exact serve_keepsChannel .readWatches readWatchesOwner (by simp [readWatchesOwner]) h
  | takeLabel => exact serve_keepsChannel .takeLabel _ takeLabelOwner_keepsChannel h
  | readJournal index =>
    exact serve_keepsChannel (.readJournal index) _ (readJournalOwner_keepsChannel index) h
  | issueTicket => exact serve_keepsChannel .issueTicket issueTicketOwner (by simp [issueTicketOwner]) h
  | callNext clerk => exact serve_keepsChannel (.callNext clerk) (callNextOwner clerk) (by simp [callNextOwner]) h
  | passTicket clerk =>
    exact serve_keepsChannel (.passTicket clerk) (passTicketOwner clerk) (by simp [passTicketOwner]) h
  | readTickets => exact serve_keepsChannel .readTickets readTicketsOwner (by simp [readTicketsOwner]) h
  | totalOrder clerk =>
    exact serve_keepsChannel (.totalOrder clerk) (totalOrderOwner clerk) (by simp [totalOrderOwner]) h
  | cancelOrder clerk =>
    exact serve_keepsChannel (.cancelOrder clerk) (cancelOrderOwner clerk) (by simp [cancelOrderOwner]) h
  | voidLine clerk line =>
    exact serve_keepsChannel (.voidLine clerk line) (voidLineOwner clerk line) (by simp [voidLineOwner]) h
  | readOrder clerk =>
    exact serve_keepsChannel (.readOrder clerk) _ (readOrderOwner_keepsChannel clerk) h
  | closeDay forced => exact serve_keepsChannel (.closeDay forced) (closeDayOwner forced) (by simp [closeDayOwner]) h
  | joinDay => exact serve_keepsChannel .joinDay _ joinDayOwner_keepsChannel h
  | askDaysum day => exact serve_keepsChannel (.askDaysum day) (askDaysumOwner day) (by simp [askDaysumOwner]) h
  | readDayRecord index =>
    exact serve_keepsChannel (.readDayRecord index) _ (readDayRecordOwner_keepsChannel index) h
  | readTotals group =>
    exact serve_keepsChannel (.readTotals group) _ (readTotalsOwner_keepsChannel group) h
  | readHealth => exact serve_keepsChannel .readHealth readHealthOwner (by simp [readHealthOwner]) h
  | readFaults index =>
    exact serve_keepsChannel (.readFaults index) _ (readFaultsOwner_keepsChannel index) h
  | clearStoreLatch =>
    exact serve_keepsChannel .clearStoreLatch clearStoreLatchOwner (by simp [clearStoreLatchOwner]) h
  | readRoster => exact serve_keepsChannel .readRoster readRosterOwner (by simp [readRosterOwner]) h
  | storeRead | storeUpdate | itemPosting | journalAppend | takenFlagUpdate | counterUpdate | recordWrite | closeCopy =>
    exact performHead_keepsChannel h
  | captureTimerExpiry =>
    simp only [exec, execCaptureTimerExpiry] at h
    split at h <;> obtain rfl := Host.Outcome.next.inj h <;> simp
  | holdTimerExpiry =>
    simp only [exec, execHoldTimerExpiry] at h
    split at h <;> obtain rfl := Host.Outcome.next.inj h <;> simp
  | beaconTimerExpiry =>
    obtain rfl := Host.Outcome.next.inj h
    split
    · split <;> simp
    · simp
  | rosterAgeExpiry station =>
    obtain rfl := Host.Outcome.next.inj h
    split
    · simp
    · split <;> simp
  | orderExpiry clerk =>
    simp only [exec, execOrderExpiry] at h
    split at h <;> obtain rfl := Host.Outcome.next.inj h
    · simp
    · split <;> simp
  | timeOfDayTick | scrubRequest | linkAttemptStart | arbitrationLost =>
    obtain rfl := Host.Outcome.next.inj h
    split <;> simp
  | attemptBitError =>
    obtain rfl := Host.Outcome.next.inj h
    split
    · simp
    · dsimp only
      split
      · simp
      · split <;> simp
  | attemptObjected =>
    obtain rfl := Host.Outcome.next.inj h
    split
    · simp
    · dsimp only
      split <;> simp
  | frameDamaged frame =>
    obtain rfl := Host.Outcome.next.inj h
    split
    · simp
    · split <;> simp
  | callAccepted | issueAccepted | passAccepted | txCloseAccepted | txCancelAccepted | voidAccepted | itemAccepted =>
    obtain rfl := Host.Outcome.next.inj h
    simp
  | dayCloseAccepted | daysumAccepted | daysumAskAccepted | censusAskAccepted | censusReplyAccepted | censusTxAccepted
  | beaconAccepted =>
    obtain rfl := Host.Outcome.next.inj h
    exact (acceptFrame_keepsRecords _ _ (by simp +contextual) s).1
  | closeStart | vretDisturbance =>
    obtain rfl := Host.Outcome.next.inj h
    simp

end Sys2Proof.Machine
end

section
/-! SUPPORT and the proof that every step keeps the zero-use figure within the zero band. -/

namespace Sys2Proof.Machine

/-! ### Rounding and the tracking clamp -/

/-- The size of a rounded quotient is the rounded quotient of the sizes. -/
theorem natAbs_rhaDiv (a : Int) {b : Nat} (hb : 0 < b) : (rhaDiv a b).natAbs = (2 * a.natAbs + b) / (2 * b) := by
  rcases eq_or_ne a 0 with rfl | ha
  · simp [rhaDiv, Nat.div_eq_of_lt (show b < 2 * b by omega)]
  · rw [rhaDiv, Int.natAbs_mul, Int.natAbs_sign_of_ne_zero ha, one_mul, Int.natAbs_natCast]

@[simp] theorem rhaDiv_zero (b : Nat) : rhaDiv 0 b = 0 := by simp [rhaDiv]

/-- A larger size has a larger rounded quotient. -/
theorem natAbs_rhaDiv_mono {a c : Int} {b : Nat} (hb : 0 < b) (h : a.natAbs ≤ c.natAbs) :
    (rhaDiv a b).natAbs ≤ (rhaDiv c b).natAbs := by
  rw [natAbs_rhaDiv a hb, natAbs_rhaDiv c hb]
  exact Nat.div_le_div_right (by omega)

/-- An adjustment within the tracking clamp of its reference has its zero offset within the zero band (R14, R17): the
quotient that starts the clamp is at most half a count too large, and one count less is enough. -/
theorem zeroOffset_within_band {bz span : Nat} {d : Int} (hspan : 1 ≤ span)
    (h : (d.natAbs : Int) ≤ trackingClamp bz span) :
    (rhaDiv (d * span) spanScale).natAbs ≤ bz := by
  have hscale : 0 < spanScale := by decide
  simp only [trackingClamp] at h
  set start := rhaDiv ((bz * spanScale : Nat) : Int) span with hstart
  have hsize : start.natAbs = (2 * (bz * spanScale) + span) / (2 * span) := by
    rw [hstart, natAbs_rhaDiv _ hspan, Int.natAbs_natCast]
  split at h
  · have hd : 2 * ((d.natAbs + 1) * span) ≤ 2 * (bz * spanScale) + span :=
      calc 2 * ((d.natAbs + 1) * span) ≤ start.natAbs * (2 * span) := by
            rw [Nat.mul_left_comm]
            exact Nat.mul_le_mul_right _ (by omega)
        _ ≤ 2 * (bz * spanScale) + span := by
            rw [hsize]
            exact Nat.div_mul_le_self _ _
    rw [natAbs_rhaDiv _ hscale, Int.natAbs_mul, Int.natAbs_natCast]
    refine Nat.lt_succ_iff.mp ((Nat.div_lt_iff_lt_mul (by omega)).mpr ?_)
    change _ < (bz + 1) * (2 * spanScale)
    have : 2 * ((d.natAbs + 1) * span) = 2 * (d.natAbs * span) + 2 * span := by ring
    have : (bz + 1) * (2 * spanScale) = 2 * (bz * spanScale) + 2 * spanScale := by ring
    omega
  · next hfit =>
    refine le_trans (natAbs_rhaDiv_mono hscale ?_) (not_lt.mp hfit)
    rw [Int.natAbs_mul, Int.natAbs_mul]
    exact Nat.mul_le_mul_right _ (by omega)

/-- The tracking clamp is not negative: a quotient of 0 needs no correction. -/
theorem trackingClamp_nonneg (bz span : Nat) : 0 ≤ trackingClamp bz span := by
  simp only [trackingClamp]
  set start := rhaDiv ((bz * spanScale : Nat) : Int) span with hstart
  have hpos : 0 ≤ start := by
    rw [hstart, rhaDiv]
    exact mul_nonneg (Int.sign_nonneg_iff.mpr (Int.natCast_nonneg _)) (Int.natCast_nonneg _)
  split
  · next h =>
    rcases hpos.eq_or_lt with h0 | h0
    · simp [← h0] at h
    · omega
  · exact hpos

/-- A clamped adjustment lies within the clamp of the reference (R17). -/
theorem clamped_within {w : Weighing} (hc : 0 ≤ w.clamp) (p : Int) :
    ((w.clamped p - w.zref).natAbs : Int) ≤ w.clamp := by
  unfold Weighing.clamped
  split
  · omega
  · split <;> omega

/-! ### What keeps the zero-use figure within the band -/

/-- The adjustment and all that the invariant weighs it with are the same. -/
@[simp] abbrev State.KeepsZero (t s : State) : Prop :=
  t.hpt.straps = s.hpt.straps ∧ t.hpt.configured = s.hpt.configured ∧ t.wch.span = s.wch.span
    ∧ t.wch.clamp = s.wch.clamp ∧ t.wch.zadj = s.wch.zadj ∧ t.wch.zref = s.wch.zref

theorem State.figures_eq {s t : State} (h : t.hpt.straps = s.hpt.straps) : t.figures = s.figures := by
  simp [State.figures, h]

/-- A station that weighs may take another adjustment whose zero-use figure is within the band. -/
theorem State.ZeroSound.adjust {s t : State} (hs : s.ZeroSound) (hconf : s.hpt.configured = true)
    (h : t.KeepsSettings s) (hspan : t.wch.span = s.wch.span) (hclamp : t.wch.clamp = s.wch.clamp)
    (hz : t.wch.zeroUse ≤ s.figures.zeroBand) : t.ZeroSound := by
  obtain ⟨-, -, hstraps, hc, hrun⟩ := h
  have hf := State.figures_eq hstraps
  obtain ⟨-, hset, -, -⟩ := hs
  exact ⟨by simp [hc, hconf], by simpa [hf, hspan, hclamp, hc] using hset, fun _ => by rw [hc, hconf], by rwa [hf]⟩

/-- Nothing else matters to it, and the run state only as far as it calls for a CONFIGURE. -/
theorem State.ZeroSound.of_keepsZero {s t : State} (hs : s.ZeroSound) (h : t.KeepsZero s)
    (hrun : t.hpt.runState = .joining ∨ t.hpt.runState = .running → s.hpt.configured = true) : t.ZeroSound := by
  obtain ⟨hstraps, hconf, hspan, hclamp, hzadj, hzref⟩ := h
  have hf := State.figures_eq hstraps
  obtain ⟨hun, hset, -, huse⟩ := hs
  refine ⟨by simpa [hconf, hzadj, hzref] using hun, by simpa [hf, hspan, hclamp, hconf] using hset,
    by simpa [hconf] using hrun, ?_⟩
  simpa [Weighing.zeroUse, Weighing.zeroOffset, hf, hspan, hzadj, hzref] using huse

theorem State.ZeroSound.keep {s t : State} (hs : s.ZeroSound)
    (h : t.KeepsZero s ∧ t.hpt.runState = s.hpt.runState) : t.ZeroSound :=
  hs.of_keepsZero h.1 (by rw [h.2]; exact hs.2.2.1)

theorem State.ZeroSound.keepChannel {s t : State} (hs : s.ZeroSound) (h : t.KeepsChannel s) : t.ZeroSound := by
  obtain ⟨⟨-, -, hstraps, hconf, hrun⟩, hwch⟩ := h
  exact hs.keep (by simp [*])

/-- The state after a reset stands at its reference. -/
theorem State.fresh_zeroSound (power : Power) (straps : Straps) (mem : Memory) (walk : Option Walk)
    (pending : List Instr) : (State.fresh power straps mem walk pending).ZeroSound := by
  simp [State.ZeroSound, State.fresh, HostPort.atReset, Weighing.atReset, Weighing.zeroUse, Weighing.zeroOffset]

theorem beginPreparation_zeroSound (kind : WalkKind) (straps : Straps) (mem : Memory) (pending : List Instr) :
    (beginPreparation kind straps mem pending).ZeroSound := State.fresh_zeroSound ..

/-! ### The commands that move the zero -/

theorem takeInitialZero_zeroSound {s : State} (hs : s.ZeroSound) (hconf : s.hpt.configured = true) :
    (takeInitialZero s).ZeroSound :=
  hs.adjust hconf (by simp [takeInitialZero]) (by simp [takeInitialZero]) (by simp [takeInitialZero])
    (by simp [takeInitialZero, Weighing.zeroUse, Weighing.zeroOffset, takeZero])

theorem trackingTest_zeroSound {s : State} (hs : s.ZeroSound) (hconf : s.hpt.configured = true) :
    (trackingTest s).ZeroSound := by
  unfold trackingTest
  extract_lets channel s' zero
  have hs' : s'.ZeroSound := hs.keep (by simp [s', channel])
  split
  · exact hs
  · split
    · obtain ⟨hspan, hclamp⟩ := hs'.2.1 hconf
      have hin := clamped_within (w := s'.wch) (by rw [hclamp]; exact trackingClamp_nonneg _ _) s'.wch.proposedZero
      refine hs'.adjust hconf (by simp [trackingChange]) (by simp [trackingChange]) (by simp [trackingChange]) ?_
      rw [hclamp] at hin
      simpa [trackingChange, Weighing.zeroUse, Weighing.zeroOffset] using zeroOffset_within_band hspan hin
    · exact hs'

theorem evaluateArrival_zeroSound {s : State} (hs : s.ZeroSound) (hconf : s.hpt.configured = true) :
    (evaluateArrival s).ZeroSound := by
  unfold evaluateArrival
  extract_lets g channel s1 s2
  have hs1 : s1.ZeroSound := hs.keep (by simp [s1, channel])
  have hconf1 : s1.hpt.configured = true := hconf
  have hs2 : s2.ZeroSound ∧ s2.hpt.configured = true := by
    unfold s2
    split
    · exact ⟨hs1.keep (by simp), by simpa using hconf1⟩
    · split
      · exact ⟨takeInitialZero_zeroSound hs1 hconf1, by simpa [takeInitialZero] using hconf1⟩
      · exact ⟨hs1.keep (by simp), by simpa using hconf1⟩
  exact trackingTest_zeroSound hs2.1 hs2.2

theorem restoreSamples_zeroSound {s : State} (hs : s.ZeroSound) : (restoreSamples s).ZeroSound := by
  unfold restoreSamples
  split
  · exact hs.keep (by simp)
  · exact hs

theorem offerReading_zeroSound {s : State} (hs : s.ZeroSound) : (offerReading s).ZeroSound := by
  unfold offerReading
  split
  · exact hs.keepChannel (by simp)
  · exact hs

theorem arrival_zeroSound {s : State} (hs : s.ZeroSound) (hconf : s.hpt.configured = true) (count : Int) :
    (arrival count s).ZeroSound := by
  unfold arrival
  split
  · exact hs.keep (by simp [limitArrival])
  · split
    · exact hs.keep (by simp [limitArrival])
    · unfold ordinaryArrival
      extract_lets channel s1
      have hs1 : s1.ZeroSound := hs.keep (by simp [s1, channel])
      split
      · exact hs1.keep (by simp)
      · exact offerReading_zeroSound (restoreSamples_zeroSound (evaluateArrival_zeroSound hs1 hconf))

theorem zeroOwner_zeroSound {s : State} (hs : s.ZeroSound) : (zeroOwner s).ZeroSound := by
  unfold zeroOwner
  split
  · exact hs.keep (by simp)
  · next hrun =>
    have hconf : s.hpt.configured = true := hs.2.2.1 (.inr (by simpa [State.notRunning] using hrun : _ ∧ _).1)
    split
    · exact hs.keep (by simp)
    · split
      · exact hs.keep (by simp)
      · dsimp only
        split
        · exact hs.keep (by simp)
        · next hband =>
          refine hs.adjust hconf (by simp) (by simp) (by simp) ?_
          simpa [takeZero, Weighing.zeroUse, Weighing.zeroOffset] using hband

/-- CONFIGURE starts at the reference and computes the clamp that the invariant asks for (R17). -/
theorem configureOwner_zeroSound {s : State} (c : ConfigBlock) (hs : s.ZeroSound) : (configureOwner c s).ZeroSound := by
  unfold configureOwner
  split
  · exact hs.keep (by simp)
  · next hfree =>
    have hzero : s.wch.zadj = s.wch.zref := hs.1 (by simp_all)
    split
    · next hrange =>
      refine State.ZeroSound.keepChannel (s := takeSettings c (answer .ok [] s)) ?_ (evaluateLowFlags_keepsRecords _).1
      have hspan : 1 ≤ c.span.toNat := by simp_all [configInRange, within]
      simp [State.ZeroSound, takeSettings, configWeighing, hspan, hzero, Weighing.zeroUse, Weighing.zeroOffset,
        State.figures]
    · exact hs.keep (by simp)

theorem beginStation_keepsZero (s : State) : (beginStation s).KeepsZero s := by simp [beginStation, beginWeighing]

theorem startOwner_zeroSound {s : State} (hs : s.ZeroSound) : (startOwner s).ZeroSound := by
  unfold startOwner
  split
  · exact hs.keep (by simp)
  · next h =>
    have hconf : s.hpt.configured = true := by simp_all
    exact State.ZeroSound.of_keepsZero (hs.keep (by simp)) (beginStation_keepsZero (answer .ok [] s)) (fun _ => hconf)

theorem restartOwner_zeroSound {s : State} (hs : s.ZeroSound) : (restartOwner s).ZeroSound := by
  unfold restartOwner
  split
  · exact hs.keep (by simp)
  · next h =>
    have hconf : s.hpt.configured = true := hs.2.2.1 (by cases hr : s.hpt.runState <;> simp_all)
    exact hs.of_keepsZero (by simp [softReset, beginStation, beginWeighing]) (fun _ => hconf)

theorem tareOwners_zeroSound {s : State} (hs : s.ZeroSound) (grams : BitVec 16) :
    (tareWeighOwner s).ZeroSound ∧ (tareSetOwner grams s).ZeroSound ∧ (tareClearOwner s).ZeroSound := by
  refine ⟨?_, ?_, ?_⟩
  · unfold tareWeighOwner
    split
    · exact hs.keep (by simp)
    · split
      · exact hs.keep (by simp)
      · dsimp only
        split <;> exact hs.keep (by simp)
  · unfold tareSetOwner
    split
    · exact hs.keep (by simp)
    · split <;> exact hs.keep (by simp)
  · unfold tareClearOwner
    split <;> exact hs.keep (by simp)

theorem loseSamples_zeroSound {s : State} (hs : s.ZeroSound) : (loseSamples s).ZeroSound := by
  unfold loseSamples
  dsimp only
  split <;> exact hs.keep (by simp)

theorem endCensus_zeroSound {s : State} (hs : s.ZeroSound) (hrun : s.hpt.runState = .joining) :
    (endCensus s).ZeroSound :=
  hs.of_keepsZero (by simp [endCensus]) (fun _ => hs.2.2.1 (.inl hrun))

/-- Store preparation ends in CONFIG, which asks for no CONFIGURE. -/
theorem endPreparation_zeroSound {s : State} (hs : s.ZeroSound) (r : WalkResult) : (endPreparation r s).ZeroSound := by
  unfold endPreparation
  extract_lets finds s1 s2 s3 s4 s5 port store
  have h4 : s4.KeepsChannel s := by
    unfold s4
    split <;> simp [s3, s2, s1]
  have h5 : s5.KeepsChannel s := by simpa [s5] using h4
  exact (hs.keepChannel h5).of_keepsZero (by simp [port]) (by simp)

theorem tick_zeroSound {s : State} (hs : s.ZeroSound) : (tick s).ZeroSound := by
  unfold tick
  split
  · exact hs.keep (by simp)
  · exact hs

/-! ### Every step -/

theorem serve_zeroSound (i : Instr) {owner : State → State} (ho : ∀ u : State, u.ZeroSound → (owner u).ZeroSound)
    {s t : State} (hs : s.ZeroSound) (h : serve i owner s = .next t) : t.ZeroSound := by
  obtain ⟨u, hu, ht | ht⟩ := serve_eq i owner s <;> obtain rfl := Host.Outcome.next.inj (ht.symm.trans h)
  · exact ho u (hs.keepChannel hu.1)
  · exact hs.keepChannel hu.1

/-- A command that ends in a next state keeps the invariant. -/
theorem exec_zeroSound {i : Instr} {s t : State} (hs : s.ZeroSound) (h : exec i s = .next t) : t.ZeroSound := by
  by_cases hi : i.reachesChannel = false
  · exact hs.keepChannel (exec_keepsChannel hi h)
  cases i with
  | powerOn straps retainOk =>
    obtain rfl := Host.Outcome.next.inj h
    split
    · exact State.fresh_zeroSound ..
    · exact beginPreparation_zeroSound ..
  | mainPowerFail =>
    obtain rfl := Host.Outcome.next.inj h
    exact State.fresh_zeroSound ..
  | resetAssert =>
    obtain rfl := Host.Outcome.next.inj h
    split
    · exact hs.keep (by simp)
    · exact hs
    · exact hs
    · exact State.fresh_zeroSound ..
  | resetRelease straps =>
    obtain rfl := Host.Outcome.next.inj h
    split
    · exact hs
    · exact hs
    · exact hs.keep (by simp)
    · exact beginPreparation_zeroSound ..
  | verificationWalkEnd =>
    simp only [exec, execVerificationWalkEnd] at h
    split at h
    · split at h <;> obtain rfl := Host.Outcome.next.inj h
      · exact hs.keepChannel (by simp)
      · refine endPreparation_zeroSound (hs.keepChannel ?_) _
        split <;> simp
    · obtain rfl := Host.Outcome.next.inj h
      exact hs
  | initializationWalkEnd =>
    simp only [exec, execInitializationWalkEnd] at h
    split at h <;> obtain rfl := Host.Outcome.next.inj h
    · exact endPreparation_zeroSound (hs.keepChannel (by simp)) _
    · exact hs
  | configure c => exact serve_zeroSound (.configure c) (fun _ hu => configureOwner_zeroSound c hu) hs h
  | start => exact serve_zeroSound .start (fun _ hu => startOwner_zeroSound hu) hs h
  | restart => exact serve_zeroSound .restart (fun _ hu => restartOwner_zeroSound hu) hs h
  | zero => exact serve_zeroSound .zero (fun _ hu => zeroOwner_zeroSound hu) hs h
  | tareWeigh => exact serve_zeroSound .tareWeigh (fun _ hu => (tareOwners_zeroSound hu 0).1) hs h
  | tareSet grams => exact serve_zeroSound (.tareSet grams) (fun _ hu => (tareOwners_zeroSound hu grams).2.1) hs h
  | tareClear => exact serve_zeroSound .tareClear (fun _ hu => (tareOwners_zeroSound hu 0).2.2) hs h
  | sampleArrival bits value =>
    obtain rfl := Host.Outcome.next.inj h
    split
    · next hw =>
      have hruns : s.hpt.runState = .joining ∨ s.hpt.runState = .running := by simp_all [State.weighs]
      exact arrival_zeroSound hs (hs.2.2.1 hruns) _
    · exact hs
  | sampleWatchdogExpiry =>
    obtain rfl := Host.Outcome.next.inj h
    split
    · exact loseSamples_zeroSound hs
    · exact hs
  | censusTimerExpiry =>
    obtain rfl := Host.Outcome.next.inj h
    split
    · next hc => exact endCensus_zeroSound hs (by simp_all)
    · exact hs
  | _ => exact absurd rfl hi

end Sys2Proof.Machine

namespace Sys2Proof.Machine

/-- Settles O12: every command keeps the invariant, and so does the passing of time. -/
theorem stepKeepsTheZeroInTheBand : Obligations.StepKeepsTheZeroInTheBand := by
  intro s t hs h
  unfold step at h
  split at h
  · obtain rfl := Host.Outcome.next.inj h
    exact tick_zeroSound hs
  · exact exec_zeroSound (hs.keep (by simp)) h

end Sys2Proof.Machine
end

section
/-! SUPPORT and the proofs about the weighing channel: the tare requests, ZERO, the sample watchdog, and the arrivals of
samples. -/

namespace Sys2Proof.Machine

/-! ### The tare -/

theorem exec_tareSet {g : BitVec 16} {s : State} (h : s.asked (.tareSet g)) :
    exec (.tareSet g) s = .next (tareSetOwner g s) := serve_asked h

theorem tareSetOwner_wrongState {s : State} (h : s.hpt.runState ≠ .running) (g : BitVec 16) :
    tareSetOwner g s = refuse .wrongState s := by
  simp [tareSetOwner, State.notRunning, h]

theorem tareSetOwner_param {s : State} {g : BitVec 16} (hrun : s.hpt.runState = .running)
    (h : g.toNat = 0 ∨ s.figures.cap1 < g.toNat ∨ g.toNat % s.figures.e1 ≠ 0) :
    tareSetOwner g s = refuse .param s := by
  have hbad : g.toNat = 0 ∨ s.figures.tareInRange g.toNat = false := by
    simp only [Figures.tareInRange, decide_eq_false_iff_not]
    omega
  rw [tareSetOwner, if_neg (by simp [State.notRunning, hrun]), if_pos hbad]

theorem tareSetOwner_ok {s : State} {g : BitVec 16} (hrun : s.hpt.runState = .running) (h0 : g.toNat ≠ 0)
    (hcap : g.toNat ≤ s.figures.cap1) (he : g.toNat % s.figures.e1 = 0) :
    tareSetOwner g s = { s with
      hpt.slot := .ready { result := .ok, data := [] }
      wch.tare := some (10 * g.toNat) } := by
  simp [tareSetOwner, State.notRunning, hrun, h0, Figures.tareInRange, hcap, he, answer_eq]

/-- The figures of class C (Table 0-4). -/
theorem figures_classC {s : State} (h : s.hpt.straps.cap = 2) :
    s.figures = { max := 30000, cap1 := 15000, e1 := 5, e2 := 10 } := by
  rw [State.figures, h]
  rfl

/-- Settles O30: the owner's three answers, and the two weights of class C as cases of them. -/
theorem tareSetTakesTheWeight : Obligations.TareSetTakesTheWeight := by
  refine ⟨fun g s ha => ?_, fun w g tare => by simp [Weighing.net], fun s ha hrun hc => ?_, fun s ha hrun hc => ?_⟩
  · rw [exec_tareSet ha]
    exact ⟨fun h => by rw [tareSetOwner_wrongState h], fun hrun h => by rw [tareSetOwner_param hrun h],
      fun hrun h0 hcap he => by rw [tareSetOwner_ok hrun h0 hcap he]⟩
  · rw [exec_tareSet ha, tareSetOwner_ok hrun (by decide) (by rw [figures_classC hc]; decide)
      (by rw [figures_classC hc]; decide)]
    rfl
  · rw [exec_tareSet ha, tareSetOwner_param hrun (by rw [figures_classC hc]; decide)]

theorem exec_tareWeigh {s : State} (h : s.asked .tareWeigh) : exec .tareWeigh s = .next (tareWeighOwner s) :=
  serve_asked h

theorem exec_tareClear {s : State} (h : s.asked .tareClear) : exec .tareClear s = .next (tareClearOwner s) :=
  serve_asked h

theorem tareWeighOwner_wrongState {s : State} (h : s.hpt.runState ≠ .running ∨ s.wch.state ≠ .live) :
    tareWeighOwner s = refuse .wrongState s := by
  simp [tareWeighOwner, State.notRunning, h]

theorem tareWeighOwner_motion {s : State} (hrun : s.hpt.runState = .running) (hlive : s.wch.state = .live)
    (h : s.windowStable = false) : tareWeighOwner s = refuse .motion s := by
  simp [tareWeighOwner, State.notRunning, hrun, hlive, h]

/-- On a stable load of a gross weight the checks of the weight are left. -/
theorem tareWeighOwner_stable {s : State} {g : Int} (hrun : s.hpt.runState = .running) (hlive : s.wch.state = .live)
    (h : s.windowStable = true) (hg : s.wch.gross = some g) :
    tareWeighOwner s =
      if g ≤ 0 ∨ (s.figures.changePoint : Int) < g ∨ roundedTare s.figures g = 0 then refuse .param s
      else answer .ok [] { s with wch.tare := some (roundedTare s.figures g).toNat } := by
  simp [tareWeighOwner, State.notRunning, hrun, hlive, h, hg]

/-- Settles O31: the checks of TARE_WEIGH in their order, and TARE_CLEAR. -/
theorem tareWeighAndClear : Obligations.TareWeighAndClear := by
  refine ⟨fun s ha => ?_, fun s ha => ?_⟩
  · rw [exec_tareWeigh ha]
    refine ⟨fun h => by rw [tareWeighOwner_wrongState h],
      fun hrun hlive h => by rw [tareWeighOwner_motion hrun hlive h],
      fun hrun hlive h g r hg hr => ?_⟩
    have hcap : (s.figures.changePoint : Int) = 10 * s.figures.cap1 := by simp [Figures.changePoint]
    rw [tareWeighOwner_stable hrun hlive h hg, hcap, show roundedTare s.figures g = r from hr.symm]
    exact ⟨fun hbad => by rw [if_pos hbad], fun hpos hle h0 => by rw [if_neg (by omega), answer_eq]⟩
  · rw [exec_tareClear ha]
    exact ⟨fun h => by simp [tareClearOwner, State.notRunning, h],
      fun h => by simp [tareClearOwner, State.notRunning, h, answer_eq]⟩

/-! ### ZERO -/

/-- The lockout follows the normalized value of ZERO_USE and its threshold (R178, R179). -/
theorem lockedOut_iff (s : State) : s.lockedOut = true ↔
    ∃ x, s.hlm.attributes.zeroUse.threshold = some x ∧ s.hlm.attributes.zeroUse.normalized ≤ x := by
  unfold State.lockedOut AttributeRecord.isLow
  split <;> simp [*]

/-- The report of the zero-use figure moves ZERO_USE to it (R14, R177). -/
theorem handZeroUse_moves (s : State) : s.Moves (handZeroUse s) .zeroUse s.wch.zeroUse := moveAttribute_moves ..

theorem handZeroUse_raw (s : State) : (handZeroUse s).hlm.attributes.zeroUse.raw = min s.wch.zeroUse 65535 :=
  moveAttribute_raw .zeroUse _ s

theorem exec_zero {s : State} (h : s.asked .zero) : exec .zero s = .next (zeroOwner s) := serve_asked h

theorem zeroOwner_wrongState {s : State} (h : s.hpt.runState ≠ .running ∨ s.wch.state ≠ .live) :
    zeroOwner s = refuse .wrongState s := by
  simp [zeroOwner, State.notRunning, h]

/-- RUNNING and LIVE the checks of motion, tare and range are left, in this order (R18). -/
theorem zeroOwner_live {s : State} (hrun : s.hpt.runState = .running) (hlive : s.wch.state = .live) :
    zeroOwner s =
      if s.windowStable = false then refuse .motion s
      else if s.wch.tare.isSome then refuse .tarePresent s
      else if s.figures.zeroBand < (s.wch.zeroOffset s.wch.proposedZero).natAbs then refuse .zeroRange s
      else handZeroUse (takeZero s.wch.proposedZero (answer .ok [] s)) := by
  simp [zeroOwner, State.notRunning, hrun, hlive]

/-- Settles O29: the checks of ZERO in their order, and the zero taken with the figure it hands. -/
theorem zeroTakesTheLoadAsZero : Obligations.ZeroTakesTheLoadAsZero := by
  intro s ha
  rw [exec_zero ha]
  refine ⟨fun h => by rw [zeroOwner_wrongState h], fun hrun hlive => ?_⟩
  rw [zeroOwner_live hrun hlive]
  refine ⟨fun h => by rw [if_pos h], fun hst => ⟨fun ht => by simp [hst, ht], fun ht z hz => ?_⟩⟩
  rw [if_neg (by simp [hst]), if_neg (by simp [ht]), show s.wch.proposedZero = z from hz.symm]
  refine ⟨fun h : s.figures.zeroBand < (s.wch.zeroOffset z).natAbs => by rw [if_pos h],
    fun h : (s.wch.zeroOffset z).natAbs ≤ s.figures.zeroBand => ?_⟩
  rw [if_neg (not_lt.mpr h)]
  exact ⟨_, _, rfl, rfl, by simp; rfl, by simp, handZeroUse_raw _, handZeroUse_moves (takeZero z (answer .ok [] s)),
    lockedOut_iff _, by simp, by simp, by simp, by simp, by simp, by simp, by simp⟩

/-! ### The sample watchdog -/

/-- Four parameter bytes as one number, missing ones as 0 (R188). -/
theorem packBytes_fourBytes (l : List Byte) : packBytes (fourBytes l)
    = (l.getD 0 0).toNat * 16777216 + (l.getD 1 0).toNat * 65536 + (l.getD 2 0).toNat * 256 + (l.getD 3 0).toNat := by
  have h (a b c d : Byte) : packBytes [a, b, c, d]
      = a.toNat * 16777216 + b.toNat * 65536 + c.toNat * 256 + d.toNat := by
    simp only [packBytes, List.foldl_cons, List.foldl_nil]
    ring
  match l with
  | [] | [_] | [_, _] | [_, _, _] | _ :: _ :: _ :: _ :: _ => exact h ..

/-- What a fault report hands: its entry and the fault word (Table 10-5, R181, R182). -/
theorem recordFault_ops (k : FaultKind) (s : State) : (recordFault k s).tst.ops = s.tst.ops
    ++ [s.faultRecord k.number (recordFault k s).hlm.newestFault (recordFault k s).hlm.faultCount] := by
  simp [recordFault, State.faultRecord, faultEntry, addressed, addrFaultEntry, addrFault, faultWord, ringCode,
    ringParams, packBytes_fourBytes]

theorem recordFault_hlm (k : FaultKind) (s : State) : (recordFault k s).hlm = { s.hlm with
    newestFault := ringNext 6 s.hlm.newestFault, faultCount := min (s.hlm.faultCount + 1) 65535 } := rfl

theorem exec_sampleWatchdogExpiry (s : State) : exec .sampleWatchdogExpiry s =
    .next (if hasRun s.wch.watchdog (watchdogTime s.wch.rate) && decide (s.wch.state ≠ .sampleLost) then loseSamples s
      else s) := rfl

/-- The channel without its samples (R12). -/
def Weighing.lost (w : Weighing) : Weighing :=
  { w with
    state := .sampleLost, filter := [], window := [], gross := none, trackCount := 0, watchdog := none,
    restorePending := true }

/-- A loss while the restoration of an earlier one is pending is not reported (R13). -/
theorem loseSamples_again {s : State} (h : s.wch.restorePending = true) :
    loseSamples s = { s with wch := s.wch.lost } := by
  simp [loseSamples, h, Weighing.lost]

/-- A first loss is one event and one fault (R12). -/
theorem loseSamples_first {s : State} (h : s.wch.restorePending = false) :
    loseSamples s = recordFault .samplesLost (queueEvent .samplesLost { s with wch := s.wch.lost }) := by
  simp [loseSamples, h, Weighing.lost]

/-- A loss is the channel's alone, but for its report. -/
theorem loseSamples_keeps (s : State) : (loseSamples s).wch = s.wch.lost ∧ (loseSamples s).cap = s.cap
    ∧ (loseSamples s).lbl = s.lbl ∧ (loseSamples s).lnk = s.lnk ∧ (loseSamples s).tkt = s.tkt
    ∧ (loseSamples s).clt = s.clt ∧ (loseSamples s).day = s.day ∧ (loseSamples s).tst.mem = s.tst.mem
    ∧ (loseSamples s).hlm.attributes = s.hlm.attributes := by
  cases h : s.wch.restorePending with
  | true => simp [loseSamples_again h]
  | false => simp [loseSamples_first h]

/-- Settles O28: a watchdog that has run loses the samples, and one loss is reported once. -/
theorem watchdogExpiryLosesTheSamples : Obligations.WatchdogExpiryLosesTheSamples := by
  refine ⟨fun s left hw hlt hst => ?_, fun s h => ?_⟩
  · have hrun : (hasRun s.wch.watchdog (watchdogTime s.wch.rate) && decide (s.wch.state ≠ .sampleLost)) = true := by
      simp [hasRun, hw, watchdogTime, hlt, hst]
    rw [exec_sampleWatchdogExpiry, if_pos hrun]
    obtain ⟨hwch, hrest⟩ := loseSamples_keeps s
    refine ⟨_, rfl, hwch, fun h => by rw [loseSamples_again h], fun h hroom => ?_, hrest⟩
    have hroom' : ({ s with wch := s.wch.lost } : State).hpt.events.length < 32 := hroom
    rw [loseSamples_first h, queueEvent_room hroom']
    exact ⟨rfl, rfl, rfl, recordFault_ops _ _⟩
  · rw [exec_sampleWatchdogExpiry, if_neg]
    rcases h with h | h | h
    · simp [h]
    · simp [h, watchdogTime]
    · simp [h]

/-! ### Weighing states and limit codes -/

theorem enterState_wch (new : WeighState) (s : State) : (enterState new s).wch = { s.wch with state := new } := by
  unfold enterState
  dsimp only
  split <;> simp

/-- Only an entry into OVER from another state is reported (R5, R7). -/
theorem enterState_quiet {new : WeighState} {s : State} (h : new = .over → s.wch.state = .over) :
    enterState new s = { s with wch.state := new } := by
  rw [enterState, if_neg (by tauto)]

theorem enterState_over {s : State} (h : s.wch.state ≠ .over) :
    enterState .over s = raiseAttribute .overloads 1 { s with wch.state := .over } := by
  rw [enterState, if_pos ⟨rfl, h⟩]

/-- Overload entries move OVERLOADS alone (R177). -/
theorem enterState_zeroUse (new : WeighState) (s : State) :
    (enterState new s).hlm.attributes.zeroUse = s.hlm.attributes.zeroUse := by
  unfold enterState
  dsimp only
  split
  · exact moveAttribute_other (a := .overloads) (b := .zeroUse) (by decide) _ _
  · rfl

/-- The overload entries counted (R177). -/
theorem enterState_overloads (s : State) : (enterState .over s).hlm.attributes.overloads.raw =
    if s.wch.state = .over then s.hlm.attributes.overloads.raw
    else min (s.hlm.attributes.overloads.raw + 1) 65535 := by
  split
  · next h => rw [enterState_quiet fun _ => h]
  · next h =>
    rw [enterState_over h]
    exact moveAttribute_raw .overloads _ _

/-! ### Arrivals -/

/-- A value joins a list that is short of its bound. -/
theorem pushed_short {l : List Int} {n : Nat} (h : l.length < n) (v : Int) : pushed l v n = l ++ [v] := by
  rw [pushed, Nat.sub_eq_zero_of_le h, List.drop_zero]

/-- A value pushes the oldest out of a list that is at its bound. -/
theorem pushed_full {l : List Int} {n : Nat} (h : l.length = n) (hn : 1 ≤ n) (v : Int) :
    pushed l v n = l.drop 1 ++ [v] := by
  rw [pushed, h, Nat.add_sub_cancel_left, List.drop_append_of_le_length (by omega)]

theorem exec_sampleArrival {v : BitVec 24} {s : State} (hp : s.power = .on)
    (hr : s.hpt.runState = .joining ∨ s.hpt.runState = .running) :
    exec (.sampleArrival 24 v) s = .next (arrival v.toInt s) := by
  have hw : s.weighs = true := by simp [State.weighs, State.working, hp, hr]
  simp [exec, execSampleArrival, hw]

/-- No arrival: a frame of another length, or a station that does not weigh (R1, R5). -/
theorem exec_sampleArrival_none {n : Nat} {s : State}
    (h : n ≠ 24 ∨ s.power ≠ .on ∨ s.hpt.runState = .storePrep ∨ s.hpt.runState = .config) (v : BitVec 24) :
    exec (.sampleArrival n v) s = .next s := by
  have hw : ¬(n = 24 ∧ s.weighs = true) := by
    rintro ⟨rfl, hw⟩
    simp_all [State.weighs, State.working]
    rcases hw with ⟨-, hw | hw⟩ <;> simp_all
  simp [exec, execSampleArrival, hw]

/-- The state in which an ordinary arrival is evaluated: its count has entered the filter, the tracking count has risen
and the watchdog is restarted (R3, R12, R16). -/
def State.sampled (count : Int) (s : State) : State :=
  restartWatchdog { s with
    wch.filter := pushed s.wch.filter count s.wch.filterLength
    wch.trackCount := s.wch.trackCount + 1 }

theorem arrival_ordinary {count : Int} (hlow : count ≠ -8388608) (hhigh : count ≠ 8388607) (s : State) :
    arrival count s =
      if (s.sampled count).wch.filter.length < s.wch.filterLength then enterState .filling (s.sampled count)
      else offerReading (restoreSamples (evaluateArrival (s.sampled count))) := by
  simp only [arrival, if_neg hlow, if_neg hhigh]
  rfl

/-- Settles O26: no arrival, the two limit codes, and the filter short of its length. -/
theorem sampleArrivalsEnterTheFilter : Obligations.SampleArrivalsEnterTheFilter := by
  refine fun n v s => ⟨fun h => exec_sampleArrival_none h v, ?_⟩
  rintro rfl hp hr
  rw [exec_sampleArrival hp hr]
  refine ⟨fun hv => ?_, fun hv => ?_, fun hlow hhigh hlen => ?_⟩
  · rw [hv]
    rfl
  · rw [hv]
    refine ⟨limitArrival .over s, rfl, enterState_wch .over (restartWatchdog s),
      enterState_overloads (restartWatchdog s), fun h => ?_, by simp [limitArrival, restartWatchdog]⟩
    rw [limitArrival, enterState_over (s := restartWatchdog s) h]
    exact moveAttribute_moves .overloads _ { restartWatchdog s with wch.state := .over }
  · have hpush := pushed_short (Nat.lt_of_succ_lt hlen) v.toInt
    rw [arrival_ordinary hlow hhigh, if_pos (by simp [State.sampled, restartWatchdog, hpush, hlen]),
      enterState_quiet (by simp), State.sampled, hpush]
    rfl

end Sys2Proof.Machine
end

section
/-! SUPPORT and the proof about a sample that finds the filter complete: its evaluation, the tracking test, the
restoration and the stable reading. -/

namespace Sys2Proof.Machine

/-! ### Room for events -/

theorem queueEvent_length (e : Event) (s : State) : (queueEvent e s).hpt.events.length ≤ s.hpt.events.length + 1 := by
  unfold queueEvent
  split <;> simp [recordFault]

theorem moveAttribute_length (a : Attribute) (raw : Nat) (s : State) :
    (moveAttribute a raw s).hpt.events.length ≤ s.hpt.events.length + 1 := by
  unfold moveAttribute
  dsimp only
  split
  · omega
  · split
    · exact queueEvent_length _ _
    · simp

theorem enterState_length (new : WeighState) (s : State) :
    (enterState new s).hpt.events.length ≤ s.hpt.events.length + 1 := by
  unfold enterState
  dsimp only
  split
  · exact moveAttribute_length ..
  · simp

theorem handZeroUse_length (s : State) : (handZeroUse s).hpt.events.length ≤ s.hpt.events.length + 1 :=
  moveAttribute_length ..

theorem takeInitialZero_length (s : State) : (takeInitialZero s).hpt.events.length ≤ s.hpt.events.length + 2 :=
  (handZeroUse_length _).trans (Nat.succ_le_succ (enterState_length _ (takeZero _ _)))

theorem trackingChange_length (zero : Int) (s : State) :
    (trackingChange zero s).hpt.events.length ≤ s.hpt.events.length + 2 :=
  (handZeroUse_length _).trans (Nat.succ_le_succ (enterState_length _ { s with wch := _ }))

theorem trackingTest_length (s : State) : (trackingTest s).hpt.events.length ≤ s.hpt.events.length + 2 := by
  unfold trackingTest
  dsimp only
  split
  · omega
  · split
    · exact trackingChange_length _ { s with wch.trackCount := 0 }
    · exact Nat.le_add_right _ 2

/-- An arrival queues at most four events before the one of a restoration. -/
theorem evaluateArrival_length (s : State) : (evaluateArrival s).hpt.events.length ≤ s.hpt.events.length + 4 := by
  unfold evaluateArrival
  refine (trackingTest_length _).trans (Nat.add_le_add_right (m := s.hpt.events.length + 2) ?_ 2)
  dsimp only
  split
  · exact (enterState_length _ { s with wch := _ }).trans (Nat.le_succ _)
  · split
    · exact takeInitialZero_length { s with wch := _ }
    · exact (enterState_length _ { s with wch := _ }).trans (Nat.le_succ _)

/-! ### What the evaluation leaves -/

/-- The settings, the time of day, the other units and the words of the store are the same, and of the channel the
filter and the pending restoration. -/
@[simp] abbrev State.KeepsBesidesZero (t s : State) : Prop :=
  t.KeepsSettings s ∧ t.hpt.timeOfDay = s.hpt.timeOfDay ∧ t.cap = s.cap ∧ t.lbl = s.lbl ∧ t.lnk = s.lnk
    ∧ t.tst.mem = s.tst.mem ∧ t.wch.filter = s.wch.filter ∧ t.wch.restorePending = s.wch.restorePending

theorem takeInitialZero_keeps (s : State) : (takeInitialZero s).KeepsBesidesZero s := by
  simp [takeInitialZero]

theorem trackingTest_keeps (s : State) : (trackingTest s).KeepsBesidesZero s := by
  unfold trackingTest
  dsimp only
  split
  · simp
  · split <;> simp [trackingChange]

theorem evaluateArrival_keeps (s : State) : (evaluateArrival s).KeepsBesidesZero s := by
  have htest := trackingTest_keeps
  have hinitial := takeInitialZero_keeps
  simp only [State.KeepsBesidesZero, State.KeepsSettings] at htest hinitial
  unfold evaluateArrival
  dsimp only
  split
  · simp [htest]
  · split <;> simp [htest, hinitial]

/-! ### The restoration and the stable reading -/

theorem restoreSamples_wch (s : State) : (restoreSamples s).wch = { s.wch with restorePending := false } := by
  unfold restoreSamples
  split
  · simp
  · next h =>
    rw [← Bool.eq_false_iff.mpr h]

theorem restoreSamples_keeps (s : State) : (restoreSamples s).KeepsSettings s ∧ (restoreSamples s).cap = s.cap
    ∧ (restoreSamples s).lbl = s.lbl ∧ (restoreSamples s).lnk = s.lnk ∧ (restoreSamples s).tst.mem = s.tst.mem := by
  unfold restoreSamples
  split <;> simp

/-- With room the restoration is its event (R13). -/
theorem restoreSamples_room {s : State} (h : s.hpt.events.length < 32) : (restoreSamples s).hlm = s.hlm
    ∧ (restoreSamples s).tst = s.tst
    ∧ (s.wch.restorePending = true → s.record .samplesRestored ∈ (restoreSamples s).hpt.events) := by
  unfold restoreSamples
  split
  · have hroom : ({ s with wch.restorePending := false } : State).hpt.events.length < 32 := h
    simp [queueEvent_room hroom, State.record]
  · simp_all

theorem offerReading_keepsRecords (s : State) : (offerReading s).KeepsRecords s := by
  unfold offerReading
  split
  · exact stableReading_keepsRecords _ s
  · simp

/-- Nothing is read without a capture that waits, outside LIVE, and while the window is not stable (R11, R31). -/
theorem offerReading_none {s : State} (h : s.cap.capture = .idle ∨ s.wch.state ≠ .live ∨ s.windowStable = false) :
    offerReading s = s := by
  unfold offerReading
  split
  · next hs =>
    rw [stableReading, h.resolve_right (by simp [hs])]
  · rfl

/-! ### The window and the state -/

/-- A window of one value or more is stable when it is full and no two values lie further apart than the spread (R4). -/
theorem windowStable_iff_full {w : List Int} {m : Nat} (hm : 1 ≤ m) (spread : Int) :
    windowStable w m spread = true ↔ w.length = m ∧ ∀ x ∈ w, ∀ y ∈ w, x - y ≤ spread := by
  rw [windowStable_iff]
  refine ⟨And.right, fun h => ⟨?_, h⟩⟩
  rintro rfl
  simp at h
  omega

theorem judged_live_iff (s : State) (g : Int) :
    s.judged g = .live ↔ s.figures.underload ≤ g ∧ g ≤ s.figures.overload := by
  unfold State.judged
  split
  · simp; omega
  · split <;> simp <;> omega

/-- The gross weight of an arrival and the window that it joins (R4, R8). -/
def State.weighed (s : State) : State :=
  { s with wch.gross := some s.wch.grossNow, wch.window := pushed s.wch.window s.wch.grossNow s.wch.windowLength }

theorem evaluateArrival_taken {s : State} (h : s.wch.zeroTaken = true) :
    evaluateArrival s = trackingTest (enterState (s.judged s.wch.grossNow) s.weighed) :=
  congrArg trackingTest (if_pos h)

/-- Before the initial zero its two conditions are asked (R15). -/
theorem evaluateArrival_waiting {s : State} (h : s.wch.zeroTaken = false) : evaluateArrival s = trackingTest
    (if s.weighed.windowStable = true ∧ s.wch.grossNow.natAbs ≤ s.figures.initialBand then takeInitialZero s.weighed
      else enterState .zeroWait s.weighed) := by
  have hwait : ¬s.weighed.wch.zeroTaken = true := by simp [State.weighed, h]
  refine congrArg trackingTest ((if_neg hwait).trans (if_congr ?_ rfl rfl))
  rw [Bool.and_eq_true, decide_eq_true_eq]
  rfl

/-! ### The tracking test -/

/-- The tracking count back at 0 when it came to the rate (R16). -/
def State.counted (s : State) : State :=
  { s with wch.trackCount := if s.wch.rate ≤ s.wch.trackCount then 0 else s.wch.trackCount }

theorem counted_wch (s : State) : s.counted.wch =
    { s.wch with trackCount := if s.wch.rate ≤ s.wch.trackCount then 0 else s.wch.trackCount } := rfl

theorem counted_windowStable (s : State) : s.counted.windowStable = s.windowStable := rfl

theorem counted_hlm (s : State) : s.counted.hlm = s.hlm := rfl

/-- A test that is not due or finds its conditions unmet, or the zero where it stands, is counted alone (R16). -/
theorem trackingTest_stays {s : State} (h : s.wch.rate ≤ s.wch.trackCount → s.mayTrack = true →
      s.wch.clamped s.wch.proposedZero = s.wch.zadj) :
    trackingTest s = s.counted := by
  unfold trackingTest State.counted
  split
  · next hlt => rw [if_neg (by omega)]
  · next hge =>
    have hdue : s.wch.rate ≤ s.wch.trackCount := by omega
    rw [if_pos hdue]
    refine if_neg fun hc => ?_
    obtain ⟨hmay, hz⟩ := Bool.and_eq_true_iff.mp hc
    exact of_decide_eq_true hz (h hdue hmay)

/-- A test due with its conditions met moves a zero that stands elsewhere (R16, R17). -/
theorem trackingTest_moves {s : State} (hdue : s.wch.rate ≤ s.wch.trackCount) (hmay : s.mayTrack = true)
    (hz : s.wch.clamped s.wch.proposedZero ≠ s.wch.zadj) :
    trackingTest s = trackingChange (s.wch.clamped s.wch.proposedZero) s.counted := by
  rw [trackingTest, if_neg (by omega), State.counted, if_pos hdue]
  exact if_pos (Bool.and_eq_true_iff.mpr ⟨hmay, decide_eq_true hz⟩)

/-- The conditions of a tracking change at an arrival (R16). -/
theorem mayTrack_iff {s : State} (hm : 1 ≤ s.wch.windowLength) : s.mayTrack = true ↔
    s.wch.tracking = true ∧ s.wch.zeroTaken = true ∧ s.wch.state = .live ∧ s.wch.tare = none
      ∧ (s.wch.gross.getD 0).natAbs ≤ s.figures.trackingWindow ∧ s.wch.window.length = s.wch.windowLength
      ∧ ∀ x ∈ s.wch.window, ∀ y ∈ s.wch.window, x - y ≤ s.figures.spread := by
  simp only [State.mayTrack, State.windowStable, Bool.and_eq_true, decide_eq_true_eq, Option.isNone_iff_eq_none,
    windowStable_iff_full hm]
  tauto

/-! ### An arrival that finds the filter complete -/

/-- An arrival judged by its gross weight, before its tracking test (R7, R8). -/
def State.judgedArrival (s : State) : State := enterState (s.judged s.wch.grossNow) s.weighed

theorem judgedArrival_wch (s : State) :
    s.judgedArrival.wch = { s.weighed.wch with state := s.judged s.wch.grossNow } := enterState_wch ..

theorem judgedArrival_mayTrack {s : State} (hm : 1 ≤ s.wch.windowLength) : s.judgedArrival.mayTrack = true ↔
    s.wch.tracking = true ∧ s.wch.zeroTaken = true
      ∧ (s.figures.underload ≤ s.wch.grossNow ∧ s.wch.grossNow ≤ s.figures.overload) ∧ s.wch.tare = none
      ∧ s.wch.grossNow.natAbs ≤ s.figures.trackingWindow ∧ s.weighed.wch.window.length = s.wch.windowLength
      ∧ ∀ x ∈ s.weighed.wch.window, ∀ y ∈ s.weighed.wch.window, x - y ≤ s.figures.spread := by
  have hfig : s.judgedArrival.figures = s.figures := State.figures_eq (by simp [State.judgedArrival, State.weighed])
  rw [mayTrack_iff (by rw [judgedArrival_wch]; exact hm), hfig, judgedArrival_wch, ← judged_live_iff]
  rfl

/-- The figures that judge a weight stay through the arrival. -/
theorem judgedArrival_judged (s : State) (g : Int) : s.judgedArrival.counted.judged g = s.judged g := by
  obtain ⟨-, -, -, hstraps, -⟩ := enterState_keeps (s.judged s.wch.grossNow) s.weighed
  unfold State.judged
  rw [State.figures_eq (s := s.weighed) (t := s.judgedArrival.counted) hstraps]
  rfl

/-- The evaluation of an arrival at a taken zero that its tracking test does not move. -/
theorem evaluateArrival_stays {s : State} (hz : s.wch.zeroTaken = true)
    (h : s.wch.rate ≤ s.wch.trackCount → s.judgedArrival.mayTrack = true →
      s.wch.clamped s.wch.proposedZero = s.wch.zadj) :
    evaluateArrival s = s.judgedArrival.counted := by
  rw [evaluateArrival_taken hz, ← State.judgedArrival, trackingTest_stays]
  rw [judgedArrival_wch]
  exact h

/-- The state after a sample that finds the filter complete (R6, R11, R13). -/
def State.completed (s : State) (count : Int) : State :=
  offerReading (restoreSamples (evaluateArrival (s.sampled count)))

theorem exec_sampleArrival_complete {v : BitVec 24} {s : State} (hp : s.power = .on)
    (hr : s.hpt.runState = .joining ∨ s.hpt.runState = .running) (hlow : v.toInt ≠ -8388608) (hhigh : v.toInt ≠ 8388607)
    (hfull : (pushed s.wch.filter v.toInt s.wch.filterLength).length = s.wch.filterLength) :
    exec (.sampleArrival 24 v) s = .next (s.completed v.toInt) := by
  rw [exec_sampleArrival hp hr, arrival_ordinary hlow hhigh, if_neg]
  · rfl
  · exact not_lt.mpr hfull.ge

/-- The restoration and the reading leave the evaluated channel (R11, R13). -/
theorem completed_wch (s : State) (count : Int) :
    (s.completed count).wch = { (evaluateArrival (s.sampled count)).wch with restorePending := false } := by
  obtain ⟨⟨-, hwch⟩, -⟩ := offerReading_keepsRecords (restoreSamples (evaluateArrival (s.sampled count)))
  rw [State.completed, hwch, restoreSamples_wch]

theorem completed_mem (s : State) (count : Int) : (s.completed count).tst.mem = s.tst.mem := by
  obtain ⟨-, hoffer, -⟩ := offerReading_keepsRecords (restoreSamples (evaluateArrival (s.sampled count)))
  obtain ⟨-, -, -, -, hrestore⟩ := restoreSamples_keeps (evaluateArrival (s.sampled count))
  obtain ⟨-, -, -, -, -, heval, -⟩ := evaluateArrival_keeps (s.sampled count)
  rw [State.completed, hoffer, hrestore, heval]
  rfl

/-- The evaluation leaves room for the event of a restoration. -/
theorem evaluateArrival_room {s : State} (h : s.hpt.events.length < 26) (count : Int) :
    (evaluateArrival (s.sampled count)).hpt.events.length < 32 := by
  have hlength : (evaluateArrival (s.sampled count)).hpt.events.length ≤ s.hpt.events.length + 4 :=
    evaluateArrival_length _
  omega

/-- The arrival that completes the filter after a loss queues its restoration (R13). -/
theorem completed_restored {s : State} (h : s.wch.restorePending = true) (hroom : s.hpt.events.length < 26)
    (count : Int) : s.record .samplesRestored ∈ (s.completed count).hpt.events := by
  obtain ⟨-, htime, -, -, -, -, -, hpending⟩ := evaluateArrival_keeps (s.sampled count)
  obtain ⟨-, -, hrestored⟩ := restoreSamples_room (evaluateArrival_room hroom count)
  obtain ⟨-, -, hqueued⟩ := offerReading_keepsRecords (restoreSamples (evaluateArrival (s.sampled count)))
  rw [State.record, htime] at hrestored
  exact hqueued _ (hrestored (hpending.trans h))

/-- Without a reading the restoration is the last of the arrival. -/
theorem completed_unread {s : State} {count : Int} (hroom : s.hpt.events.length < 26)
    (h : s.cap.capture = .idle ∨ (evaluateArrival (s.sampled count)).wch.state ≠ .live
      ∨ (evaluateArrival (s.sampled count)).windowStable = false) :
    (s.completed count).hlm = (evaluateArrival (s.sampled count)).hlm
      ∧ (s.completed count).tst = (evaluateArrival (s.sampled count)).tst
      ∧ (s.completed count).cap = s.cap ∧ (s.completed count).lbl = s.lbl ∧ (s.completed count).lnk = s.lnk := by
  obtain ⟨-, -, hcap, hlbl, hlnk, -⟩ := evaluateArrival_keeps (s.sampled count)
  obtain ⟨⟨-, -, hstraps, -⟩, hcap', hlbl', hlnk', -⟩ := restoreSamples_keeps (evaluateArrival (s.sampled count))
  obtain ⟨hhlm, htst, -⟩ := restoreSamples_room (evaluateArrival_room hroom count)
  rw [State.completed, offerReading_none]
  · exact ⟨hhlm, htst, hcap'.trans hcap, hlbl'.trans hlbl, hlnk'.trans hlnk⟩
  · rw [hcap', hcap, State.windowStable, State.figures_eq hstraps, restoreSamples_wch]
    exact h

/-! ### The zero where it stands, the initial zero, and a tracking change -/

/-- The channel after a sample that finds the filter complete, the zero where it stood (R6 to R8, R16). -/
def State.arrived (s : State) (count : Int) : Weighing :=
  { (s.sampled count).weighed.wch with
    state := s.judged (s.sampled count).wch.grossNow
    trackCount := if s.wch.rate ≤ s.wch.trackCount + 1 then 0 else s.wch.trackCount + 1
    restorePending := false }

theorem completed_wch_stays {s : State} {count : Int} (hz : s.wch.zeroTaken = true)
    (h : s.wch.rate ≤ s.wch.trackCount + 1 → (s.sampled count).judgedArrival.mayTrack = true →
      s.wch.clamped (s.sampled count).wch.proposedZero = s.wch.zadj) : (s.completed count).wch = s.arrived count := by
  rw [completed_wch, evaluateArrival_stays (s := s.sampled count) hz h, counted_wch, judgedArrival_wch]
  rfl

theorem length_pushed (l : List Int) (v : Int) (n : Nat) : (pushed l v n).length = min (l.length + 1) n := by
  simp [pushed]
  omega

theorem getLast?_pushed (l : List Int) (v : Int) {n : Nat} (hn : 1 ≤ n) : (pushed l v n).getLast? = some v := by
  rw [pushed, List.drop_append_of_le_length (by omega), List.getLast?_concat]

theorem State.judged_eq {s : State} {g : Int} : (s.figures.overload < g → s.judged g = .over)
    ∧ (g < s.figures.underload → ¬s.figures.overload < g → s.judged g = .under) := by
  simp +contextual [State.judged]

theorem trackingChange_wch (zero : Int) (s : State) : (trackingChange zero s).wch =
    let g := { s.wch with zadj := zero }.grossNow
    { s.wch with zadj := zero, gross := some g, window := replaceNewest s.wch.window g, state := s.judged g } := by
  simp only [trackingChange, handZeroUse_keeps, enterState_wch]
  rfl

/-- A tracking change hands its zero-use figure (R14, R177). -/
theorem trackingChange_raw (zero : Int) (s : State) : (trackingChange zero s).hlm.attributes.zeroUse.raw =
    min (s.wch.zeroOffset zero).natAbs 65535 := by
  simp only [trackingChange, handZeroUse_raw, enterState_wch]
  rfl

theorem takeInitialZero_wch (s : State) : (takeInitialZero s).wch =
    let zero := s.wch.proposedZero
    let g := { s.wch with zadj := zero }.grossNow
    { s.wch with
      zeroTaken := true, zref := zero, zadj := zero, gross := some g, window := [g], state := s.judged g } := by
  simp only [takeInitialZero, handZeroUse_keeps, enterState_wch]
  rfl

/-- The initial zero stands at its reference, and nothing of the band is in use (R14, R15). -/
theorem takeInitialZero_raw (s : State) : (takeInitialZero s).hlm.attributes.zeroUse.raw = 0 := by
  simp only [takeInitialZero, handZeroUse_raw, enterState_wch]
  simp [Weighing.zeroUse, Weighing.zeroOffset, takeZero]

theorem evaluateArrival_moves {s : State} (hz : s.wch.zeroTaken = true) (hdue : s.wch.rate ≤ s.wch.trackCount)
    (hmay : s.judgedArrival.mayTrack = true) (hne : s.wch.clamped s.wch.proposedZero ≠ s.wch.zadj) :
    evaluateArrival s = trackingChange (s.wch.clamped s.wch.proposedZero) s.judgedArrival.counted := by
  have hwch := judgedArrival_wch s
  have hzero : s.judgedArrival.wch.clamped s.judgedArrival.wch.proposedZero = s.wch.clamped s.wch.proposedZero := by
    rw [hwch]
    rfl
  rw [evaluateArrival_taken hz, ← State.judgedArrival, trackingTest_moves _ hmay, hzero]
  · rw [hzero, hwch]
    exact hne
  · rw [hwch]
    exact hdue

/-- A state whose window is not stable may not track. -/
theorem trackingTest_unstable {s : State} (h : s.windowStable = false) : trackingTest s = s.counted :=
  trackingTest_stays fun _ hmay => by simp [State.mayTrack, h] at hmay

/-- One value alone is no full window of two or more. -/
theorem takeInitialZero_unstable {s : State} (hm : 2 ≤ s.wch.windowLength) :
    (takeInitialZero s).windowStable = false := by
  rw [Bool.eq_false_iff, State.windowStable, takeInitialZero_wch, ne_eq, windowStable_iff]
  rintro ⟨-, hlen, -⟩
  simp at hlen
  omega

/-- The window of an arrival judged by its length and spread (R4). -/
theorem weighed_windowStable {s : State} (hm : 1 ≤ s.wch.windowLength) : s.weighed.windowStable = true ↔
    s.weighed.wch.window.length = s.wch.windowLength
      ∧ ∀ x ∈ s.weighed.wch.window, ∀ y ∈ s.weighed.wch.window, x - y ≤ s.figures.spread :=
  windowStable_iff_full hm _

/-- Short of the conditions of the initial zero the station waits for it (R6, R15). -/
theorem evaluateArrival_zeroWait {s : State} (hz : s.wch.zeroTaken = false)
    (h : ¬(s.weighed.windowStable = true ∧ s.wch.grossNow.natAbs ≤ s.figures.initialBand)) :
    evaluateArrival s = State.counted { s.weighed with wch.state := .zeroWait } := by
  rw [evaluateArrival_waiting hz, if_neg h, enterState_quiet (by simp), trackingTest_stays]
  simp [State.mayTrack]

theorem evaluateArrival_initial {s : State} (hz : s.wch.zeroTaken = false) (hm : 2 ≤ s.wch.windowLength)
    (h : s.weighed.windowStable = true ∧ s.wch.grossNow.natAbs ≤ s.figures.initialBand) :
    evaluateArrival s = (takeInitialZero s.weighed).counted := by
  rw [evaluateArrival_waiting hz, if_pos h, trackingTest_unstable (takeInitialZero_unstable (s := s.weighed) hm)]

/-- Waiting for the initial zero (R6, R15). -/
theorem completed_zeroWait {s : State} {count : Int} (hz : s.wch.zeroTaken = false)
    (h : ¬((s.sampled count).weighed.windowStable = true
      ∧ (s.sampled count).wch.grossNow.natAbs ≤ s.figures.initialBand)) (hroom : s.hpt.events.length < 26) :
    (s.completed count).wch = { s.arrived count with state := .zeroWait } ∧ (s.completed count).cap = s.cap
      ∧ (s.completed count).lbl = s.lbl ∧ (s.completed count).lnk = s.lnk ∧ (s.completed count).tst = s.tst
      ∧ (s.completed count).hlm = s.hlm := by
  have heval := evaluateArrival_zeroWait (s := s.sampled count) hz h
  have hstate : (evaluateArrival (s.sampled count)).wch.state ≠ .live := by simp [heval, counted_wch]
  obtain ⟨hhlm, htst, hcap, hlbl, hlnk⟩ := completed_unread hroom (.inr (.inl hstate))
  rw [heval] at hhlm htst
  exact ⟨by rw [completed_wch, heval]; rfl, hcap, hlbl, hlnk, htst, hhlm⟩

/-- The initial zero taken (R15). -/
theorem completed_initial {s : State} {count : Int} (hz : s.wch.zeroTaken = false) (hm : 2 ≤ s.wch.windowLength)
    (h : (s.sampled count).weighed.windowStable = true
      ∧ (s.sampled count).wch.grossNow.natAbs ≤ s.figures.initialBand) (hroom : s.hpt.events.length < 26) :
    (s.completed count).wch =
        (let zero := (s.sampled count).wch.proposedZero
        let g := { (s.sampled count).wch with zadj := zero }.grossNow
        { s.arrived count with
          zeroTaken := true, zadj := zero, zref := zero, gross := some g, window := [g], state := s.judged g })
      ∧ (s.completed count).hlm.attributes.zeroUse.raw = 0 ∧ (s.completed count).cap = s.cap
      ∧ (s.completed count).lbl = s.lbl ∧ (s.completed count).lnk = s.lnk
      ∧ (s.completed count).tst.mem = s.tst.mem := by
  have heval := evaluateArrival_initial (s := s.sampled count) hz hm h
  have hunstable : (evaluateArrival (s.sampled count)).windowStable = false := by
    rw [heval, counted_windowStable, takeInitialZero_unstable (s := (s.sampled count).weighed) hm]
  obtain ⟨hhlm, -, hcap, hlbl, hlnk⟩ := completed_unread hroom (.inr (.inr hunstable))
  refine ⟨?_, ?_, hcap, hlbl, hlnk, completed_mem _ _⟩
  · rw [completed_wch, heval, counted_wch, takeInitialZero_wch]
    rfl
  · rw [hhlm, heval, counted_hlm, takeInitialZero_raw]

/-- The zero where it stood and no reading: the entry into the state is all that is reported (R7, R16). -/
theorem completed_hlm_stays {s : State} {count : Int} (hz : s.wch.zeroTaken = true)
    (h : s.wch.rate ≤ s.wch.trackCount + 1 → (s.sampled count).judgedArrival.mayTrack = true →
      s.wch.clamped (s.sampled count).wch.proposedZero = s.wch.zadj)
    (hidle : s.cap.capture = .idle) (hroom : s.hpt.events.length < 26) :
    (s.completed count).hlm = (s.sampled count).judgedArrival.hlm ∧ (s.completed count).cap = s.cap
      ∧ (s.completed count).lbl = s.lbl ∧ (s.completed count).lnk = s.lnk := by
  obtain ⟨hhlm, -, hrest⟩ := completed_unread (count := count) hroom (.inl hidle)
  rw [evaluateArrival_stays (s := s.sampled count) hz h] at hhlm
  exact ⟨hhlm, hrest⟩

theorem judgedArrival_zeroUse (s : State) :
    s.judgedArrival.hlm.attributes.zeroUse = s.hlm.attributes.zeroUse := enterState_zeroUse ..

/-- An arrival judged LIVE reports nothing. -/
theorem judgedArrival_hlm_live {s : State} (h : s.judged s.wch.grossNow = .live) : s.judgedArrival.hlm = s.hlm := by
  rw [State.judgedArrival, h, enterState_quiet (by simp)]
  rfl

/-- A tracking change at an arrival: the newest window value is replaced and the state re-judged (R16, R17). -/
theorem completed_wch_moves {s : State} {count : Int} (hz : s.wch.zeroTaken = true)
    (hdue : s.wch.rate ≤ s.wch.trackCount + 1) (hmay : (s.sampled count).judgedArrival.mayTrack = true)
    (hne : s.wch.clamped (s.sampled count).wch.proposedZero ≠ s.wch.zadj) : (s.completed count).wch =
      let zero := s.wch.clamped (s.sampled count).wch.proposedZero
      let g := { (s.sampled count).wch with zadj := zero }.grossNow
      { s.arrived count with
        zadj := zero, gross := some g, window := replaceNewest (s.arrived count).window g, state := s.judged g } := by
  have hjudged (g : Int) : (s.sampled count).judgedArrival.counted.judged g = s.judged g :=
    judgedArrival_judged (s.sampled count) g
  rw [completed_wch, evaluateArrival_moves (s := s.sampled count) hz hdue hmay hne, trackingChange_wch]
  simp only [hjudged, counted_wch, judgedArrival_wch]
  rfl

/-- What a tracking change reports (R14, R177). -/
theorem completed_raw_moves {s : State} {count : Int} (hz : s.wch.zeroTaken = true)
    (hdue : s.wch.rate ≤ s.wch.trackCount + 1) (hmay : (s.sampled count).judgedArrival.mayTrack = true)
    (hne : s.wch.clamped (s.sampled count).wch.proposedZero ≠ s.wch.zadj)
    (hidle : s.cap.capture = .idle) (hroom : s.hpt.events.length < 26) :
    (s.completed count).hlm.attributes.zeroUse.raw =
        min (s.wch.zeroOffset (s.wch.clamped (s.sampled count).wch.proposedZero)).natAbs 65535
      ∧ (s.completed count).cap = s.cap ∧ (s.completed count).lbl = s.lbl ∧ (s.completed count).lnk = s.lnk := by
  obtain ⟨hhlm, -, hrest⟩ := completed_unread (count := count) hroom (.inl hidle)
  rw [hhlm, evaluateArrival_moves (s := s.sampled count) hz hdue hmay hne, trackingChange_raw]
  rw [counted_wch, judgedArrival_wch]
  exact ⟨rfl, hrest⟩

/-- Settles O27: the zero taken and no test due; the restoration; the wait for the initial zero and the initial zero; a
tracking change; and a test that finds a condition unmet. -/
theorem completeFilterGivesTheState : Obligations.CompleteFilterGivesTheState := by
  refine ⟨?_, ?_⟩
  · intro v s hp hr hlow hhigh hn hlen hm hz hcount
    have hpush := pushed_full hlen hn v.toInt
    have hfull : (pushed s.wch.filter v.toInt s.wch.filterLength).length = s.wch.filterLength := by
      rw [length_pushed, hlen, min_eq_right (Nat.le_succ _)]
    refine ⟨_, exec_sampleArrival_complete hp hr hlow hhigh hfull, ?_⟩
    rw [completed_mem, completed_wch_stays hz fun hdue => absurd hdue (by omega)]
    refine ⟨hpush, rfl, ?_, (length_pushed ..).trans_le ?_, rfl, rfl, rfl, if_neg (by omega), rfl, rfl, rfl⟩
    · rintro g hg
      obtain rfl := Option.some.inj hg
      exact ⟨State.judged_eq.1, State.judged_eq.2, fun hu ho => (judged_live_iff ..).mpr ⟨hu, ho⟩,
        getLast?_pushed _ _ hm⟩
    · exact (min_le_right ..).trans (le_max_right ..)
  · rintro v s filter hp hr hlow hhigh rfl hfull - hroom
    have hexec := exec_sampleArrival_complete hp hr hlow hhigh hfull
    refine ⟨fun hrest => ⟨_, hexec, by rw [completed_wch], ?_, completed_restored hrest hroom _⟩, ?_⟩
    · obtain ⟨-, -, -, -, -, -, hfilter, -⟩ := evaluateArrival_keeps (s.sampled v.toInt)
      rw [completed_wch]
      exact hfilter
    intro g window hg hwindow hm w hw
    obtain rfl : g = (s.sampled v.toInt).wch.grossNow := hg
    obtain rfl : window = (s.sampled v.toInt).weighed.wch.window := hwindow
    obtain rfl : w = s.arrived v.toInt := hw
    have hm1 : 1 ≤ s.wch.windowLength := Nat.le_of_succ_le hm
    refine ⟨fun hz => ⟨fun hno => ?_, fun hlen hspread hband z g' hz' hg' => ?_⟩,
      fun hz htr htare hdue hu ho hwin hlen hspread p z g' hp' hz' hg' => ?_, fun hz hdue hno => ?_⟩
    · refine ⟨_, hexec, completed_zeroWait hz ?_ hroom⟩
      rw [weighed_windowStable (s := s.sampled v.toInt) hm1]
      rintro ⟨⟨hlen, hspread⟩, hband⟩
      rcases hno with h | ⟨x, hx, y, hy, h⟩ | h
      · exact h hlen
      · exact absurd (hspread x hx y hy) (not_le.mpr h)
      · exact absurd hband (not_le.mpr h)
    · obtain rfl : z = (s.sampled v.toInt).wch.proposedZero := hz'
      obtain rfl : g' = { (s.sampled v.toInt).wch with zadj := (s.sampled v.toInt).wch.proposedZero }.grossNow := hg'
      exact ⟨_, hexec, completed_initial hz hm
        ⟨(weighed_windowStable (s := s.sampled v.toInt) hm1).mpr ⟨hlen, hspread⟩, hband⟩ hroom⟩
    · have hmay := (judgedArrival_mayTrack (s := s.sampled v.toInt) hm1).mpr
        ⟨htr, hz, ⟨hu, ho⟩, htare, hwin, hlen, hspread⟩
      have hlive : (s.sampled v.toInt).judged (s.sampled v.toInt).wch.grossNow = .live :=
        (judged_live_iff ..).mpr ⟨hu, ho⟩
      obtain rfl : p = (s.sampled v.toInt).wch.proposedZero := hp'
      obtain rfl : z = s.wch.clamped (s.sampled v.toInt).wch.proposedZero := hz'
      obtain rfl : g' = { (s.sampled v.toInt).wch with
        zadj := s.wch.clamped (s.sampled v.toInt).wch.proposedZero }.grossNow := hg'
      refine ⟨_, hexec, ?_, completed_mem _ _, fun hidle => ?_⟩
      · split
        · next hstays => exact completed_wch_stays hz fun _ _ => hstays
        · next hmoves => exact completed_wch_moves hz hdue hmay hmoves
      · by_cases hstays : s.wch.clamped (s.sampled v.toInt).wch.proposedZero = s.wch.zadj
        · obtain ⟨hhlm, hrest⟩ := completed_hlm_stays hz (fun _ _ => hstays) hidle hroom
          exact ⟨fun hne => absurd hstays hne, fun _ => hhlm.trans (judgedArrival_hlm_live hlive), hrest⟩
        · obtain ⟨hraw, hrest⟩ := completed_raw_moves hz hdue hmay hstays hidle hroom
          exact ⟨fun _ => hraw, fun h => absurd h hstays, hrest⟩
    · have hmay : ¬(s.sampled v.toInt).judgedArrival.mayTrack = true := by
        rw [judgedArrival_mayTrack (s := s.sampled v.toInt) hm1]
        rintro ⟨htr, -, ⟨hu, ho⟩, htare, hwin, hlen, hspread⟩
        rcases hno with h | h | h | h | h | h | ⟨x, hx, y, hy, h⟩
        · exact absurd htr (by simp [State.sampled, restartWatchdog, h])
        · exact h htare
        · exact absurd hu (not_le.mpr h)
        · exact absurd ho (not_le.mpr h)
        · exact absurd hwin (not_le.mpr h)
        · exact h hlen
        · exact absurd (hspread x hx y hy) (not_le.mpr h)
      refine ⟨_, hexec, completed_wch_stays hz fun _ h => absurd h hmay, completed_mem _ _, fun hidle => ?_⟩
      obtain ⟨hhlm, hrest⟩ := completed_hlm_stays hz (fun _ h => absurd h hmay) hidle hroom
      rw [hhlm]
      exact ⟨judgedArrival_zeroUse (s.sampled v.toInt), hrest⟩

end Sys2Proof.Machine
end

section
/-! SUPPORT and the proof about the requests that read working values: their fields as the rules list them. -/

namespace Sys2Proof.Machine

/-! ### Numbers as the fields send them -/

theorem walkKind_number (k : WalkKind) : (k.number : Int) = match k with | .verify => 0 | .fresh => 1 := by
  cases k <;> rfl

theorem capture_number (c : Capture) :
    (c.number : Int) = match c with | .idle => 0 | .waiting .. => 1 | .held .. => 2 := by
  cases c <;> rfl

theorem linkState_number (l : LinkState) :
    (l.number : Int) = match l with | .off => 0 | .joining => 1 | .live => 2 | .silent => 3 := by
  cases l <;> rfl

theorem watchKind_number (k : WatchKind) : (k.number : Int) = match k with
    | .pluEqual => 0 | .deptEqual => 1 | .clerkEqual => 2 | .priceAtLeast => 3 | .weightAtLeast => 4 := by
  cases k <;> rfl

theorem action_number (a : WatchAction) : (a.number : Int) = match a with | .note => 0 | .hold => 1 := by
  cases a <;> rfl

theorem tareSource_number (t : TareSource) :
    (t.number : Int) = match t with | .plu => 0 | .station => 1 | .none => 2 := by
  cases t <;> rfl

/-- A request served by an owner that answers OK with the given fields. -/
theorem answers_of_serve {s : State} {i : Instr} {owner : State → State} {fields : List Field}
    {parts : List (List Field)} (ha : s.asked i) (hexec : exec i s = serve i owner s)
    (howner : owner s = answer .ok fields s) (hfields : fields = parts.flatten) : s.Answers i parts := by
  rw [State.Answers, hexec, serve_asked ha, howner, answer_eq, hfields]

/-! ### READ_STATUS, READ_ROSTER and READ_HEALTH -/

/-- The lockout is the one flag that the statements name (R178, R179). -/
theorem eq_lockedOut {s : State} {locked : Bool} (h : locked = true ↔ ∃ x,
    s.hlm.attributes.zeroUse.threshold = some x ∧ s.hlm.attributes.zeroUse.normalized ≤ x) : locked = s.lockedOut :=
  Bool.eq_iff_iff.mpr (h.trans (lockedOut_iff s).symm)

theorem statusFields_prep {s : State} (h : s.hpt.runState = .storePrep) :
    statusFields s = .num 1 0 :: (walkFields s.tst.walk ++ strapFields s.hpt.straps) := by
  simp [statusFields, h, RunState.number]

theorem rosterFields_eq (n : Nat) (e : RosterEntry) : rosterFields n e =
    [.num 1 n, .opt e.day.isSome [(2, (e.day.getD 0 : Nat))],
      .opt e.lockout.isSome [(1, if e.lockout = some true then 1 else 0)], .num 1 (e.age / 4000 : Nat)] := by
  unfold rosterFields Field.optional
  rcases e.lockout with _ | _ | _ <;> simp [unitsPerSecond]

theorem readStatus_answers {s : State} (ha : s.asked .readStatus) {parts : List (List Field)}
    (h : statusFields s = parts.flatten) : s.Answers .readStatus parts := answers_of_serve ha rfl rfl h

/-! ### READ_WEIGHT and READ_WATCHES -/

theorem weightFields_live {s : State} (h : s.wch.state = .live) : weightFields s =
    [.num 1 5, .flag s.windowStable, .flag s.wch.zeroTaken, .opt true [(4, s.wch.gross.getD 0)],
     .optional 3 s.wch.tare, .opt true [(4, s.wch.net (s.wch.gross.getD 0))],
     .opt true [(4, s.figures.display (s.wch.net (s.wch.gross.getD 0)))],
     .opt true [(1, (s.figures.interval (s.wch.net (s.wch.gross.getD 0)) : Nat))], .num 2 s.wch.zeroUse] := by
  simp [weightFields, h, WeighState.number, Field.present]

theorem weightFields_zeroWait {s : State} (h : s.wch.state = .zeroWait) : weightFields s =
    [.num 1 2, .flag s.windowStable, .flag s.wch.zeroTaken, .opt true [(4, s.wch.gross.getD 0)],
     .optional 3 s.wch.tare, .opt false [(4, 0)], .opt false [(4, 0)], .opt false [(1, 0)], .num 2 s.wch.zeroUse] := by
  simp [weightFields, h, WeighState.number, Field.present]

theorem weightFields_unweighed {s : State} (hlive : s.wch.state ≠ .live) (hwait : s.wch.state ≠ .zeroWait) :
    weightFields s =
      [.num 1 s.wch.state.number, .num 1 0, .flag s.wch.zeroTaken, .opt false [(4, 0)], .optional 3 s.wch.tare,
       .opt false [(4, 0)], .opt false [(4, 0)], .opt false [(1, 0)], .num 2 s.wch.zeroUse] := by
  simp [weightFields, hlive, hwait, Field.present, Field.flag]

theorem readWeight_answers {s : State} (ha : s.asked .readWeight) {parts : List (List Field)}
    (h : weightFields s = parts.flatten) : s.Answers .readWeight parts := answers_of_serve ha rfl rfl h

theorem readWatches_answers {s : State} (ha : s.asked .readWatches) {parts : List (List Field)}
    (h : watchFields s.cap = parts.flatten) : s.Answers .readWatches parts := answers_of_serve ha rfl rfl h

/-- A slot of READ_WATCHES, configured or not (R128). -/
theorem slotFields_eq (v : WatchSlot) : slotFields v =
    (match v.watch with
      | none => [.num 1 0, .opt false [(1, 0)], .opt false [(3, 0)], .opt false [(1, 0)], .opt false [(1, 0)]]
      | some w =>
        [.num 1 1,
         .opt true [(1, match w.kind with
           | .pluEqual => 0 | .deptEqual => 1 | .clerkEqual => 2 | .priceAtLeast => 3 | .weightAtLeast => 4)],
         .opt true [(3, (w.value : Nat))], .opt true [(1, match w.action with | .note => 0 | .hold => 1)],
         .opt true [(1, if w.enable then 1 else 0)]])
      ++ [.num 1 (if v.matched then 1 else 0), .num 3 v.serial] := by
  rcases v with ⟨_ | w, matched, serial⟩
  · rfl
  · simp only [slotFields, Option.map_some, Field.optional, Option.isSome_some, Option.getD_some, watchKind_number,
      action_number]
    cases w.enable <;> rfl

/-- The open-at-capture flag of an item with a clerk (R41, R128). -/
theorem openAtCapture_field (clerk : Nat) (atCapture : Bool) :
    Field.optional 1 (if clerk = 0 then none else some (if atCapture then 1 else 0)) =
      .opt (decide (clerk ≠ 0)) [(1, if clerk ≠ 0 ∧ atCapture = true then 1 else 0)] := by
  by_cases h : clerk = 0 <;> cases atCapture <;> simp [Field.optional, h]

/-- The held item with its measure, by weight or by count (R128). -/
theorem heldFields_eq (i : Item) (set : List Match) (timer : Nat) : heldFields i set timer = List.flatten
    [[.num 1 i.request.tag, .num 1 i.request.clerk, .num 3 i.request.plu, .num 1 i.request.dept],
      match i.measure with
      | .weight _ tare source _ w d =>
        [.num 1 0, .opt true [(2, w)], .opt true [(1, (d : Nat))], .opt false [(1, 0)],
         .opt true [(1, if tare.isSome then 1 else 0), (3, (tare.getD 0 : Nat)),
           (1, match source with | .plu => 0 | .station => 1 | .none => 2)]]
      | .count q =>
        [.num 1 1, .opt false [(2, 0)], .opt false [(1, 0)], .opt true [(1, (q : Nat))],
         .opt false [(1, 0), (3, 0), (1, 0)]],
      [.num 3 i.request.unitPrice, .num 3 i.price, .opt i.ticket.isSome [(2, (i.ticket.getD 0 : Nat))],
       .opt (decide (i.request.clerk ≠ 0)) [(1, if i.request.clerk ≠ 0 ∧ i.openAtCapture = true then 1 else 0)],
       .num 1 set.length],
      set.flatMap fun m =>
        [.num 1 m.slot, .num 1 (match m.action with | .note => 0 | .hold => 1), .num 1 (if m.enable then 1 else 0)],
      [.num 1 (timer / 4000 : Nat)]] := by
  simp only [heldFields, openAtCapture_field, action_number]
  cases i.measure with
  | weight gross tare source net w d =>
    simp only [measureFields, heldTareField, tareSource_number, List.flatten_cons, List.flatten_nil,
      List.append_assoc] <;> rfl
  | count q =>
    simp only [measureFields, heldTareField, List.flatten_cons, List.flatten_nil, List.append_assoc] <;> rfl

/-! ### READ_TICKETS and READ_ORDER -/

theorem ticketConfigFields_eq (c : Option TicketConfig) :
    [Field.optional 1 (c.map fun c => if c.untracked then 1 else 0), .optional 2 (c.map TicketConfig.wrap)] =
      match c with
      | none => [.opt false [(1, 0)], .opt false [(2, 0)]]
      | some c => [.opt true [(1, if c.untracked then 1 else 0)], .opt true [(2, (c.wrap : Nat))]] := by
  cases c with
  | none => rfl
  | some c => cases h : c.untracked <;> simp [Field.optional, h]

theorem ticketFields_eq (s : State) : ticketFields s =
    [.optional 1 (s.tkt.config.map fun c => if c.untracked then 1 else 0),
      .optional 2 (s.tkt.config.map TicketConfig.wrap)]
    ++ ([.num 2 s.tkt.issued, .num 2 s.tkt.called, servingField s.tkt.nowServing, .flag s.tkt.conflict,
      .num 1 s.tkt.waiting.length] ++ s.tkt.waiting.flatMap waitFields) := rfl

theorem lineFields_eq (l : Line) : lineFields l =
    [.num 1 l.number, .num 1 l.station, .num 3 l.serial, .num 3 l.plu, .num 1 l.dept,
      .num 1 (if l.byCount then 1 else 0), .opt (!l.byCount) [(2, if l.byCount then 0 else (l.measure : Nat))],
      .opt l.byCount [(1, if l.byCount then (l.measure : Nat) else 0)], .num 3 l.price,
      .num 1 (if l.voided then 1 else 0)] := by
  cases h : l.byCount <;> simp [lineFields, Field.flag, Field.optional, h]

theorem timerField_eq (timer : Option Nat) : Field.optional 4 (timer.map fun t => t / unitsPerSecond) =
    .opt timer.isSome [(4, (timer.getD 0 / 4000 : Nat))] := by
  cases timer <;> rfl

theorem linesAbsent_field (lines : Option (List Line)) :
    Field.flag lines.isNone = .num 1 (if lines = none then 1 else 0) := by
  cases lines <;> rfl

theorem exec_readOrder {s : State} {clerk : Byte} (ha : s.asked (.readOrder clerk)) :
    exec (.readOrder clerk) s = .next (readOrderOwner clerk s) := serve_asked ha

theorem readOrder_answers {s : State} {clerk : Byte} (ha : s.asked (.readOrder clerk)) (hlo : 1 ≤ clerk.toNat)
    (hhi : clerk.toNat ≤ 24) {parts : List (List Field)} (h : orderFields (s.order clerk.toNat) = parts.flatten) :
    s.Answers (.readOrder clerk) parts :=
  answers_of_serve (owner := readOrderOwner clerk) ha rfl (if_pos (decide_eq_true ⟨hlo, hhi⟩)) h

/-- Settles O21: each request is its owner's answer with the fields listed; the configuration, the measure of the held
item and the order are taken by their cases. -/
theorem readingRequestsChangeOnlyTheSlot : Obligations.ReadingRequestsChangeOnlyTheSlot := by
  refine ⟨fun s locked hl => ?_, ?_, ?_, ?_, ?_⟩
  · obtain rfl := eq_lockedOut hl
    refine ⟨fun ha => ⟨fun h => ?_, fun n hn => ?_⟩, fun ha r hr => ?_, fun ha h hh => ?_⟩
    · refine readStatus_answers ha ((statusFields_prep h).trans ?_)
      cases s.tst.walk with
      | none => rfl
      | some w => simp only [walkFields, walkKind_number] <;> rfl
    · refine readStatus_answers ha ?_
      rcases hn with ⟨h, rfl⟩ | ⟨h, rfl⟩ | ⟨h, rfl⟩ <;>
        simp only [statusFields, h, capture_number, linkState_number] <;> rfl
    · refine answers_of_serve ha rfl rfl ?_
      obtain rfl : r = s.roster := hr
      simp only [readRosterFields, rosterFields_eq, linkState_number, List.flatten_cons, List.flatten_nil,
        List.cons_append, List.nil_append, List.append_nil] <;> rfl
    · obtain rfl := hh
      exact answers_of_serve ha rfl rfl rfl
  · intro s g net e stable taken tare use ha hg hnet he hst htaken htare huse
    obtain rfl : stable = s.windowStable := Bool.eq_iff_iff.mpr (hst.trans (windowStable_iff ..).symm)
    obtain rfl : g = s.wch.gross.getD 0 := hg
    obtain rfl : net = s.wch.net (s.wch.gross.getD 0) := hnet
    have he' : s.figures.interval (s.wch.net (s.wch.gross.getD 0)) = e := by
      rw [he, Figures.interval, Figures.changePoint]
    refine ⟨fun h => ?_, fun h => ?_, fun n hn => ?_⟩
    · refine readWeight_answers ha ((weightFields_live h).trans ?_)
      rw [Figures.display, he', htaken, htare, huse]
      rfl
    · refine readWeight_answers ha ((weightFields_zeroWait h).trans ?_)
      rw [htaken, htare, huse]
      rfl
    · refine readWeight_answers ha ?_
      rw [htaken, htare, huse]
      rcases hn with ⟨h, rfl⟩ | ⟨h, rfl⟩ | ⟨h, rfl⟩ | ⟨h, rfl⟩ <;>
        rw [weightFields_unweighed (by simp [h]) (by simp [h]), h] <;> rfl
  · intro s slots ha hslots
    obtain rfl : slots = slotFields s.cap.slots.s0 ++ slotFields s.cap.slots.s1 ++ slotFields s.cap.slots.s2
        ++ slotFields s.cap.slots.s3 := by
      rw [hslots]
      simp only [slotFields_eq]
      simp <;> rfl
    refine ⟨fun h => ?_, fun r j n h => ?_, fun i set n h => ?_⟩
    · refine readWatches_answers ha ?_
      simp [watchFields, h, Capture.number]
    · refine readWatches_answers ha ?_
      simp [watchFields, h, Capture.number]
    · refine readWatches_answers ha ?_
      simp only [watchFields, h, heldFields_eq, Capture.number]
      simp only [List.flatten_cons, List.flatten_nil, List.append_assoc] <;> rfl
  · intro s ha
    refine answers_of_serve ha rfl rfl ?_
    rw [ticketFields_eq, ticketConfigFields_eq]
    simp only [List.flatten_cons, List.flatten_nil, List.append_nil] <;> rfl
  · intro s clerk ha
    refine ⟨fun h => ?_, fun hlo hhi => ⟨fun h => ?_, fun o lines h hlines => ?_⟩⟩
    · rw [exec_readOrder ha, readOrderOwner, if_neg]
      simp only [clerkInRange, within, decide_eq_true_eq]
      omega
    · exact readOrder_answers ha hlo hhi (by rw [h]; rfl)
    · subst hlines
      refine readOrder_answers ha hlo hhi ?_
      simp only [h, orderFields, timerField_eq, linesAbsent_field, funext lineFields_eq, List.flatten_cons,
        List.flatten_nil, List.append_nil] <;> rfl

end Sys2Proof.Machine
end

section
/-! SUPPORT. What a close start adds to: after its day has moved, the answer to the host, the capture unit, the day and
the latch stay, and what was queued for the host or handed to the store stays in front. -/

namespace Sys2Proof.Machine

/-! ### What was queued or handed stays in front -/

section
variable {es : List EventRecord} {ops : List Op} {s : State}

@[simp] theorem isPrefix_hand (h : ops <+: s.tst.ops) (op : Op) : ops <+: (hand op s).tst.ops :=
  h.trans ⟨_, rfl⟩

@[simp] theorem isPrefix_post (h : ops <+: s.tst.ops) (l : List (Nat × Nat)) : ops <+: (post l s).tst.ops :=
  isPrefix_hand h _

@[simp] theorem isPrefix_recordFault (h : ops <+: s.tst.ops) (k : FaultKind) : ops <+: (recordFault k s).tst.ops :=
  h.trans ⟨_, rfl⟩

@[simp] theorem isPrefix_placeLabel (h : ops <+: s.tst.ops) (clerk : Nat) (b : LabelBody) :
    ops <+: (placeLabel clerk b s).tst.ops :=
  h.trans ⟨_, rfl⟩

@[simp] theorem isPrefix_queueEvent (h : ops <+: s.tst.ops) (e : Event) : ops <+: (queueEvent e s).tst.ops := by
  unfold queueEvent
  split <;> simp [h]

@[simp] theorem isPrefix_queueEvent_events (h : es <+: s.hpt.events) (e : Event) :
    es <+: (queueEvent e s).hpt.events := by
  unfold queueEvent
  split
  · exact h.trans ⟨_, rfl⟩
  · simp [h]

@[simp] theorem isPrefix_moveAttribute (h : ops <+: s.tst.ops) (a : Attribute) (raw : Nat) :
    ops <+: (moveAttribute a raw s).tst.ops := by
  obtain ⟨more, hmore⟩ := Appends.moveAttribute a raw s
  exact h.trans ⟨more, hmore.symm⟩

@[simp] theorem isPrefix_moveAttribute_events (h : es <+: s.hpt.events) (a : Attribute) (raw : Nat) :
    es <+: (moveAttribute a raw s).hpt.events := by
  unfold moveAttribute
  dsimp only
  split
  · exact h
  · split <;> simp [h]

@[simp] theorem isPrefix_raiseMismatch (h : ops <+: s.tst.ops) (k : MismatchKind) (clerk ticket : Option Nat) :
    ops <+: (raiseMismatch k clerk ticket s).tst.ops := by
  simp [raiseMismatch, raiseAttribute, h]

@[simp] theorem isPrefix_raiseMismatch_events (h : es <+: s.hpt.events) (k : MismatchKind) (clerk ticket : Option Nat) :
    es <+: (raiseMismatch k clerk ticket s).hpt.events := by
  simp [raiseMismatch, raiseAttribute, h]

@[simp] theorem isPrefix_completeOwn (h : ops <+: s.tst.ops) (own : Option TxFrame) (code : ResultCode)
    (ticket : Option Nat) : ops <+: (completeOwn own code ticket s).tst.ops := by
  unfold completeOwn
  split <;> simp [completeRequest, h]

@[simp] theorem isPrefix_completeOwn_events (h : es <+: s.hpt.events) (own : Option TxFrame) (code : ResultCode)
    (ticket : Option Nat) : es <+: (completeOwn own code ticket s).hpt.events := by
  unfold completeOwn
  split <;> simp [completeRequest, h]

end

/-- The answer to the host, the capture unit, the business day and the latch are the same, and what was queued for the
host or handed to the store is there, in front. -/
@[simp] abbrev State.AddsTo (t s : State) : Prop :=
  t.hpt.slot = s.hpt.slot ∧ t.cap = s.cap ∧ t.day.day = s.day.day ∧ t.day.latch = s.day.latch
    ∧ s.hpt.events <+: t.hpt.events ∧ s.tst.ops <+: t.tst.ops

theorem State.AddsTo.trans {s t u : State} (h : t.AddsTo s) (g : u.AddsTo t) : u.AddsTo s := by
  obtain ⟨hslot, hcap, hday, hlatch, hev, hops⟩ := h
  obtain ⟨hslot', hcap', hday', hlatch', hev', hops'⟩ := g
  exact ⟨hslot'.trans hslot, hcap'.trans hcap, hday'.trans hday, hlatch'.trans hlatch, hev.trans hev', hops.trans hops'⟩

theorem foldl_addsTo {α : Type} (f : State → α → State) (hf : ∀ s a, (f s a).AddsTo s) (l : List α) (s : State) :
    (l.foldl f s).AddsTo s := by
  induction l generalizing s with
  | nil => simp
  | cons a l ih => exact (hf s a).trans (ih (f s a))

/-! ### A close start -/

theorem bindCall_addsTo (origin ticket clerk : Nat) (atSender : Bool) (s : State) :
    (bindCall origin ticket clerk atSender s).AddsTo s := by
  unfold bindCall
  split
  · simp
  · dsimp only
    split
    · simp
    · split <;> simp [postNoSale]

theorem passOrder_addsTo (origin ticket clerk : Nat) (s : State) : (passOrder origin ticket clerk s).AddsTo s := by
  unfold passOrder
  split
  · simp
  · dsimp only
    split
    · simp
    · split <;> simp

theorem listTicket_addsTo (e : WaitEntry) (duplicate bound : MismatchKind) (s : State) :
    (listTicket e duplicate bound s).AddsTo s := by
  unfold listTicket
  split
  · simp
  · split
    · simp
    · split <;> simp

theorem applyIssue_addsTo (origin : Nat) (p : IssuePayload) (own : Option TxFrame) (s : State) :
    (applyIssue origin p own s).AddsTo s := by
  unfold applyIssue
  extract_lets n tickets s1 s2
  have h : s2.AddsTo s := by
    unfold s2
    split
    · simp [s1]
    · exact State.AddsTo.trans (t := s1) (by simp [s1]) (listTicket_addsTo ..)
  exact h.trans (by simp)

theorem applyCall_addsTo (origin : Nat) (p : TicketPayload) (own : Option TxFrame) (s : State) :
    (applyCall origin p own s).AddsTo s := by
  unfold applyCall
  extract_lets n clerk kept s1 tickets s2 s3
  have h : s1.AddsTo s := by
    unfold s1
    split
    · simp
    · split <;> simp
  have h' : s3.AddsTo s1 := by simp [s3, s2]
  exact ((h.trans h').trans (bindCall_addsTo origin n clerk own.isSome s3)).trans (by simp)

theorem endTicket_addsTo (own : Option TxFrame) (s : State) : (endTicket own s).AddsTo s := by
  unfold endTicket
  split <;> simp [postNoSale]

theorem requeue_addsTo (ticket passes : Nat) (own : Option TxFrame) (s : State) :
    (requeue ticket passes own s).AddsTo s := by
  unfold requeue
  dsimp only
  split
  · exact endTicket_addsTo own s
  · split
    · exact listTicket_addsTo ..
    · split
      · exact (listTicket_addsTo ..).trans (endTicket_addsTo own _)
      · exact listTicket_addsTo ..

theorem applyPass_addsTo (origin : Nat) (p : TicketPayload) (own : Option TxFrame) (s : State) :
    (applyPass origin p own s).AddsTo s := by
  unfold applyPass
  extract_lets n clerk s1 passes tickets s2 s3
  have h : s2.AddsTo s := State.AddsTo.trans (passOrder_addsTo origin n clerk s) (by simp [s2, s1])
  have h' : s3.AddsTo s2 := by
    unfold s3
    split
    · simp
    · exact requeue_addsTo ..
  exact (h.trans h').trans (by simp)

theorem applyItem_addsTo (origin : Nat) (p : ItemPayload) (s : State) : (applyItem origin p s).AddsTo s := by
  unfold applyItem
  split
  · unfold openByItem
    dsimp only
    split <;> simp
  · unfold addItem
    dsimp only
    split
    · simp
    · split <;> simp

theorem fillReservation_addsTo (clerk : Nat) (b : LabelBody) (s : State) : (fillReservation clerk b s).AddsTo s := by
  simp [fillReservation]

theorem applyVoid_addsTo (origin : Nat) (p : VoidPayload) (own : Option TxFrame) (s : State) :
    (applyVoid origin p own s).AddsTo s := by
  unfold applyVoid
  extract_lets clerk s'
  have h : s'.AddsTo s := by
    unfold s'
    split
    · simp
    · dsimp only
      split <;> simp
  split
  · exact (h.trans (fillReservation_addsTo clerk (.void p.line.toNat p.price.toNat) s')).trans (by simp [postVoid])
  · exact h

theorem applyTxClose_addsTo (p : TxClosePayload) (own : Option TxFrame) (s : State) :
    (applyTxClose p own s).AddsTo s := by
  unfold applyTxClose
  extract_lets clerk s'
  split
  · split <;> simp [s']
  · next o ho =>
    extract_lets s1
    have h : s1.AddsTo s := by
      unfold s1
      split <;> simp
    split
    · exact (h.trans (fillReservation_addsTo clerk (.total o.ticket p.items.toNat p.amount.toNat o.listing) s1)).trans
        (by simp [postCustomer])
    · exact h.trans (by simp)

theorem applyTxCancel_addsTo (p : TxCancelPayload) (own : Option TxFrame) (s : State) :
    (applyTxCancel p own s).AddsTo s := by
  unfold applyTxCancel
  dsimp only
  split
  · simp
  · split <;> simp [postCancel]

theorem applyDayFrame_addsTo (f : Frame) (own : Option TxFrame) (s : State) : (applyDayFrame f own s).AddsTo s := by
  unfold applyDayFrame
  dsimp only
  cases f.payload with
  | call p => exact applyCall_addsTo ..
  | issue p => exact applyIssue_addsTo ..
  | pass p => exact applyPass_addsTo ..
  | txClose p => exact applyTxClose_addsTo ..
  | txCancel p => exact applyTxCancel_addsTo ..
  | voidLine p => exact applyVoid_addsTo ..
  | item p => exact applyItem_addsTo ..
  | _ => simp

theorem lateItem_addsTo (f : ItemFrame) (reason : LateReason) (s : State) : (lateItem f reason s).AddsTo s :=
  State.AddsTo.trans (t := postUnattached f.price s) (by simp [postUnattached]) (by simp [lateItem])

theorem endFrame_addsTo (f : TxFrame) (e : FrameEnd) (s : State) : (endFrame f e s).AddsTo s := by
  cases f with
  | cancelExpiry =>
    unfold endFrame
    dsimp only
    split <;> simp
  | item =>
    unfold endFrame
    dsimp only
    split
    · simp
    · exact lateItem_addsTo ..
  | _ => simp [endFrame, completeRequest]

theorem removeDayFrames_addsTo (s : State) : (removeDayFrames s).AddsTo s := by
  unfold removeDayFrames
  extract_lets removed s1 lnk s2
  have h : s2.AddsTo s := by
    unfold s2 s1 withdrawHead
    split
    · simp
    · split <;> simp
  exact h.trans (foldl_addsTo _ (fun s f => endFrame_addsTo f .dayClosed s) removed s2)

theorem clearDayScoped_addsTo (s : State) : (clearDayScoped s).AddsTo s :=
  foldl_addsTo (fun acc a => moveAttribute a 0 acc) (by simp) dayScoped s

theorem applyDeferredFrame_addsTo (s : State) (f : Frame) : (applyDeferredFrame s f).AddsTo s := by
  unfold applyDeferredFrame
  dsimp only
  split
  · exact State.AddsTo.trans (t := refreshRoster f.origin.toNat s) (by simp) (applyDayFrame_addsTo ..)
  · simp

theorem applyDeferred_addsTo (s : State) : (applyDeferred s).AddsTo s := by
  unfold applyDeferred
  exact State.AddsTo.trans (by simp) (foldl_addsTo _ applyDeferredFrame_addsTo s.day.deferred _)

theorem restartSerials_addsTo (s : State) : (restartSerials s).AddsTo s := by simp [restartSerials]

theorem handCopy_addsTo (closed : Nat) (c : LatchedClose) (s : State) : (handCopy closed c s).AddsTo s := by
  simp [handCopy]

theorem settleBehind_addsTo (s : State) : (settleBehind s).AddsTo s := by simp [settleBehind_eq]

/-- After step 1 a close start adds to what the day's move leaves (R167). -/
theorem startClose_addsTo (c : LatchedClose) (s : State) : (startClose c s).AddsTo (moveDay c.newDay s) := by
  have hemptied : (freeAllOrders (emptyTicketView (moveDay c.newDay s))).AddsTo (moveDay c.newDay s) := by simp
  unfold startClose
  extract_lets closed
  have hcleared := ((hemptied.trans (removeDayFrames_addsTo _)).trans (restartSerials_addsTo _)).trans
    (clearDayScoped_addsTo _)
  exact ((hcleared.trans (handCopy_addsTo closed c _)).trans (settleBehind_addsTo _)).trans (applyDeferred_addsTo _)

end Sys2Proof.Machine
end

section
/-! SUPPORT and the proof about prices: the capture unit coming to IDLE, the steps of a posting, and the rounding. -/

namespace Sys2Proof.Machine

/-! ### The capture unit comes to IDLE -/

/-- The capture unit in IDLE (R25). -/
def State.idled (s : State) : State := { s with cap.capture := .idle }

theorem becomeIdle_quiet {s : State} (h : s.day.latch = none) : becomeIdle s = s.idled := by
  simp [becomeIdle, startLatched, State.idled, h]

/-- A latched close starts, and adds to what the move of its day leaves (R165, R167). -/
theorem becomeIdle_latched {s : State} {c : LatchedClose} (h : s.day.latch = some c) :
    (becomeIdle s).AddsTo (moveDay c.newDay s.idled) := by
  have hstarts : becomeIdle s = startClose c s.idled := by
    simp [becomeIdle, startLatched, State.idled, h]
  rw [hstarts]
  exact startClose_addsTo c s.idled

theorem isPrefix_becomeIdle {ops : List Op} {s : State} (h : ops <+: s.tst.ops) : ops <+: (becomeIdle s).tst.ops := by
  cases hl : s.day.latch with
  | none => rwa [becomeIdle_quiet hl]
  | some c =>
    obtain ⟨-, -, -, -, -, hops⟩ := becomeIdle_latched hl
    exact (isPrefix_hand h _).trans hops

/-! ### The steps of a posting -/

theorem offerItem_addsTo (i : Item) (serial : Nat) (s : State) : (offerItem i serial s).AddsTo s := by
  unfold offerItem
  split
  · simp
  · split
    · simp
    · exact lateItem_addsTo ..

/-- The label of a posting placed, its totals posted and the serial written back (R42, R119). -/
def State.posted (i : Item) (set : List Match) (s : State) : State :=
  { hand (.itemPosting i.request.dept i.price i.measure.weight?) (placeLabel i.request.clerk (.item i) s) with
    cap.slots := writeSerials set s.lbl.nextSerial s.cap.slots }

/-- A posting before its ITEM frame is offered: the WATCH_NOTE events are queued (R121). -/
def State.noted (i : Item) (set : List Match) (s : State) : State :=
  (noteSlots set).foldl (fun acc k => queueEvent (.watchNote k s.lbl.nextSerial) acc) (s.posted i set)

theorem postItem_eq (i : Item) (set : List Match) (s : State) : postItem i set s =
    becomeIdle (queueEvent (.captureDone i.request.tag .ok s.lbl.nextSerial)
      (offerItem i s.lbl.nextSerial (s.noted i set))) := rfl

theorem noted_addsTo (i : Item) (set : List Match) (s : State) : (s.noted i set).AddsTo (s.posted i set) :=
  foldl_addsTo (fun acc k => queueEvent (.watchNote k s.lbl.nextSerial) acc) (by simp) (noteSlots set) _

theorem itemPosting_mem_postItem (i : Item) (set : List Match) (s : State) :
    .itemPosting i.request.dept i.price i.measure.weight? ∈ (postItem i set s).tst.ops := by
  obtain ⟨-, -, -, -, -, hops⟩ := (noted_addsTo i set s).trans (offerItem_addsTo i s.lbl.nextSerial _)
  have hposted : .itemPosting i.request.dept i.price i.measure.weight? ∈ (s.posted i set).tst.ops := by
    simp [State.posted]
  rw [postItem_eq]
  exact (isPrefix_becomeIdle (isPrefix_queueEvent hops _)).subset hposted

/-! ### The price -/

theorem roundPrice_nearest (p : Nat) {r : Nat} (h : 1 ≤ r) :
    2 * roundPrice p r ≤ 2 * p + r ∧ 2 * p < 2 * roundPrice p r + r := by
  have hdiv := Nat.div_add_mod (2 * p + r) (2 * r)
  have hmod := Nat.mod_lt (2 * p + r) (show 0 < 2 * r by omega)
  rw [Nat.mul_assoc] at hdiv
  unfold roundPrice
  omega

/-- Settles O32: the rounded price lies within half a unit by the division with remainder, and the posting handed before
the ITEM frame is offered stays listed whatever follows. -/
theorem priceIsTheNearestMultiple : Obligations.PriceIsTheNearestMultiple := by
  refine ⟨fun p r hr => ?_, fun q m s => ⟨rfl, ?_⟩, fun i set serial s => ⟨itemPosting_mem_postItem i set s, rfl⟩⟩
  · obtain ⟨hle, hlt⟩ := roundPrice_nearest p hr
    refine ⟨Nat.dvd_mul_right .., hle, hlt, rfl, ?_⟩
    unfold roundPrice
    omega
  · cases m <;> rfl

end Sys2Proof.Machine
end

section
/-! SUPPORT and the proof about a waiting capture that ends: its report, the unit in IDLE, and a latched close. -/

namespace Sys2Proof.Machine

/-! ### The end of a capture -/

/-- The report of a capture that ends with a result other than OK, before the unit is IDLE (R33, R45). -/
def State.reported (tag : Nat) (result : ResultCode) (s : State) : State :=
  queueEvent (.captureDone tag result 0) (if result = .motion then raiseAttribute .motionTimeouts 1 s else s)

theorem endCapture_eq (tag : Nat) (result : ResultCode) (s : State) :
    endCapture tag result s = becomeIdle (s.reported tag result) := rfl

/-- Any result but MOTION is reported by its event alone. -/
theorem reported_plain {result : ResultCode} {s : State} (hr : result ≠ .motion) (hroom : s.hpt.events.length < 32)
    (tag : Nat) : s.reported tag result =
      { s with hpt.events := s.hpt.events ++ [s.record (.captureDone tag result 0)] } := by
  rw [State.reported, if_neg hr, queueEvent_room hroom]
  rfl

/-- A report leaves the other units. -/
theorem reported_keeps (tag : Nat) (result : ResultCode) (s : State) :
    (s.reported tag result).wch = s.wch ∧ (s.reported tag result).cap = s.cap ∧ (s.reported tag result).lbl = s.lbl
      ∧ (s.reported tag result).lnk = s.lnk ∧ (s.reported tag result).tkt = s.tkt ∧ (s.reported tag result).clt = s.clt
      ∧ (s.reported tag result).day = s.day ∧ (s.reported tag result).tst.mem = s.tst.mem := by
  unfold State.reported
  split <;> simp

/-- With room the report's event is queued. -/
theorem reported_mem {s : State} (hroom : s.hpt.events.length < 31) (tag : Nat) (result : ResultCode) :
    s.record (.captureDone tag result 0) ∈ (s.reported tag result).hpt.events := by
  unfold State.reported
  split
  · have hlength : (raiseAttribute .motionTimeouts 1 s).hpt.events.length ≤ s.hpt.events.length + 1 :=
      moveAttribute_length ..
    rw [queueEvent_room (by omega)]
    simp [State.record]
  · rw [queueEvent_room (by omega)]
    simp [State.record]

/-- MOTION is one motion timeout, any other result none (R45, R177). -/
theorem reported_motionTimeouts (tag : Nat) (result : ResultCode) (s : State) :
    (s.reported tag result).hlm.attributes.motionTimeouts.raw =
      if result = .motion then min (s.hlm.attributes.motionTimeouts.raw + 1) 65535
      else s.hlm.attributes.motionTimeouts.raw := by
  unfold State.reported
  rw [queueEvent_attributes]
  split
  · exact moveAttribute_raw .motionTimeouts _ s
  · rfl

/-- All that a report of MOTION does to MOTION_TIMEOUTS (R176 to R178). -/
theorem reported_moves (tag : Nat) (s : State) :
    s.Moves (s.reported tag .motion) .motionTimeouts (s.hlm.attributes.motionTimeouts.raw + 1) := by
  have hmoves := moveAttribute_moves .motionTimeouts (s.hlm.attributes.motionTimeouts.raw + 1) s
  unfold State.reported
  rw [if_pos rfl, State.Moves, queueEvent_attributes]
  obtain ⟨hsame, hmoved⟩ := hmoves
  refine ⟨hsame, fun h => ?_⟩
  obtain ⟨hraw, hnormal, hworst, hthreshold, hlow, hevent⟩ := hmoved h
  exact ⟨hraw, hnormal, hworst, hthreshold, hlow, fun hl hc hroom => mem_queueEvent (hevent hl hc hroom) _⟩

theorem endCapture_quiet {s : State} (h : s.day.latch = none) (tag : Nat) (result : ResultCode) :
    endCapture tag result s = (s.reported tag result).idled := by
  obtain ⟨-, -, -, -, -, -, hday, -⟩ := reported_keeps tag result s
  rw [endCapture_eq, becomeIdle_quiet (by rw [hday, h])]

/-- With a close latched the unit comes to IDLE and the latch's day begins, after the report (R165). -/
theorem endCapture_latched {s : State} {c : LatchedClose} (h : s.day.latch = some c) (tag : Nat) (result : ResultCode) :
    (endCapture tag result s).hpt.slot = (s.reported tag result).hpt.slot
      ∧ (s.reported tag result).hpt.events <+: (endCapture tag result s).hpt.events
      ∧ (endCapture tag result s).cap = { s.cap with capture := .idle }
      ∧ (endCapture tag result s).day.day = c.newDay ∧ (endCapture tag result s).day.latch = none := by
  obtain ⟨-, hcap, -, -, -, -, hday, -⟩ := reported_keeps tag result s
  obtain ⟨hslot, hcap', hday', hlatch', hevents, -⟩ := becomeIdle_latched (s := s.reported tag result) (by rw [hday, h])
  rw [endCapture_eq]
  refine ⟨hslot, hevents, hcap'.trans ?_, hday', hlatch'⟩
  simp [moveDay, hand, State.idled, hcap]

/-! ### ABORT_CAPTURE and CAPTURE_TIMER_EXPIRY -/

theorem exec_abortCapture {s : State} (h : s.asked .abortCapture) :
    exec .abortCapture s = .next (abortCaptureOwner s) := serve_asked h

theorem exec_abortCapture_wrongState {s : State} (ha : s.asked .abortCapture) (h : s.hpt.runState ≠ .running) :
    exec .abortCapture s = .next (refuse .wrongState s) := by
  simp [exec_abortCapture ha, abortCaptureOwner, State.notRunning, h]

theorem exec_abortCapture_idle {s : State} (ha : s.asked .abortCapture) (hrun : s.hpt.runState = .running)
    (h : s.cap.capture = .idle) : exec .abortCapture s = .next (refuse .notHeld s) := by
  simp [exec_abortCapture ha, abortCaptureOwner, State.notRunning, hrun, h]

theorem exec_abortCapture_held {s : State} {i : Item} {set : List Match} {n : Nat} (ha : s.asked .abortCapture)
    (hrun : s.hpt.runState = .running) (h : s.cap.capture = .held i set n) :
    exec .abortCapture s = .next (refuse .wrongState s) := by
  simp [exec_abortCapture ha, abortCaptureOwner, State.notRunning, hrun, h]

theorem exec_abortCapture_waiting {s : State} {r : CaptureRequest} {j : StableJudgement} {n : Nat}
    (ha : s.asked .abortCapture) (hrun : s.hpt.runState = .running) (h : s.cap.capture = .waiting r j n) :
    exec .abortCapture s = .next (endCapture r.tag .aborted (answer .ok [] s)) := by
  simp [exec_abortCapture ha, abortCaptureOwner, State.notRunning, hrun, h]

theorem exec_captureTimerExpiry {s : State} {r : CaptureRequest} {j : StableJudgement} {n : Nat}
    (h : s.cap.capture = .waiting r j n) :
    exec .captureTimerExpiry s = .next (endCapture r.tag (timeoutResult s.wch j) s) := by
  simp [exec, execCaptureTimerExpiry, h]

/-- Table 2-4. -/
theorem timeoutResult_eq (w : Weighing) (j : StableJudgement) : timeoutResult w j =
    (if w.state = .sampleLost then .sampleLost
     else if w.zeroTaken = false then .notZeroed
     else if w.state = .over ∨ j = .aboveMax then .over
     else if w.state = .under ∨ j = .belowMin then .underMin
     else .motion) := by
  simp only [timeoutResult, Bool.not_eq_true']

/-- Settles O35: both commands end the capture by its report; without a latched close the unit is then IDLE, with one
the latch's day begins. -/
theorem waitingCaptureEnds : Obligations.WaitingCaptureEnds := by
  refine ⟨fun s r j n hw hlatch hroom => ⟨fun ha hrun => ?_, ?_⟩,
    fun s r j n c code hw hlatch hroom => ⟨fun ha hrun => ?_, fun hcode => ?_⟩,
    fun s ha => ⟨exec_abortCapture_wrongState ha, exec_abortCapture_idle ha, fun hrun ⟨_, _, _, hheld⟩ =>
      exec_abortCapture_held ha hrun hheld⟩⟩
  · rw [exec_abortCapture_waiting ha hrun hw, endCapture_quiet (by exact hlatch),
      reported_plain (s := answer .ok [] s) (result := .aborted) (by decide) (Nat.lt_succ_of_lt hroom)]
    rfl
  · obtain ⟨hwch, hcap, hlbl, hlnk, htkt, hclt, hday, hmem⟩ := reported_keeps r.tag (timeoutResult s.wch j) s
    refine ⟨_, timeoutResult s.wch j, exec_captureTimerExpiry hw, timeoutResult_eq s.wch j, ?_⟩
    rw [endCapture_quiet hlatch]
    refine ⟨reported_mem hroom r.tag _, ?_, reported_motionTimeouts r.tag _ s, fun hm => ?_, hwch, hlbl, hlnk, htkt,
      hclt, hday, hmem⟩
    · rw [State.idled, hcap]
    · rw [hm]
      exact reported_moves r.tag s
  · obtain ⟨hslot, hevents, hrest⟩ := endCapture_latched (s := answer .ok [] s) hlatch r.tag .aborted
    rw [reported_plain (s := answer .ok [] s) (result := .aborted) (by decide) (Nat.lt_succ_of_lt hroom)]
      at hslot hevents
    exact ⟨_, exec_abortCapture_waiting ha hrun hw, hslot, hevents, hrest⟩
  · obtain ⟨-, hevents, hrest⟩ := endCapture_latched hlatch r.tag code
    rw [← timeoutResult_eq] at hcode
    subst hcode
    exact ⟨_, exec_captureTimerExpiry hw, hevents.subset (reported_mem hroom r.tag _), hrest⟩

end Sys2Proof.Machine
end

section
/-! SUPPORT. What the completion of an item leaves: the watch slots, the item held back, ended without a label place, or
posted with its ITEM frame queued or late. -/

namespace Sys2Proof.Machine

/-! ### Matching watches -/

/-- The members of a matching set that pass a test on their action and enable flag, by their slots (R118). -/
theorem matchingSet_filter_slots (w : WatchSlots) (i : Item) (test : WatchAction → Bool → Bool) :
    ((matchingSet w i).filter fun m => test m.action m.enable).map Match.slot =
      (List.range 4).filter fun k => (w.get k).watch.any fun x => x.holds i && test x.action x.enable := by
  unfold matchingSet
  induction List.range 4 with
  | nil => rfl
  | cons k l ih =>
    cases hk : (w.get k).watch with
    | none => simp [hk, ih]
    | some x => cases hx : x.holds i <;> cases ht : test x.action x.enable <;> simp [hk, hx, ht, ih]

theorem matchingSet_slots (s : State) (i : Item) :
    (matchingSet s.cap.slots i).map Match.slot = (List.range 4).filter (s.watchMatches i) := by
  have h := matchingSet_filter_slots s.cap.slots i fun _ _ => true
  simp only [List.filter_true, Bool.and_true] at h
  exact h

theorem holdSlots_matchingSet (s : State) (i : Item) :
    holdSlots (matchingSet s.cap.slots i) = (List.range 4).filter (s.watchActs i .hold) := by
  have h := matchingSet_filter_slots s.cap.slots i fun a e => e && decide (a = .hold)
  simp only [← Bool.and_assoc] at h
  exact h

theorem noteSlots_matchingSet (s : State) (i : Item) :
    noteSlots (matchingSet s.cap.slots i) = (List.range 4).filter (s.watchActs i .note) := by
  have h := matchingSet_filter_slots s.cap.slots i fun a e => e && decide (a = .note)
  simp only [← Bool.and_assoc] at h
  exact h

/-- A member of a matching set has the action and the enable flag of its slot's watch (R118). -/
theorem mem_matchingSet {w : WatchSlots} {i : Item} {m : Match} (h : m ∈ matchingSet w i) :
    ∃ x, (w.get m.slot).watch = some x ∧ m.action = x.action ∧ m.enable = x.enable := by
  obtain ⟨k, -, hk⟩ := List.mem_filterMap.mp h
  split at hk
  · cases hk
  · next x hx =>
    split at hk
    · cases hk
      exact ⟨x, hx, rfl, rfl⟩
    · cases hk

/-- An item is held back when its matching set has an enabled HOLD slot (R121, R122). -/
theorem heldBack_iff (s : State) (i : Item) : s.heldBack i = true ↔ holdSlots (matchingSet s.cap.slots i) ≠ [] := by
  rw [holdSlots_matchingSet, State.heldBack, List.any_eq_true]
  simp [List.filter_eq_nil_iff]

theorem get_update (w : WatchSlots) (f : Nat → WatchSlot → WatchSlot) {k : Nat} (hk : k < 4) :
    (w.update f).get k = f k (w.get k) := by
  interval_cases k <;> rfl

theorem matches_eq (s : State) (i : Item) (k : Nat) : (s.cap.slots.get k).matches i = s.watchMatches i k := by
  unfold WatchSlot.matches State.watchMatches
  cases (s.cap.slots.get k).watch <;> rfl

/-- A slot that matches is set with the serial 0, any other is left (R118). -/
theorem get_markMatches (s : State) (i : Item) {k : Nat} (hk : k < 4) : (markMatches i s.cap.slots).get k =
    if s.watchMatches i k then { s.cap.slots.get k with matched := true, serial := 0 } else s.cap.slots.get k := by
  rw [markMatches, get_update _ _ hk, matches_eq]

/-- A slot is in the matching set when it matches. -/
theorem any_matchingSet (s : State) (i : Item) {k : Nat} (hk : k < 4) :
    (matchingSet s.cap.slots i).any (fun m => decide (m.slot = k)) = s.watchMatches i k := by
  have hmem : k ∈ (matchingSet s.cap.slots i).map Match.slot ↔ s.watchMatches i k = true := by
    simp [matchingSet_slots, hk]
  rw [Bool.eq_iff_iff, ← hmem]
  simp

/-- The serial goes into the slots that match (R119). -/
theorem get_writeSerials_markMatches (s : State) (i : Item) (serial : Nat) {k : Nat} (hk : k < 4) :
    (writeSerials (matchingSet s.cap.slots i) serial (markMatches i s.cap.slots)).get k =
      if s.watchMatches i k then { s.cap.slots.get k with matched := true, serial := serial }
      else s.cap.slots.get k := by
  rw [writeSerials, get_update _ _ hk, get_markMatches s i hk, any_matchingSet s i hk]
  cases s.watchMatches i k <;> simp

/-! ### The ITEM frame -/

theorem offerRefusal_none_iff (s : State) : s.offerRefusal = none ↔ s.TakesFrame := by
  unfold State.offerRefusal State.TakesFrame
  cases s.lnk.state <;> simp

/-- No frame is offered without a clerk; a clerk's frame that is taken joins the tail (R43). -/
theorem offerItem_fits {i : Item} {s : State} (h : i.request.clerk = 0 ∨ s.TakesFrame) (serial : Nat) :
    offerItem i serial s = { s with
      lnk := if i.request.clerk = 0 then s.lnk
        else { s.lnk with queue := s.lnk.queue ++ [.item (itemFrame i serial)] } } := by
  unfold offerItem
  split
  · rfl
  · next hc => rw [(offerRefusal_none_iff s).mpr (h.resolve_left hc), enqueue]

/-- A clerk's item whose frame is not taken is late, its event queued with room (R43, R108). -/
theorem offerItem_late {i : Item} {s : State} (hc : i.request.clerk ≠ 0) (ht : ¬s.TakesFrame)
    (hroom : s.hpt.events.length < 32) (serial : Nat) :
    offerItem i serial s = recordFault .lateItem { s with
      hpt.events := s.hpt.events ++ [s.record (.lateItem serial i.request.clerk .linkFull)]
      tst.ops := s.tst.ops ++ [unattachedPosting i.price] } := by
  rw [offerItem, if_neg hc]
  split
  · next hr => exact absurd ((offerRefusal_none_iff s).mp hr) ht
  · rw [lateItem, queueEvent_room (s := postUnattached _ s) hroom]
    rfl

/-! ### Posting -/

/-- The WATCH_NOTE events of a posting, with room for them (R121). -/
theorem foldl_watchNote {s : State} (serial : Nat) (slots : List Nat)
    (hroom : s.hpt.events.length + slots.length ≤ 32) :
    slots.foldl (fun acc k => queueEvent (.watchNote k serial) acc) s =
      { s with hpt.events := s.hpt.events ++ slots.map fun k => s.record (.watchNote k serial) } := by
  induction slots generalizing s with
  | nil => simp
  | cons k l ih =>
    rw [List.length_cons] at hroom
    rw [List.foldl_cons, queueEvent_room (by omega), ih (by simp; omega)]
    simp [State.record]

theorem noted_eq {i : Item} {set : List Match} {s : State}
    (hroom : s.hpt.events.length + (noteSlots set).length ≤ 32) : s.noted i set =
      { s.posted i set with
        hpt.events := s.hpt.events ++ (noteSlots set).map fun k => s.record (.watchNote k s.lbl.nextSerial) } :=
  foldl_watchNote (s := s.posted i set) s.lbl.nextSerial (noteSlots set) hroom

/-- The last of a posting while no close is latched (R44). -/
theorem postItem_quiet {i : Item} {set : List Match} {s t : State}
    (ht : offerItem i s.lbl.nextSerial (s.noted i set) = t) (hlatch : t.day.latch = none)
    (hroom : t.hpt.events.length < 32) : postItem i set s = State.idled { t with
      hpt.events := t.hpt.events ++ [t.record (.captureDone i.request.tag .ok s.lbl.nextSerial)] } := by
  rw [postItem_eq, ht, becomeIdle_quiet (by simp [hlatch]), queueEvent_room hroom]
  rfl

/-- A posting while no close is latched, with room for its events. -/
theorem postItem_posts {i : Item} {set : List Match} {s : State} (hlatch : s.day.latch = none)
    (hroom : s.hpt.events.length + (noteSlots set).length + 2 ≤ 32) :
    s.Posts (postItem i set s) i (noteSlots set)
      ∧ (postItem i set s).hpt = { s.hpt with events := (postItem i set s).hpt.events }
      ∧ (postItem i set s).cap.slots = writeSerials set s.lbl.nextSerial s.cap.slots
      ∧ (postItem i set s).wch = s.wch := by
  have hnoted := noted_eq (i := i) (set := set) (s := s) (by omega)
  have htakes : (s.noted i set).TakesFrame ↔ s.TakesFrame := by rw [hnoted]; exact Iff.rfl
  have hlength : (s.noted i set).hpt.events.length = s.hpt.events.length + (noteSlots set).length := by
    rw [hnoted]
    simp
  by_cases h : i.request.clerk = 0 ∨ s.TakesFrame
  · have hoffer := offerItem_fits (h.imp_right htakes.mpr) s.lbl.nextSerial
    rw [postItem_quiet hoffer (by rw [hnoted]; exact hlatch) (by simp only [hlength]; omega), hnoted]
    refine ⟨⟨_, ⟨rfl, rfl, rfl, rfl⟩, rfl, rfl, rfl, rfl, fun _ => ⟨List.append_assoc .., rfl, rfl, rfl⟩,
      fun hc ht => absurd (h.resolve_left hc) ht, rfl, rfl, rfl, rfl⟩, rfl, rfl, rfl⟩
  · obtain ⟨hc, ht⟩ := not_or.mp h
    have hoffer := offerItem_late hc (mt htakes.mp ht) (by omega) s.lbl.nextSerial
    rw [postItem_quiet hoffer (by rw [hnoted]; exact hlatch) (by simp [recordFault, hand, hlength]; omega), hnoted]
    refine ⟨⟨_, ⟨rfl, rfl, rfl, rfl⟩, rfl, rfl, rfl, rfl, fun hf => absurd hf h, fun _ _ => ⟨?_, ?_, rfl, rfl, rfl⟩,
      rfl, rfl, rfl, rfl⟩, rfl, rfl, rfl⟩
    · simp only [State.idled, State.posted, placeLabel, recordFault, hand, List.append_assoc]
      rfl
    · exact List.append_assoc ..

end Sys2Proof.Machine
end

section
/-! SUPPORT and the proof about COUNT_ITEM: completion by its cases, and the refusals of Table 2-3. -/

namespace Sys2Proof.Machine

/-! ### Completion -/

/-- The match status after evaluation (R118). -/
def State.marked (i : Item) (s : State) : State := { s with cap.slots := markMatches i s.cap.slots }

/-- The item that completion fixes, its order's figures by the clerk (R40, R41). -/
theorem completedItem_eq (r : CaptureRequest) (m : Measure) (s : State) : completedItem r m s =
    { request := r, measure := m, basePrice := basePrice m r.unitPrice
      price := roundPrice (basePrice m r.unitPrice) s.cap.rounding
      openAtCapture := decide (r.clerk ≠ 0) && (s.order r.clerk).isSome
      ticket := if r.clerk = 0 then none else (s.order r.clerk).bind Order.ticket } := by
  by_cases hc : r.clerk = 0 <;> simp [completedItem, hc]

/-- A unit in IDLE is left as it is. -/
theorem idled_eq {s : State} (h : s.cap.capture = .idle) : s.idled = s := by
  unfold State.idled
  rw [← h]

/-- An ending with room and without a latched close, for any result but MOTION. -/
theorem endCapture_plain {result : ResultCode} {s : State} (hr : result ≠ .motion) (hlatch : s.day.latch = none)
    (hroom : s.hpt.events.length < 32) (tag : Nat) : endCapture tag result s =
      State.idled { s with hpt.events := s.hpt.events ++ [s.record (.captureDone tag result 0)] } := by
  rw [endCapture_quiet hlatch, reported_plain hr hroom]

theorem completeCapture_priceRange {r : CaptureRequest} {m : Measure} {s : State}
    (h : 999999 < (completedItem r m s).price) (hlatch : s.day.latch = none) (hroom : s.hpt.events.length < 32) :
    completeCapture r m s =
      State.idled { s with hpt.events := s.hpt.events ++ [s.record (.captureDone r.tag .priceRange 0)] } :=
  (if_pos h).trans (endCapture_plain (by decide) hlatch hroom r.tag)

theorem completeCapture_held {r : CaptureRequest} {m : Measure} {s : State} {i : Item} (hi : i = completedItem r m s)
    (hlimit : i.price ≤ 999999) (hheld : s.heldBack i = true) : completeCapture r m s =
      queueEvent (.itemHeld r.tag (holdSlots (matchingSet s.cap.slots i)))
        { s.marked i with cap.capture := .held i (matchingSet s.cap.slots i) holdTime } := by
  subst hi
  exact (if_neg (not_lt.mpr hlimit)).trans (if_pos ((heldBack_iff ..).mp hheld))

theorem completeCapture_free {r : CaptureRequest} {m : Measure} {s : State} {i : Item} (hi : i = completedItem r m s)
    (hlimit : i.price ≤ 999999) (hheld : s.heldBack i = false) : completeCapture r m s =
      if s.lbl.free = 0 then endCapture r.tag .labelFull (s.marked i)
      else postItem i (matchingSet s.cap.slots i) (s.marked i) := by
  subst hi
  refine (if_neg (not_lt.mpr hlimit)).trans (if_neg fun h => ?_)
  simp [(heldBack_iff ..).mpr h] at hheld

theorem free_eq_zero_iff (l : LabelUnit) : l.free = 0 ↔ 8 ≤ l.records.length + l.reservations := by
  unfold LabelUnit.free
  omega

/-- What a completion leaves besides the capture unit, the labels, the link, the health monitor and the list of
operations. -/
def State.KeepsAtCompletion (s t : State) : Prop :=
  t.hpt = { s.hpt with events := t.hpt.events } ∧ t.wch = s.wch ∧ t.tkt = s.tkt ∧ t.clt = s.clt ∧ t.day = s.day
    ∧ t.tst.mem = s.tst.mem

/-- The slots of an item that is not posted (R118). -/
theorem get_markMatches_unposted {s : State} {i : Item} (h : s.heldBack i = true
      ∨ 8 ≤ s.lbl.records.length + s.lbl.reservations) : ∀ k < 4, (markMatches i s.cap.slots).get k =
    if s.watchMatches i k then
      { s.cap.slots.get k with
        matched := true
        serial := if s.heldBack i = false ∧ s.lbl.records.length + s.lbl.reservations < 8 then s.lbl.nextSerial else 0 }
    else s.cap.slots.get k := by
  intro k hk
  have hserial : (if s.heldBack i = false ∧ s.lbl.records.length + s.lbl.reservations < 8 then s.lbl.nextSerial else 0)
      = 0 := if_neg fun ⟨hf, hlt⟩ => absurd hlt (not_lt.mpr (h.resolve_left (by simp [hf])))
  rw [get_markMatches s i hk, hserial]

theorem length_noteSlots_matchingSet (s : State) (i : Item) :
    (noteSlots (matchingSet s.cap.slots i)).length ≤ 4 := by
  rw [noteSlots_matchingSet]
  exact List.length_filter_le ..

section
variable {r : CaptureRequest} {m : Measure} {s : State} {i : Item}

/-- An item held back (R122). -/
theorem completes_of_held (hi : i = completedItem r m s) (hlimit : i.price ≤ 999999) (hroom : s.hpt.events.length < 32)
    (hheld : s.heldBack i = true) :
    s.Completes (completeCapture r m s) i ∧ s.KeepsAtCompletion (completeCapture r m s) := by
  have htag : i.request.tag = r.tag := by rw [hi]; rfl
  rw [completeCapture_held hi hlimit hheld, queueEvent_room (by exact hroom), ← htag]
  refine ⟨⟨fun _ => ⟨_, rfl, matchingSet_slots s i, fun m hm => mem_matchingSet hm, ?_, rfl, rfl, rfl⟩, ?_, ?_,
    get_markMatches_unposted (.inl hheld)⟩, rfl, rfl, rfl, rfl, rfl, rfl⟩
  · rw [← holdSlots_matchingSet]
    rfl
  · simp [hheld]
  · simp [hheld]

/-- An item without a label place (R42). -/
theorem completes_of_labelFull (hi : i = completedItem r m s) (hlimit : i.price ≤ 999999) (hlatch : s.day.latch = none)
    (hroom : s.hpt.events.length < 32) (hheld : s.heldBack i = false)
    (hfull : 8 ≤ s.lbl.records.length + s.lbl.reservations) :
    s.Completes (completeCapture r m s) i ∧ s.KeepsAtCompletion (completeCapture r m s) := by
  have htag : i.request.tag = r.tag := by rw [hi]; rfl
  rw [completeCapture_free hi hlimit hheld, if_pos ((free_eq_zero_iff ..).mpr hfull),
    endCapture_plain (by decide) (by exact hlatch) (by exact hroom), ← htag]
  refine ⟨⟨?_, fun _ _ => ⟨rfl, rfl, rfl, rfl, rfl⟩, fun _ hlt => absurd hfull (not_le.mpr hlt),
    get_markMatches_unposted (.inr hfull)⟩, rfl, rfl, rfl, rfl, rfl, rfl⟩
  simp [hheld]

/-- An item that is posted (R42 to R44). -/
theorem completes_of_posted (hi : i = completedItem r m s) (hlimit : i.price ≤ 999999) (hlatch : s.day.latch = none)
    (hroom : s.hpt.events.length < 26) (hheld : s.heldBack i = false)
    (hfree : s.lbl.records.length + s.lbl.reservations < 8) :
    s.Completes (completeCapture r m s) i ∧ s.KeepsAtCompletion (completeCapture r m s) := by
  have hnotes := length_noteSlots_matchingSet s i
  have hevents : (s.marked i).hpt.events.length + (noteSlots (matchingSet s.cap.slots i)).length + 2 ≤ 32 := by
    simp only [State.marked]
    omega
  obtain ⟨hposts, hhpt, hslots, hwch⟩ := postItem_posts (i := i) (s := s.marked i) hlatch hevents
  rw [noteSlots_matchingSet] at hposts
  have hkept := hposts
  obtain ⟨-, -, -, -, -, -, -, -, htkt, hclt, hday, hmem⟩ := hkept
  have hserial : (if s.heldBack i = false ∧ s.lbl.records.length + s.lbl.reservations < 8 then s.lbl.nextSerial else 0)
      = s.lbl.nextSerial := if_pos ⟨hheld, hfree⟩
  rw [completeCapture_free hi hlimit hheld, if_neg (mt (free_eq_zero_iff ..).mp (not_le.mpr hfree))]
  refine ⟨⟨?_, fun _ hfull => absurd hfree (not_lt.mpr hfull), fun _ _ => hposts, fun k hk => ?_⟩, hhpt, hwch, htkt,
    hclt, hday, hmem⟩
  · simp [hheld]
  · rw [hslots, hserial]
    exact get_writeSerials_markMatches s i s.lbl.nextSerial hk

/-- Completion within the price limit, with room for its events and no close latched. -/
theorem completeCapture_completes (hi : i = completedItem r m s) (hlimit : i.price ≤ 999999)
    (hlatch : s.day.latch = none) (hroom : s.hpt.events.length < 26) :
    s.Completes (completeCapture r m s) i ∧ s.KeepsAtCompletion (completeCapture r m s) := by
  have hroom' : s.hpt.events.length < 32 := Nat.lt_of_lt_of_le hroom (by decide)
  cases hheld : s.heldBack i with
  | true => exact completes_of_held hi hlimit hroom' hheld
  | false =>
    obtain hfull | hfree := le_or_gt 8 (s.lbl.records.length + s.lbl.reservations)
    · exact completes_of_labelFull hi hlimit hlatch hroom' hheld hfull
    · exact completes_of_posted hi hlimit hlatch hroom hheld hfree

end

/-! ### The refusals of Table 2-3 -/

/-- The code of the first row of Table 2-3 that holds; none for a capture request that is taken. -/
def State.captureRefusal (s : State) (inRange locked : Bool) (clerk : Nat) : Option ResultCode :=
  if inRange = false then some .param
  else if s.hpt.runState ≠ .running then some .wrongState
  else if s.cap.capture ≠ .idle then some .busy
  else if 0 < s.day.copiesPending then some .dayClosing
  else if s.day.behind = true then some .dayBehind
  else if locked = true then some .locked
  else if clerk ≠ 0 ∧ (s.order clerk).map Order.lineCount = some 40 then some .linesFull
  else if clerk ≠ 0 ∧ s.lnk.state = .silent then some .linkSilent
  else none

/-- The first refusal of a table is that of its first row, if it holds, or else of the rows after it. -/
theorem firstCode_cons (b : Bool) (code : ResultCode) (rows : List (Bool × ResultCode)) :
    (((b, code) :: rows).find? Prod.fst).map Prod.snd =
      if b = true then some code else (rows.find? Prod.fst).map Prod.snd := by
  cases b <;> rfl

theorem captureRefusals_first (inRange locked : Bool) (clerk : Nat) (s : State) :
    ((captureRefusals inRange locked clerk s).find? Prod.fst).map Prod.snd = s.captureRefusal inRange locked clerk := by
  simp only [captureRefusals, firstCode_cons, State.captureRefusal, State.notRunning, Bool.and_eq_true,
    Bool.not_eq_true', decide_eq_true_eq, List.find?_nil, Option.map_none]

theorem linesFull_iff (s : State) (clerk : Nat) :
    (s.order clerk).map Order.lineCount = some 40 ↔ s.linesFull clerk := Option.map_eq_some_iff

section
variable {s : State} {locked : Bool} {clerk : Nat}

theorem captureRefusal_wrongState (h : s.hpt.runState ≠ .running) :
    s.captureRefusal true locked clerk = some .wrongState := by
  simp [State.captureRefusal, h]

theorem captureRefusal_busy (hrun : s.hpt.runState = .running) (h : s.cap.capture ≠ .idle) :
    s.captureRefusal true locked clerk = some .busy := by
  simp [State.captureRefusal, hrun, h]

theorem captureRefusal_dayClosing (hrun : s.hpt.runState = .running) (hidle : s.cap.capture = .idle)
    (h : 0 < s.day.copiesPending) : s.captureRefusal true locked clerk = some .dayClosing := by
  simp [State.captureRefusal, hrun, hidle, h]

theorem captureRefusal_dayBehind (hrun : s.hpt.runState = .running) (hidle : s.cap.capture = .idle)
    (hcopies : s.day.copiesPending = 0) (h : s.day.behind = true) :
    s.captureRefusal true locked clerk = some .dayBehind := by
  simp [State.captureRefusal, hrun, hidle, hcopies, h]

/-- Past the rows that name no clerk the lockout and the clerk decide. -/
theorem captureRefusal_open (hrun : s.hpt.runState = .running) (hidle : s.cap.capture = .idle)
    (hcopies : s.day.copiesPending = 0) (hbehind : s.day.behind = false) : s.captureRefusal true locked clerk =
      if locked = true then some .locked
      else if clerk ≠ 0 ∧ (s.order clerk).map Order.lineCount = some 40 then some .linesFull
      else if clerk ≠ 0 ∧ s.lnk.state = .silent then some .linkSilent
      else none := by
  simp [State.captureRefusal, hrun, hidle, hcopies, hbehind]

theorem captureRefusal_linesFull (hrun : s.hpt.runState = .running) (hidle : s.cap.capture = .idle)
    (hcopies : s.day.copiesPending = 0) (hbehind : s.day.behind = false) (hc : clerk ≠ 0) (h : s.linesFull clerk) :
    s.captureRefusal true false clerk = some .linesFull := by
  simp [captureRefusal_open hrun hidle hcopies hbehind, hc, (linesFull_iff s clerk).mpr h]

theorem captureRefusal_linkSilent (hrun : s.hpt.runState = .running) (hidle : s.cap.capture = .idle)
    (hcopies : s.day.copiesPending = 0) (hbehind : s.day.behind = false) (hc : clerk ≠ 0) (hfull : ¬s.linesFull clerk)
    (h : s.lnk.state = .silent) : s.captureRefusal true false clerk = some .linkSilent := by
  rw [captureRefusal_open hrun hidle hcopies hbehind, if_neg (by decide),
    if_neg fun hlines => hfull ((linesFull_iff ..).mp hlines.right), if_pos ⟨hc, h⟩]

/-- A request that none of the rows refuses is taken. -/
theorem captureRefusal_none (h : s.TakesCapture clerk) : s.captureRefusal true false clerk = none := by
  obtain ⟨hrun, hidle, hcopies, hbehind, hclerk⟩ := h
  have hfull (hc : clerk ≠ 0) : ¬s.linesFull clerk := (hclerk hc).left
  have hlink (hc : clerk ≠ 0) : s.lnk.state ≠ .silent := (hclerk hc).right
  rw [captureRefusal_open hrun hidle hcopies hbehind, if_neg (by decide),
    if_neg fun ⟨hc, hlines⟩ => hfull hc ((linesFull_iff ..).mp hlines), if_neg fun ⟨hc, hsilent⟩ => hlink hc hsilent]

end

/-! ### COUNT_ITEM -/

theorem itemInRange_iff (clerk : Byte) (plu : BitVec 24) (dept : Byte) (price : BitVec 24) :
    itemInRange clerk plu dept price = true ↔ ItemFieldsInRange clerk plu dept price := by
  simp only [itemInRange, within, ItemFieldsInRange, Bool.and_eq_true, decide_eq_true_eq]
  omega

/-- The request of a COUNT_ITEM (R28, Table 2-1). -/
def countRequest (clerk : Byte) (plu : BitVec 24) (dept : Byte) (price : BitVec 24) (s : State) : CaptureRequest :=
  { tag := s.hpt.nextTag, clerk := clerk.toNat, plu := plu.toNat, dept := dept.toNat, unitPrice := price.toNat,
    pluTare := none }

section
variable {clerk : Byte} {plu : BitVec 24} {dept : Byte} {price : BitVec 24} {quantity : Byte} {s : State}

theorem exec_countItem (h : s.asked (.countItem clerk plu dept price quantity)) :
    exec (.countItem clerk plu dept price quantity) s = .next (countItemOwner clerk plu dept price quantity s) :=
  serve_asked h

theorem countItemOwner_eq : countItemOwner clerk plu dept price quantity s =
    (s.captureRefusal (itemInRange clerk plu dept price && within 1 quantity.toNat 99) false clerk.toNat).elim
      (completeCapture (countRequest clerk plu dept price s) (.count quantity.toNat) s.accepted) (refuse · s) := by
  unfold countItemOwner
  rw [← captureRefusals_first]
  dsimp only
  cases (captureRefusals (itemInRange clerk plu dept price && within 1 quantity.toNat 99) false clerk.toNat s).find?
    Prod.fst <;> rfl

theorem exec_countItem_param (ha : s.asked (.countItem clerk plu dept price quantity))
    (h : ¬ItemFieldsInRange clerk plu dept price ∨ quantity.toNat = 0 ∨ 99 < quantity.toNat) :
    exec (.countItem clerk plu dept price quantity) s = .next (refuse .param s) := by
  have hrange : (itemInRange clerk plu dept price && within 1 quantity.toNat 99) = false := by
    rw [← Bool.not_eq_true, Bool.and_eq_true, itemInRange_iff]
    simp only [within, decide_eq_true_eq]
    rintro ⟨hfields, hlo, hhi⟩
    rcases h with h | h
    · exact h hfields
    · omega
  rw [exec_countItem ha, countItemOwner_eq, hrange]
  rfl

theorem exec_countItem_inRange (ha : s.asked (.countItem clerk plu dept price quantity))
    (hfields : ItemFieldsInRange clerk plu dept price) (hlo : 1 ≤ quantity.toNat) (hhi : quantity.toNat ≤ 99) :
    exec (.countItem clerk plu dept price quantity) s = .next
      ((s.captureRefusal true false clerk.toNat).elim
        (completeCapture (countRequest clerk plu dept price s) (.count quantity.toNat) s.accepted) (refuse · s)) := by
  have hrange : (itemInRange clerk plu dept price && within 1 quantity.toNat 99) = true := by
    simp [(itemInRange_iff ..).mpr hfields, within, hlo, hhi]
  rw [exec_countItem ha, countItemOwner_eq, hrange]

end

/-- Settles O34: the refusals row by row, then completion from the accepted state. -/
theorem countItemIsPosted : Obligations.CountItemIsPosted := by
  intro clerk plu dept price quantity s ha
  refine ⟨exec_countItem_param ha, fun hfields hlo hhi => ?_⟩
  rw [exec_countItem_inRange ha hfields hlo hhi]
  refine ⟨fun hrun => ?_, fun hrun hbusy => ?_, fun hrun hidle => ⟨fun hcopies => ?_, fun hcopies => ⟨fun hbehind => ?_,
    fun hbehind hc => ⟨fun hfull => ?_, fun hfull hsilent => ?_⟩⟩⟩, ?_⟩
  · rw [captureRefusal_wrongState hrun, Option.elim_some]
  · rw [captureRefusal_busy hrun hbusy, Option.elim_some]
  · rw [captureRefusal_dayClosing hrun hidle hcopies, Option.elim_some]
  · rw [captureRefusal_dayBehind hrun hidle hcopies hbehind, Option.elim_some]
  · rw [captureRefusal_linesFull hrun hidle hcopies hbehind hc hfull, Option.elim_some]
  · rw [captureRefusal_linkSilent hrun hidle hcopies hbehind hc hfull hsilent, Option.elim_some]
  · intro htakes hlatch hroom p i hp hi
    have hitem : i = completedItem (countRequest clerk plu dept price s) (.count quantity.toNat) s.accepted := by
      rw [hi, hp, completedItem_eq]
      rfl
    rw [captureRefusal_none htakes, Option.elim_none]
    refine ⟨fun hover => ?_, fun hlimit => ?_⟩
    · obtain ⟨-, hidle, -⟩ := htakes
      rw [completeCapture_priceRange (s := s.accepted) (hitem ▸ hover) hlatch (Nat.lt_of_lt_of_le hroom (by decide)),
        idled_eq (by exact hidle)]
      rfl
    · obtain ⟨hcompletes, hhpt, hwch, htkt, hclt, hday, hmem⟩ :=
        completeCapture_completes hitem hlimit hlatch hroom
      exact ⟨_, rfl, hhpt, hcompletes, hwch, htkt, hclt, hday, hmem⟩

end Sys2Proof.Machine
end

section
/-! SUPPORT and the proof about WEIGH_ITEM: its refusals, and the stable reading that judges or completes a waiting
waiting capture. -/

namespace Sys2Proof.Machine

/-! ### WEIGH_ITEM -/

section
variable {clerk : Byte} {plu : BitVec 24} {dept : Byte} {price : BitVec 24} {given : Byte} {tare : BitVec 16}
  {s : State}

theorem exec_weighItem (h : s.asked (.weighItem clerk plu dept price given tare)) :
    exec (.weighItem clerk plu dept price given tare) s = .next (weighItemOwner clerk plu dept price given tare s) :=
  serve_asked h

/-- The capture that an accepted WEIGH_ITEM leaves waiting (R30, Table 2-1). -/
def State.awaitsReading (clerk : Byte) (plu : BitVec 24) (dept : Byte) (price : BitVec 24) (given : Byte)
    (tare : BitVec 16) (s : State) : State :=
  { s.accepted with
    cap := { s.cap with
      capture := .waiting
        { tag := s.hpt.nextTag, clerk := clerk.toNat, plu := plu.toNat, dept := dept.toNat, unitPrice := price.toNat,
          pluTare := if given.toNat = 1 then some tare.toNat else none }
        .none (s.cap.timeout * unitsPerSecond) } }

theorem weighItemOwner_eq : weighItemOwner clerk plu dept price given tare s =
    (s.captureRefusal (itemInRange clerk plu dept price && pluTareInRange given tare s.figures) s.lockedOut
      clerk.toNat).elim (s.awaitsReading clerk plu dept price given tare) (refuse · s) := by
  unfold weighItemOwner
  rw [← captureRefusals_first]
  dsimp only
  cases (captureRefusals (itemInRange clerk plu dept price && pluTareInRange given tare s.figures) s.lockedOut
    clerk.toNat s).find? Prod.fst <;> rfl

/-- A PLU tare is absent, or present within the first range and a whole multiple of e1 (R27). -/
theorem pluTareInRange_iff (f : Figures) : pluTareInRange given tare f = true ↔
    given.toNat = 0 ∨ given.toNat = 1 ∧ tare.toNat ≤ f.cap1 ∧ tare.toNat % f.e1 = 0 := by
  simp [pluTareInRange, Figures.tareInRange]

theorem exec_weighItem_param (ha : s.asked (.weighItem clerk plu dept price given tare))
    (h : ¬ItemFieldsInRange clerk plu dept price ∨ pluTareInRange given tare s.figures = false) :
    exec (.weighItem clerk plu dept price given tare) s = .next (refuse .param s) := by
  have hrange : (itemInRange clerk plu dept price && pluTareInRange given tare s.figures) = false := by
    rw [Bool.and_eq_false_iff, ← Bool.not_eq_true, itemInRange_iff]
    exact h
  rw [exec_weighItem ha, weighItemOwner_eq, hrange]
  rfl

theorem exec_weighItem_inRange (ha : s.asked (.weighItem clerk plu dept price given tare))
    (hfields : ItemFieldsInRange clerk plu dept price) (htare : pluTareInRange given tare s.figures = true) :
    exec (.weighItem clerk plu dept price given tare) s = .next
      ((s.captureRefusal true s.lockedOut clerk.toNat).elim (s.awaitsReading clerk plu dept price given tare)
        (refuse · s)) := by
  rw [exec_weighItem ha, weighItemOwner_eq, (itemInRange_iff ..).mpr hfields, htare]
  rfl

end

/-! ### The stable reading -/

/-- The channel after a stable arrival: sample and gross weight taken in, the state LIVE (R6 to R8). -/
def State.liveChannel (s : State) (count : Int) : Weighing := { (s.sampled count).weighed.wch with state := .live }

section
variable {s : State} {v : BitVec 24} {g : Int}

theorem State.StableArrival.filter_eq (h : s.StableArrival v g) :
    pushed s.wch.filter v.toInt s.wch.filterLength = s.wch.filter.drop 1 ++ [v.toInt] := by
  obtain ⟨-, -, -, -, hlength, hfull, -⟩ := h
  exact pushed_full hfull hlength v.toInt

theorem State.StableArrival.gross_eq (h : s.StableArrival v g) : (s.sampled v.toInt).wch.grossNow = g := by
  have hpushed := h.filter_eq
  obtain ⟨-, -, -, -, -, -, -, -, -, -, -, hg, -⟩ := h
  rw [hg, ← hpushed]
  rfl

/-- No tracking test is due, and the gross weight lies within the limits (R7, R16). -/
theorem State.StableArrival.evaluated (h : s.StableArrival v g) :
    evaluateArrival (s.sampled v.toInt) = { s with wch := s.liveChannel v.toInt } := by
  have hgross := h.gross_eq
  obtain ⟨-, -, -, -, -, -, -, -, hzero, htrack, -, -, hunder, hover, -⟩ := h
  have hlive : (s.sampled v.toInt).judged (s.sampled v.toInt).wch.grossNow = .live := by
    rw [judged_live_iff, hgross]
    exact ⟨hunder, hover⟩
  rw [evaluateArrival_stays (s := s.sampled v.toInt) hzero fun hdue => absurd hdue (not_le.mpr htrack),
    State.judgedArrival, hlive, enterState_quiet (by simp)]
  exact congrArg (fun k => { s with wch := { s.liveChannel v.toInt with trackCount := k } })
    (if_neg (not_le.mpr htrack))

/-- The window is full and within the spread (R4). -/
theorem State.StableArrival.window_stable (h : s.StableArrival v g) :
    { s with wch := s.liveChannel v.toInt }.windowStable = true := by
  have hgross := h.gross_eq
  obtain ⟨-, -, -, -, -, -, hlength, hfull, -, -, -, -, -, -, hspread⟩ := h
  have hwindow : (s.liveChannel v.toInt).window = s.wch.window.drop 1 ++ [g] := by
    rw [← hgross]
    exact pushed_full hfull hlength _
  refine (windowStable_iff_full (w := (s.liveChannel v.toInt).window) hlength s.figures.spread).mpr ?_
  rw [hwindow]
  exact ⟨by simp; omega, hspread⟩

/-- A stable arrival changes the channel and is read (R11). -/
theorem exec_stableArrival (h : s.StableArrival v g) : exec (.sampleArrival 24 v) s =
    .next (stableReading g { s with wch := s.liveChannel v.toInt }) := by
  have hpushed := h.filter_eq
  have hgross := h.gross_eq
  have hevaluated := h.evaluated
  have hstable := h.window_stable
  obtain ⟨hpower, hrun, hlow, hhigh, hlength, hfull, -, -, -, -, hrestore, -⟩ := h
  have hrestored : restoreSamples { s with wch := s.liveChannel v.toInt } = { s with wch := s.liveChannel v.toInt } :=
    if_neg (by simp [State.liveChannel, State.weighed, State.sampled, restartWatchdog, hrestore])
  rw [exec_sampleArrival_complete hpower hrun hlow hhigh (by rw [hpushed]; simp; omega), State.completed, hevaluated,
    hrestored, offerReading, if_pos ⟨rfl, hstable⟩, ← hgross]
  rfl

end

theorem stableReading_locked {s : State} {r : CaptureRequest} {j : StableJudgement} {n : Nat}
    (hw : s.cap.capture = .waiting r j n) (h : s.lockedOut = true) (g : Int) :
    stableReading g s = endCapture r.tag .locked s := by
  simp [stableReading, hw, h]

/-- A reading at a station that is not locked out, by the weight displayed with the tare in force (R31). -/
theorem stableReading_waiting {s : State} {r : CaptureRequest} {j : StableJudgement} {n : Nat}
    (hw : s.cap.capture = .waiting r j n) (h : s.lockedOut = false) {g w : Int}
    (hdisplay : w = s.figures.display (g - ((chosenTare r s.wch).1.getD 0 : Nat))) : stableReading g s =
      if w < s.figures.minimum then { s with cap.capture := .waiting r .belowMin n }
      else if (s.figures.max : Int) < w then { s with cap.capture := .waiting r .aboveMax n }
      else completeCapture r (readingMeasure r g s) s := by
  simp [stableReading, hw, h, hdisplay]

/-- Settles O33: the refusals row by row, and a stable arrival that changes the channel alone and is then read by the
waiting capture. -/
theorem weighItemWaitsForAReading : Obligations.WeighItemWaitsForAReading := by
  refine ⟨fun clerk plu dept price given tare s ha => ⟨fun h => exec_weighItem_param ha ?_, ?_⟩, ?_⟩
  · rw [← Bool.not_eq_true, pluTareInRange_iff, ItemFieldsInRange]
    omega
  · intro hclerk hplu hplu' hdept hdept' hprice hprice' hgiven
    rw [exec_weighItem_inRange ha ⟨hclerk, hplu, hplu', hdept, hdept', hprice, hprice'⟩
      ((pluTareInRange_iff ..).mpr hgiven)]
    refine ⟨fun hrun => ?_, fun hrun hbusy => ?_, fun hrun hidle hcopies => ?_, fun hrun hidle hcopies hbehind => ?_,
      fun hrun hidle hcopies hbehind => ⟨fun hlocked => ?_, fun hfree hc hfull => ?_, fun hfree hc hfull hsilent => ?_⟩,
      fun hrun hidle hcopies hbehind hfree htaken => ?_⟩
    · rw [captureRefusal_wrongState hrun, Option.elim_some]
    · rw [captureRefusal_busy hrun hbusy, Option.elim_some]
    · rw [captureRefusal_dayClosing hrun hidle hcopies, Option.elim_some]
    · rw [captureRefusal_dayBehind hrun hidle hcopies hbehind, Option.elim_some]
    · rw [captureRefusal_open hrun hidle hcopies hbehind, if_pos hlocked, Option.elim_some]
    · rw [hfree, captureRefusal_linesFull hrun hidle hcopies hbehind hc hfull, Option.elim_some]
    · rw [hfree, captureRefusal_linkSilent hrun hidle hcopies hbehind hc hfull hsilent, Option.elim_some]
    · have htakes : s.TakesCapture clerk.toNat := by
        refine ⟨hrun, hidle, hcopies, hbehind, fun hc => ?_⟩
        obtain ⟨hlines, hlink⟩ := htaken.resolve_left hc
        exact ⟨fun ⟨o, ho, hcount⟩ => hlines o ho hcount, hlink⟩
      rw [hfree, captureRefusal_none htakes, Option.elim_none]
      rfl
  · intro s v g r j n hw hstable hlatch hroom
    have hchannel : (s.liveChannel v.toInt).tare = s.wch.tare := rfl
    have hroom' : s.hpt.events.length < 32 := Nat.lt_of_lt_of_le hroom (by decide)
    rw [exec_stableArrival hstable]
    generalize s.liveChannel v.toInt = channel at hchannel
    refine ⟨fun hlocked => ⟨_, rfl, ?_⟩, fun hfree tare source net w htare hnet hdisplay => ?_⟩
    · rw [stableReading_locked (s := { s with wch := channel }) hw hlocked,
        endCapture_plain (by decide) (by exact hlatch) (by exact hroom')]
      exact ⟨rfl, rfl, rfl, rfl, rfl, rfl⟩
    · have hchosen : (tare, source) = chosenTare r channel := by
        rw [htare, chosenTare, hchannel]
        cases r.pluTare <;> cases s.wch.tare <;> rfl
      subst hnet
      rw [stableReading_waiting (s := { s with wch := channel }) (w := w) hw hfree (by rw [← hchosen]; exact hdisplay)]
      refine ⟨fun hbelow => ⟨_, rfl, ?_⟩, fun hmin habove => ⟨_, rfl, ?_⟩, fun hmin hmax p i hp hi => ⟨_, rfl, ?_⟩⟩
      · rw [if_pos (by exact hbelow)]
        exact ⟨rfl, rfl, rfl, rfl, rfl⟩
      · rw [if_neg (by exact not_lt.mpr hmin), if_pos (by exact habove)]
        exact ⟨rfl, rfl, rfl, rfl, rfl⟩
      · rw [if_neg (by exact not_lt.mpr hmin), if_neg (by exact not_lt.mpr hmax)]
        have hitem : i = completedItem r (readingMeasure r g { s with wch := channel }) { s with wch := channel } := by
          rw [hi, hp, completedItem_eq, readingMeasure, ← hchosen, hdisplay]
          rfl
        by_cases hlimit : i.price ≤ 999999
        · obtain ⟨hcompletes, hhpt, -⟩ :=
            completeCapture_completes (s := { s with wch := channel }) hitem hlimit hlatch hroom
          exact ⟨hhpt, fun hover => absurd hlimit (not_le.mpr hover), fun _ => hcompletes⟩
        · rw [completeCapture_priceRange (s := { s with wch := channel }) (hitem ▸ not_le.mp hlimit) hlatch hroom']
          exact ⟨rfl, fun _ => ⟨rfl, rfl, rfl, rfl, rfl⟩, fun h => absurd h hlimit⟩

end Sys2Proof.Machine
end

section
/-! SUPPORT. What the frames of classes 1..7 leave when they are applied: the link, the business day, the capture unit and
the weighing channel. -/

namespace Sys2Proof.Machine

/-- The link, the business day, the capture unit, the weighing channel, the words of the store and the time of day are the
same. -/
@[simp] abbrev State.KeepsLink (t s : State) : Prop :=
  t.lnk = s.lnk ∧ t.day = s.day ∧ t.cap = s.cap ∧ t.wch = s.wch ∧ t.tst.mem = s.tst.mem
    ∧ t.hpt.timeOfDay = s.hpt.timeOfDay ∧ t.hpt.straps = s.hpt.straps ∧ t.hpt.runState = s.hpt.runState
    ∧ t.hpt.slot = s.hpt.slot ∧ t.power = s.power

theorem State.KeepsLink.trans {s t u : State} (h : t.KeepsLink s) (g : u.KeepsLink t) : u.KeepsLink s := by
  simp_all

@[simp] theorem bindCall_keepsLink (origin ticket clerk : Nat) (atSender : Bool) (s : State) :
    (bindCall origin ticket clerk atSender s).KeepsLink s := by
  unfold bindCall
  split
  · simp
  · dsimp only
    split
    · simp
    · split <;> simp

@[simp] theorem passOrder_keepsLink (origin ticket clerk : Nat) (s : State) :
    (passOrder origin ticket clerk s).KeepsLink s := by
  unfold passOrder
  split
  · simp
  · dsimp only
    split
    · simp
    · split <;> simp

@[simp] theorem applyItem_keepsLink (origin : Nat) (p : ItemPayload) (s : State) :
    (applyItem origin p s).KeepsLink s := by
  unfold applyItem
  split
  · unfold openByItem
    dsimp only
    split <;> simp
  · unfold addItem
    dsimp only
    split
    · simp
    · split <;> simp

@[simp] theorem applyVoid_keepsLink (origin : Nat) (p : VoidPayload) (own : Option TxFrame) (s : State) :
    (applyVoid origin p own s).KeepsLink s := by
  unfold applyVoid
  dsimp only
  cases s.order p.clerk.toNat with
  | none => split <;> simp
  | some o =>
    dsimp only
    cases (o.voidLine p).2 <;> split <;> simp

@[simp] theorem applyTxClose_keepsLink (p : TxClosePayload) (own : Option TxFrame) (s : State) :
    (applyTxClose p own s).KeepsLink s := by
  unfold applyTxClose
  dsimp only
  split
  · split <;> simp
  · split <;> split <;> simp

@[simp] theorem applyTxCancel_keepsLink (p : TxCancelPayload) (own : Option TxFrame) (s : State) :
    (applyTxCancel p own s).KeepsLink s := by
  unfold applyTxCancel
  dsimp only
  split
  · simp
  · split <;> simp

@[simp] theorem applyIssue_keepsLink (origin : Nat) (p : IssuePayload) (own : Option TxFrame) (s : State) :
    (applyIssue origin p own s).KeepsLink s := by
  unfold applyIssue
  dsimp only
  split <;> simp

@[simp] theorem applyCall_keepsLink (origin : Nat) (p : TicketPayload) (own : Option TxFrame) (s : State) :
    (applyCall origin p own s).KeepsLink s := by
  unfold applyCall
  dsimp only
  split
  · simp
  · split <;> simp

@[simp] theorem endTicket_keepsLink (own : Option TxFrame) (s : State) : (endTicket own s).KeepsLink s := by
  unfold endTicket
  split <;> simp

@[simp] theorem requeue_keepsLink (ticket passes : Nat) (own : Option TxFrame) (s : State) :
    (requeue ticket passes own s).KeepsLink s := by
  unfold requeue
  dsimp only
  split
  · simp
  · split
    · simp
    · split <;> simp

@[simp] theorem applyPass_keepsLink (origin : Nat) (p : TicketPayload) (own : Option TxFrame) (s : State) :
    (applyPass origin p own s).KeepsLink s := by
  unfold applyPass
  dsimp only
  split <;> simp

@[simp] theorem applyDayFrame_keepsLink (f : Frame) (own : Option TxFrame) (s : State) :
    (applyDayFrame f own s).KeepsLink s := by
  unfold applyDayFrame
  dsimp only
  split <;> simp

end Sys2Proof.Machine
end

section
/-! SUPPORT and the proof that every step keeps the transmit queue within its bounds: what each operation makes of the
queue, and the commands one by one. -/

namespace Sys2Proof.Machine

/-! ### The link at a close start -/

/-- What no step of a fold changes, the fold does not change. -/
theorem foldl_keeps {α β : Type} (g : State → β) (f : State → α → State) (hf : ∀ s a, g (f s a) = g s) (l : List α)
    (s : State) : g (l.foldl f s) = g s := by
  induction l generalizing s with
  | nil => rfl
  | cons a l ih => exact (ih (f s a)).trans (hf s a)

/-- The frames that a close removes leave a link without them (R57, R167). -/
@[simp] theorem removeDayFrames_lnk (s : State) : (removeDayFrames s).lnk = s.lnk.closed := by
  have hwithdraw : { (withdrawHead s).lnk with queue := s.lnk.queue.filter fun f => !f.isDayScoped } = s.lnk.closed := by
    cases hq : s.lnk.queue with
    | nil => simp [withdrawHead, Link.closed, hq]
    | cons f rest => cases hf : f.isDayScoped <;> simp [withdrawHead, Link.closed, hq, hf]
  rw [← hwithdraw]
  exact foldl_keeps (·.lnk) (fun acc f => endFrame f .dayClosed acc) (by simp) _ _

@[simp] theorem clearDayScoped_lnk (s : State) : (clearDayScoped s).lnk = s.lnk :=
  foldl_keeps (·.lnk) (fun acc a => moveAttribute a 0 acc) (by simp) dayScoped s

@[simp] theorem settleBehind_lnk (s : State) : (settleBehind s).lnk = s.lnk := by rw [settleBehind_eq]

/-- A roster refresh is all that an applied frame does to the link (R60). -/
theorem refreshRoster_lnk (n : Nat) (s : State) :
    (refreshRoster n s).lnk = { s.lnk with roster := (refreshRoster n s).lnk.roster } := by
  unfold refreshRoster
  split <;> rfl

theorem applyDeferredFrame_lnk (s : State) (f : Frame) :
    (applyDeferredFrame s f).lnk = (refreshRoster f.origin.toNat s).lnk := by
  unfold applyDeferredFrame
  dsimp only
  split <;> simp

/-- The deferred frames refresh the roster and leave the rest of the link (R60, R166). -/
theorem foldl_applyDeferredFrame_lnk (l : List Frame) (s : State) :
    (l.foldl applyDeferredFrame s).lnk = { s.lnk with roster := (l.foldl applyDeferredFrame s).lnk.roster } := by
  induction l generalizing s with
  | nil => rfl
  | cons f l ih =>
    rw [List.foldl_cons, ih, applyDeferredFrame_lnk, refreshRoster_lnk]

theorem applyDeferred_lnk (s : State) :
    (applyDeferred s).lnk = { s.lnk with roster := (applyDeferred s).lnk.roster } :=
  foldl_applyDeferredFrame_lnk _ { s with day.deferred := [] }

/-- A close start up to the deferred frames: steps 1 to 7 of R167. -/
def advanceDay (c : LatchedClose) (s : State) : State :=
  settleBehind
    (handCopy s.day.day c
      (clearDayScoped (restartSerials (removeDayFrames (freeAllOrders (emptyTicketView (moveDay c.newDay s)))))))

theorem startClose_eq (c : LatchedClose) (s : State) : startClose c s = applyDeferred (advanceDay c s) := rfl

@[simp] theorem advanceDay_lnk (c : LatchedClose) (s : State) : (advanceDay c s).lnk = s.lnk.closed := by
  simp [advanceDay]

/-- A close start leaves the link without the frames of classes 1..7, but for the roster (R57, R60, R167). -/
theorem startClose_lnk (c : LatchedClose) (s : State) :
    (startClose c s).lnk = { s.lnk.closed with roster := (startClose c s).lnk.roster } := by
  rw [startClose_eq, applyDeferred_lnk, advanceDay_lnk]

/-! ### Frames that join and leave the queue -/

theorem State.QueueBounded.of_sublist {s t : State} (hs : s.QueueBounded) (h : t.lnk.queue.Sublist s.lnk.queue) :
    t.QueueBounded := by
  obtain ⟨hrequests, hstations⟩ := hs
  exact ⟨(h.filter _).length_le.trans hrequests, (h.filter _).length_le.trans hstations⟩

theorem State.QueueBounded.of_queue {s t : State} (hs : s.QueueBounded) (h : t.lnk.queue = s.lnk.queue) :
    t.QueueBounded :=
  hs.of_sublist (by rw [h])

theorem State.QueueBounded.of_lnk {s t : State} (hs : s.QueueBounded) (h : t.lnk = s.lnk) : t.QueueBounded :=
  hs.of_queue (by rw [h])

theorem State.queueBounded_of_nil {s : State} (h : s.lnk.queue = []) : s.QueueBounded := by
  simp [State.QueueBounded, Link.requestFrames, Link.stationFrames, h]

/-- The request frames after a frame has joined the tail. -/
theorem enqueue_requestFrames (f : TxFrame) (s : State) :
    (enqueue f s).lnk.requestFrames = s.lnk.requestFrames + if f.isRequest then 1 else 0 := by
  cases h : f.isRequest <;> simp [Link.requestFrames, h]

/-- The station frames after a frame has joined the tail. -/
theorem enqueue_stationFrames (f : TxFrame) (s : State) :
    (enqueue f s).lnk.stationFrames = s.lnk.stationFrames + if f.isRequest then 0 else 1 := by
  cases h : f.isRequest <;> simp [Link.stationFrames, h]

theorem enqueue_request_queueBounded {s : State} {f : TxFrame} (hs : s.QueueBounded) (hf : f.isRequest = true)
    (hfree : s.lnk.requestFrames < 12) : (enqueue f s).QueueBounded := by
  obtain ⟨-, hstations⟩ := hs
  simp only [State.QueueBounded, enqueue_requestFrames, enqueue_stationFrames, hf, if_true]
  omega

theorem enqueue_station_queueBounded {s : State} {f : TxFrame} (hs : s.QueueBounded) (hf : f.isRequest = false)
    (hfree : s.lnk.stationFrames < 4) : (enqueue f s).QueueBounded := by
  obtain ⟨hrequests, -⟩ := hs
  simp only [State.QueueBounded, enqueue_requestFrames, enqueue_stationFrames, hf]
  simp
  omega

/-- A taken offer finds fewer than 12 request frames queued (R49). -/
theorem requestFrames_of_offer {s : State} (h : s.offerRefusal = none) : s.lnk.requestFrames < 12 :=
  ((offerRefusal_none_iff s).mp h).2

/-! ### The backlog -/

theorem placeDaysum_queueBounded {s : State} (hs : s.QueueBounded) (hfree : s.lnk.stationFrames < 4) (day : Nat) :
    (placeDaysum day s).QueueBounded := by
  unfold placeDaysum
  dsimp only
  split
  · exact enqueue_station_queueBounded hs rfl hfree
  · exact (enqueue_station_queueBounded hs (f := .daysum day s.nextDaysumRead none) rfl hfree).of_lnk (by simp)

/-- A backlog item is a station frame, and moves into a free station place (R50). -/
theorem moveBacklogItem_queueBounded {s : State} (hs : s.QueueBounded) (hfree : s.lnk.stationFrames < 4) :
    (moveBacklogItem s).QueueBounded := by
  unfold moveBacklogItem
  dsimp only
  split
  · exact enqueue_station_queueBounded hs rfl hfree
  · split
    · split
      · exact enqueue_station_queueBounded hs rfl hfree
      · exact hs
    · split
      · next day rest _ => exact placeDaysum_queueBounded (s := { s with lnk.backlog.days := rest }) hs hfree day
      · exact hs

theorem fillStationPlaces_queueBounded (n : Nat) {s : State} (hs : s.QueueBounded) :
    (fillStationPlaces n s).QueueBounded := by
  induction n generalizing s with
  | zero => exact hs
  | succ n ih =>
    unfold fillStationPlaces
    split
    · next h => exact ih (moveBacklogItem_queueBounded hs h.1)
    · exact hs

theorem moveBacklog_queueBounded {s : State} (hs : s.QueueBounded) : (moveBacklog s).QueueBounded :=
  fillStationPlaces_queueBounded _ hs

theorem makeDaysumDue_queueBounded {s : State} (hs : s.QueueBounded) (day : Nat) :
    (makeDaysumDue day s).QueueBounded := by
  unfold makeDaysumDue
  split
  · exact hs
  · split
    · exact hs
    · exact moveBacklog_queueBounded (hs.of_queue rfl)

theorem makeCensusDue_queueBounded {s : State} (hs : s.QueueBounded) : (makeCensusDue s).QueueBounded :=
  moveBacklog_queueBounded (hs.of_queue rfl)

/-! ### Attempts -/

theorem dropHead_queueBounded {s : State} (hs : s.QueueBounded) : (dropHead s).QueueBounded :=
  hs.of_sublist (List.drop_sublist 1 _)

theorem formHeads_queueBounded (n : Nat) {s : State} (hs : s.QueueBounded) : (formHeads n s).QueueBounded := by
  induction n generalizing s with
  | zero => exact hs
  | succ n ih =>
    unfold formHeads
    split
    · exact hs
    · split
      · exact hs.of_queue rfl
      · exact ih (moveBacklog_queueBounded ((dropHead_queueBounded hs).of_lnk (by simp)))
      · exact ih (moveBacklog_queueBounded (dropHead_queueBounded hs))
      · exact hs.of_queue rfl

theorem beginAttempt_queueBounded {s : State} (hs : s.QueueBounded) : (beginAttempt s).QueueBounded :=
  formHeads_queueBounded _ hs

theorem dropFrame_queueBounded {s : State} (hs : s.QueueBounded) : (dropFrame s).QueueBounded := by
  unfold dropFrame
  split
  · exact hs
  · exact moveBacklog_queueBounded ((dropHead_queueBounded hs).of_lnk (by simp))

@[simp] theorem failAttempt_queue (s : State) : (failAttempt s).lnk.queue = s.lnk.queue := by simp [failAttempt]

@[simp] theorem fallSilent_queue (s : State) : (fallSilent s).lnk.queue = [] := by
  refine (foldl_keeps (·.lnk.queue) (fun acc f => endFrame f .silent acc) (by simp) _ _).trans ?_
  simp

theorem takeOwnFrame_queueBounded {s : State} (hs : s.QueueBounded) : (takeOwnFrame s).QueueBounded :=
  moveBacklog_queueBounded (State.QueueBounded.of_queue (dropHead_queueBounded hs) (by simp))

/-! ### Accepted frames and closes -/

theorem discardDamaged_queueBounded {s : State} (hs : s.QueueBounded) (drive : LinkDrive) :
    (discardDamaged drive s).QueueBounded := by
  unfold discardDamaged
  dsimp only
  split <;> exact hs.of_queue rfl

theorem acceptFrame_queueBounded {s : State} (hs : s.QueueBounded) (f : Frame) (apply : Option TxFrame → State → State)
    (ha : ∀ (own : Option TxFrame) (u : State), u.QueueBounded → (apply own u).QueueBounded) :
    (acceptFrame f apply s).QueueBounded := by
  unfold acceptFrame
  dsimp only
  split
  · exact hs
  · split
    · exact discardDamaged_queueBounded hs _
    · refine ha _ _ (State.QueueBounded.of_queue ?_ (refreshRoster_keeps _ _).2.2.2.2.2.2.2.1)
      split
      · exact takeOwnFrame_queueBounded hs
      · exact hs.of_queue rfl

theorem startClose_queueBounded {s : State} (hs : s.QueueBounded) (c : LatchedClose) : (startClose c s).QueueBounded :=
  hs.of_sublist (by rw [startClose_lnk]; exact List.filter_sublist)

theorem startLatched_queueBounded {s : State} (hs : s.QueueBounded) : (startLatched s).QueueBounded := by
  unfold startLatched
  split
  · exact hs
  · split
    · exact startClose_queueBounded hs _
    · exact hs

theorem beginClose_queueBounded {s : State} (hs : s.QueueBounded) (c : LatchedClose) :
    (beginClose c s).QueueBounded := by
  unfold beginClose
  split
  · exact startClose_queueBounded hs c
  · exact hs.of_queue rfl

theorem receiveDayFrame_lnk (f : Frame) (own : Option TxFrame) (s : State) :
    (receiveDayFrame f own s).lnk = s.lnk := by
  unfold receiveDayFrame
  split
  · simp
  · unfold deferFrame
    split <;> simp
  · simp
  · rfl

theorem acceptDayFrame_queueBounded {s : State} (hs : s.QueueBounded) (f : Frame) : (acceptDayFrame f s).QueueBounded :=
  acceptFrame_queueBounded hs f _ fun own u hu => hu.of_lnk (receiveDayFrame_lnk f own u)

theorem completeOwn_queueBounded {s : State} (hs : s.QueueBounded) (own : Option TxFrame) (code : ResultCode)
    (ticket : Option Nat) : (completeOwn own code ticket s).QueueBounded :=
  hs.of_lnk (by simp)

theorem applyDayClose_queueBounded {s : State} (hs : s.QueueBounded) (p : DayClosePayload) (own : Option TxFrame) :
    (applyDayClose p own s).QueueBounded := by
  unfold applyDayClose
  dsimp only
  split
  · refine completeOwn_queueBounded ?_ ..
    split
    · exact hs
    · exact beginClose_queueBounded hs _
  · split
    · refine completeOwn_queueBounded ?_ ..
      split
      · exact beginClose_queueBounded hs _
      · exact hs.of_queue rfl
    · exact completeOwn_queueBounded hs ..

theorem applyDaysum_lnk (origin : Nat) (p : DaysumPayload) (s : State) : (applyDaysum origin p s).lnk = s.lnk := by
  unfold applyDaysum
  split <;> simp

theorem applyDaysumAsk_queueBounded {s : State} (hs : s.QueueBounded) (day : BitVec 16) (own : Option TxFrame) :
    (applyDaysumAsk day own s).QueueBounded := by
  refine completeOwn_queueBounded ?_ ..
  split
  · exact makeDaysumDue_queueBounded hs _
  · exact hs

theorem applyCensusAsk_queueBounded {s : State} (hs : s.QueueBounded) (own : Option TxFrame) :
    (applyCensusAsk own s).QueueBounded := by
  unfold applyCensusAsk
  split
  · exact makeCensusDue_queueBounded hs
  · exact hs

theorem applyFigures_lnk (f : TicketFigures) (s : State) : (applyFigures f s).lnk = s.lnk := by
  unfold applyFigures takeFigures
  split
  · simp
  · split
    · dsimp only
      split <;> simp
    · rfl

theorem noteOpenCount_lnk (count : Nat) (s : State) : (noteOpenCount count s).lnk = s.lnk := by
  unfold noteOpenCount
  split <;> rfl

/-- A CENSUS_REPLY changes of the link its roster entry (R60). -/
theorem applyCensusReply_lnk (origin : Nat) (p : CensusReplyPayload) (s : State) :
    (applyCensusReply origin p s).lnk = (setRoster origin p.day.toNat none s).lnk := by
  simp [applyCensusReply, noteOpenCount_lnk, applyFigures_lnk]

theorem applyCensusTx_lnk (p : CensusTxPayload) (s : State) : (applyCensusTx p s).lnk = s.lnk := by
  unfold applyCensusTx openStub
  split
  · split <;> simp
  · rfl

/-- A BEACON changes of the link its roster entry (R60). -/
theorem applyBeacon_lnk (origin : Nat) (p : BeaconPayload) (s : State) :
    (applyBeacon origin p s).lnk = (setRoster origin p.day.toNat (some p.lockedOut) s).lnk := by
  simp [applyBeacon, applyFigures_lnk]

/-! ### Captures -/

theorem becomeIdle_queueBounded {s : State} (hs : s.QueueBounded) : (becomeIdle s).QueueBounded :=
  startLatched_queueBounded (hs.of_queue rfl)

theorem offerItem_queueBounded {s : State} (hs : s.QueueBounded) (i : Item) (serial : Nat) :
    (offerItem i serial s).QueueBounded := by
  unfold offerItem
  split
  · exact hs
  · split
    · next h => exact enqueue_request_queueBounded hs rfl (requestFrames_of_offer h)
    · exact hs.of_lnk (by simp)

theorem noted_lnk (i : Item) (set : List Match) (s : State) : (s.noted i set).lnk = s.lnk :=
  foldl_keeps (·.lnk) (fun acc k => queueEvent (.watchNote k s.lbl.nextSerial) acc) (by simp) _ _

theorem postItem_queueBounded {s : State} (hs : s.QueueBounded) (i : Item) (set : List Match) :
    (postItem i set s).QueueBounded := by
  have hoffered := offerItem_queueBounded (hs.of_lnk (noted_lnk i set s)) i s.lbl.nextSerial
  rw [postItem_eq]
  exact becomeIdle_queueBounded (hoffered.of_lnk (by simp))

theorem endCapture_queueBounded {s : State} (hs : s.QueueBounded) (tag : Nat) (result : ResultCode) :
    (endCapture tag result s).QueueBounded := by
  obtain ⟨-, -, -, hlnk, -⟩ := reported_keeps tag result s
  rw [endCapture_eq]
  exact becomeIdle_queueBounded (hs.of_lnk hlnk)

theorem completeCapture_queueBounded {s : State} (hs : s.QueueBounded) (r : CaptureRequest) (m : Measure) :
    (completeCapture r m s).QueueBounded := by
  unfold completeCapture
  extract_lets i set unit marked
  have hmarked : marked.QueueBounded := hs.of_queue rfl
  split
  · exact endCapture_queueBounded hs _ _
  · split
    · exact hs.of_lnk (by simp [marked])
    · split
      · exact endCapture_queueBounded hmarked _ _
      · exact postItem_queueBounded hmarked _ _

theorem stableReading_queueBounded {s : State} (hs : s.QueueBounded) (gross : Int) :
    (stableReading gross s).QueueBounded := by
  unfold stableReading
  split
  · exact hs
  · exact hs
  · dsimp only
    split
    · exact endCapture_queueBounded hs _ _
    · split
      · exact hs.of_queue rfl
      · split
        · exact hs.of_queue rfl
        · exact completeCapture_queueBounded hs _ _

/-! ### Requests -/

@[simp] theorem takeBlock_lnk (mosi : List Byte) (s : State) : (takeBlock mosi s).lnk = s.lnk := by
  unfold takeBlock
  split
  · rfl
  · split
    · rfl
    · dsimp only
      split
      · simp
      · split <;> simp

/-- The selection that carries a request changes the host port alone. -/
@[simp] theorem selection_lnk (mosi : List Byte) (s : State) : (selection mosi s).lnk = s.lnk := by
  unfold selection
  split
  · rfl
  · split <;> simp

/-- A request is the owner's taking, or the selection alone, in a state with the same link. -/
theorem serve_of_lnk (i : Instr) (owner : State → State) (s : State) :
    ∃ u : State, u.lnk = s.lnk ∧ (serve i owner s = .next (owner u) ∨ serve i owner s = .next u) := by
  cases hb : requestBlock i with
  | none => exact ⟨s, rfl, .inr (by simp [serve, hb])⟩
  | some b =>
    by_cases hs : s.hpt.slot = .taken b
    · exact ⟨s, rfl, .inl (serve_asked ⟨b, hb, hs⟩)⟩
    · refine ⟨selection (blockBytes b) s, by simp, ?_⟩
      rw [serve_selected hb hs]
      split
      · exact .inl rfl
      · exact .inr rfl

theorem serve_queueBounded (i : Instr) {owner : State → State}
    (ho : ∀ u : State, u.QueueBounded → (owner u).QueueBounded) {s t : State} (hs : s.QueueBounded)
    (h : serve i owner s = .next t) : t.QueueBounded := by
  obtain ⟨u, hu, ht | ht⟩ := serve_of_lnk i owner s <;> obtain rfl := Host.Outcome.next.inj (ht.symm.trans h)
  · exact ho u (hs.of_lnk hu)
  · exact hs.of_lnk hu

/-- A request frame is placed only where fewer than 12 are queued (R49). -/
theorem requestFrame_queueBounded {s : State} (hs : s.QueueBounded) (refusals : List (Bool × ResultCode))
    {claim : State → State} (hclaim : (claim s).lnk = s.lnk) {frame : Nat → TxFrame}
    (hframe : ∀ tag, (frame tag).isRequest = true) : (requestFrame refusals claim frame s).QueueBounded := by
  obtain ⟨r, -, -, h⟩ | ⟨code, -, h⟩ | ⟨hoffer, -, h⟩ := requestFrame_cases refusals claim frame s <;> rw [h]
  · exact hs.of_queue rfl
  · exact hs.of_queue rfl
  · have hfree : (claim s).lnk.requestFrames < 12 := by
      rw [hclaim]
      exact requestFrames_of_offer hoffer
    exact (enqueue_request_queueBounded (hs.of_lnk hclaim) (hframe (claim s).hpt.nextTag) hfree).of_lnk
      (by simp [placeFrame])

/-- A station begins with its CENSUS_ASK queued alone (R64). -/
theorem beginStation_queueBounded (s : State) : (beginStation s).QueueBounded := by
  have hqueue : (beginStation s).lnk.queue = [.censusAsk] := rfl
  simp only [State.QueueBounded, Link.requestFrames, Link.stationFrames, hqueue]
  decide

/-- A request that leaves the link keeps the queue. -/
theorem serve_queueBounded_of_lnk (i : Instr) {owner : State → State} (ho : ∀ u : State, (owner u).lnk = u.lnk)
    {s t : State} (hs : s.QueueBounded) (h : serve i owner s = .next t) : t.QueueBounded :=
  serve_queueBounded i (fun _ hu => hu.of_lnk (ho _)) hs h

theorem readJournalOwner_lnk (index : Byte) (s : State) : (readJournalOwner index s).lnk = s.lnk := by
  unfold readJournalOwner
  split
  · simp
  · split <;> simp

theorem takeLabelOwner_lnk (s : State) : (takeLabelOwner s).lnk = s.lnk := by
  unfold takeLabelOwner
  split <;> simp

theorem readOrderOwner_lnk (clerk : Byte) (s : State) : (readOrderOwner clerk s).lnk = s.lnk := by
  unfold readOrderOwner
  split <;> simp

theorem setWatchOwner_lnk (slot form kind : Byte) (value : BitVec 24) (action enable : Byte) (s : State) :
    (setWatchOwner slot form kind value action enable s).lnk = s.lnk := by
  unfold setWatchOwner
  split
  · simp
  · split <;> simp

theorem clearWatchStatusOwner_lnk (set : Byte) (s : State) : (clearWatchStatusOwner set s).lnk = s.lnk := by
  unfold clearWatchStatusOwner
  split <;> simp

theorem readTotalsOwner_lnk (group : Byte) (s : State) : (readTotalsOwner group s).lnk = s.lnk := by
  unfold readTotalsOwner
  split <;> simp

theorem readDayRecordOwner_lnk (index : Byte) (s : State) : (readDayRecordOwner index s).lnk = s.lnk := by
  unfold readDayRecordOwner
  split
  · simp
  · split <;> simp

theorem readFaultsOwner_lnk (index : Byte) (s : State) : (readFaultsOwner index s).lnk = s.lnk := by
  unfold readFaultsOwner
  split
  · simp
  · split <;> simp

theorem setTimeOwner_lnk (time : BitVec 24) (s : State) : (setTimeOwner time s).lnk = s.lnk := by
  unfold setTimeOwner
  split <;> simp

theorem takeEventOwner_lnk (s : State) : (takeEventOwner s).lnk = s.lnk := by
  unfold takeEventOwner
  split <;> simp

theorem zeroOwner_lnk (s : State) : (zeroOwner s).lnk = s.lnk := by
  unfold zeroOwner
  split
  · simp
  · split
    · simp
    · split
      · simp
      · dsimp only
        split <;> simp

theorem tareWeighOwner_lnk (s : State) : (tareWeighOwner s).lnk = s.lnk := by
  unfold tareWeighOwner
  split
  · simp
  · split
    · simp
    · dsimp only
      split <;> simp

theorem tareSetOwner_lnk (grams : BitVec 16) (s : State) : (tareSetOwner grams s).lnk = s.lnk := by
  unfold tareSetOwner
  split
  · simp
  · split <;> simp

theorem tareClearOwner_lnk (s : State) : (tareClearOwner s).lnk = s.lnk := by
  unfold tareClearOwner
  split <;> simp

theorem evaluateLowFlags_lnk (s : State) : (evaluateLowFlags s).lnk = s.lnk :=
  foldl_keeps (·.lnk) _ (fun acc a => by dsimp only; split <;> simp) allAttributes s

theorem configureOwner_lnk (c : ConfigBlock) (s : State) : (configureOwner c s).lnk = s.lnk := by
  unfold configureOwner
  split
  · simp
  · split
    · simp [evaluateLowFlags_lnk, takeSettings]
    · simp

theorem startOwner_queueBounded {s : State} (hs : s.QueueBounded) : (startOwner s).QueueBounded := by
  unfold startOwner
  split
  · exact hs.of_queue rfl
  · exact beginStation_queueBounded _

theorem restartOwner_queueBounded {s : State} (hs : s.QueueBounded) : (restartOwner s).QueueBounded := by
  unfold restartOwner
  split
  · exact hs.of_queue rfl
  · exact (beginStation_queueBounded _).of_lnk (evaluateLowFlags_lnk _)

theorem weighItemOwner_lnk (clerk : Byte) (plu : BitVec 24) (dept : Byte) (price : BitVec 24) (given : Byte)
    (tare : BitVec 16) (s : State) : (weighItemOwner clerk plu dept price given tare s).lnk = s.lnk := by
  unfold weighItemOwner
  dsimp only
  split <;> simp

theorem countItemOwner_queueBounded (clerk : Byte) (plu : BitVec 24) (dept : Byte) (price : BitVec 24) (quantity : Byte)
    {s : State} (hs : s.QueueBounded) : (countItemOwner clerk plu dept price quantity s).QueueBounded := by
  unfold countItemOwner
  dsimp only
  split
  · exact hs.of_queue rfl
  · exact completeCapture_queueBounded (hs.of_lnk (by simp)) _ _

theorem abortCaptureOwner_queueBounded {s : State} (hs : s.QueueBounded) : (abortCaptureOwner s).QueueBounded := by
  unfold abortCaptureOwner
  split
  · exact hs.of_queue rfl
  · split
    · exact hs.of_queue rfl
    · exact hs.of_queue rfl
    · exact endCapture_queueBounded (s := answer .ok [] s) hs _ _

theorem releaseHeldOwner_queueBounded {s : State} (hs : s.QueueBounded) : (releaseHeldOwner s).QueueBounded := by
  unfold releaseHeldOwner
  split
  · exact hs.of_queue rfl
  · split
    · exact hs.of_queue rfl
    · exact hs.of_queue rfl
    · split
      · exact hs.of_queue rfl
      · split
        · exact hs.of_queue rfl
        · exact postItem_queueBounded (s := answer .ok [] s) hs _ _

theorem discardHeldOwner_queueBounded {s : State} (hs : s.QueueBounded) : (discardHeldOwner s).QueueBounded := by
  unfold discardHeldOwner
  split
  · exact hs.of_queue rfl
  · split
    · exact hs.of_queue rfl
    · exact hs.of_queue rfl
    · exact becomeIdle_queueBounded (hs.of_lnk (by simp))

theorem joinDayOwner_queueBounded {s : State} (hs : s.QueueBounded) : (joinDayOwner s).QueueBounded := by
  unfold joinDayOwner
  split
  · exact hs.of_queue rfl
  · split
    · exact hs.of_queue rfl
    · exact startClose_queueBounded (s := answer .ok [] s) hs _

/-! ### The weighing channel and the store -/

theorem offerReading_queueBounded {s : State} (hs : s.QueueBounded) : (offerReading s).QueueBounded := by
  unfold offerReading
  split
  · exact stableReading_queueBounded hs _
  · exact hs

theorem arrival_queueBounded {s : State} (hs : s.QueueBounded) (count : Int) : (arrival count s).QueueBounded := by
  have hevaluated (u : State) : (evaluateArrival u).lnk = u.lnk := (evaluateArrival_keeps u).2.2.2.2.1
  have hrestored (u : State) : (restoreSamples u).lnk = u.lnk := (restoreSamples_keeps u).2.2.2.1
  unfold arrival
  split
  · exact hs.of_lnk (by simp [limitArrival])
  · split
    · exact hs.of_lnk (by simp [limitArrival])
    · unfold ordinaryArrival
      dsimp only
      split
      · exact hs.of_lnk (by simp)
      · exact offerReading_queueBounded (hs.of_lnk (by simp [hrestored, hevaluated]))

theorem handleFinds_lnk (finds : List Find) (s : State) : (handleFinds finds s).lnk = s.lnk :=
  foldl_keeps (·.lnk) (fun acc f => handleFind f acc) (by simp) finds s

theorem scrubStep_lnk (s : State) : (scrubStep s).lnk = s.lnk := by
  unfold scrubStep
  dsimp only
  split <;> simp

theorem runPending_lnk (s : State) : (runPending s).lnk = s.lnk := by
  have hsteps (n : Nat) (u : State) : (scrubSteps n u).lnk = u.lnk := by
    induction n generalizing u with
    | zero => rfl
    | succ n ih => exact (ih _).trans (scrubStep_lnk u)
  unfold runPending
  split
  · rfl
  · exact hsteps _ _

theorem scrubAfterOp_lnk (s : State) : (scrubAfterOp s).lnk = s.lnk := by
  unfold scrubAfterOp
  dsimp only
  split
  · exact runPending_lnk _
  · rfl

theorem scrubRequest_lnk (s : State) : (scrubRequest s).lnk = s.lnk := by
  unfold scrubRequest
  dsimp only
  split
  · exact runPending_lnk _
  · rfl

/-- The figures of a DAYSUM leave it the station frame that it is. -/
@[simp] theorem filled_isRequest (read : Nat) (figures : DayFigures) (f : TxFrame) :
    (f.filled read figures).isRequest = f.isRequest := by
  unfold TxFrame.filled
  split <;> rfl

theorem fillDaysum_queueBounded {s : State} (hs : s.QueueBounded) (read : Nat) (figures : DayFigures) :
    (fillDaysum read figures s).QueueBounded := by
  simpa [State.QueueBounded, Link.requestFrames, Link.stationFrames, fillDaysum, List.filter_map, Function.comp_def]
    using hs

theorem answerAwaited_queueBounded {s : State} (hs : s.QueueBounded) {answered : State → State}
    (h : (answered s).lnk = s.lnk) : (answerAwaited answered s).QueueBounded := by
  unfold answerAwaited
  split
  · exact hs.of_lnk h
  · exact hs

theorem journalAnswer_lnk (newest slot : Nat) (words : List JudgedWord) (s : State) :
    (journalAnswer newest slot words s).lnk = s.lnk := by
  unfold journalAnswer
  dsimp only
  split <;> simp

theorem totalsAnswer_lnk (g : TotalsGroup) (words : List JudgedWord) (s : State) :
    (totalsAnswer g words s).lnk = s.lnk := by
  cases g <;> rfl

theorem dayRecordAnswer_lnk (slot : Nat) (words : List JudgedWord) (s : State) :
    (dayRecordAnswer slot words s).lnk = s.lnk := by
  unfold dayRecordAnswer
  dsimp only
  split <;> simp

theorem faultAnswer_lnk (count newest slot : Nat) (words : List JudgedWord) (s : State) :
    (faultAnswer count newest slot words s).lnk = s.lnk := by
  unfold faultAnswer
  dsimp only
  split <;> simp

theorem finishRead_queueBounded {s : State} (hs : s.QueueBounded) (purpose : ReadPurpose) (words : List JudgedWord) :
    (finishRead purpose words s).QueueBounded := by
  cases purpose with
  | journal newest slot => exact answerAwaited_queueBounded hs (journalAnswer_lnk newest slot words s)
  | totals g => exact answerAwaited_queueBounded hs (totalsAnswer_lnk g words s)
  | dayRecord slot => exact answerAwaited_queueBounded hs (dayRecordAnswer_lnk slot words s)
  | fault count newest slot => exact answerAwaited_queueBounded hs (faultAnswer_lnk count newest slot words s)
  | daysum read =>
    have hfilled := fillDaysum_queueBounded hs read (daysumFigures words)
    unfold finishRead
    dsimp only
    split
    · exact beginAttempt_queueBounded (hfilled.of_queue rfl)
    · exact hfilled

theorem finishOp_queueBounded {s : State} (hs : s.QueueBounded) (op : Op) (e : OpEffect) :
    (finishOp op e s).QueueBounded := by
  unfold finishOp
  split
  · exact finishRead_queueBounded hs _ _
  · exact hs
  · exact hs
  · exact hs
  · exact hs
  · split
    · exact hs.of_lnk (by simp)
    · exact hs
  · exact hs
  · exact makeDaysumDue_queueBounded (hs.of_lnk (by simp)) _

theorem performOp_queueBounded {s : State} (hs : s.QueueBounded) (op : Op) (rest : List Op) :
    (performOp op rest s).QueueBounded := by
  have hfound := hs.of_lnk (handleFinds_lnk (runOp s.tst.mem op).finds
    { s with tst.mem := (runOp s.tst.mem op).mem, tst.ops := rest })
  exact (finishOp_queueBounded hfound op _).of_lnk (scrubAfterOp_lnk _)

theorem performHead_queueBounded {isKind : Op → Bool} {s t : State} (hs : s.QueueBounded)
    (h : performHead isKind s = .next t) : t.QueueBounded := by
  unfold performHead at h
  split at h <;> obtain rfl := Host.Outcome.next.inj h
  · exact hs
  · split
    · exact performOp_queueBounded hs _ _
    · exact hs

/-! ### Walks and store preparation -/

theorem walkWord_lnk (s : State) : (walkWord s).lnk = s.lnk := by rw [walkWord_eq]

theorem walkWords_lnk (n : Nat) (s : State) : (walkWords n s).lnk = s.lnk := by
  induction n generalizing s with
  | zero => rfl
  | succ n ih => exact (ih _).trans (walkWord_lnk s)

theorem loadLabels_lnk (s : State) : (loadLabels s).lnk = s.lnk := by
  unfold loadLabels
  dsimp only
  split <;> rfl

theorem loadDay_lnk (s : State) : (loadDay s).lnk = s.lnk := by
  unfold loadDay
  extract_lets m j0 j2 held day newest fresh s1 s2
  have h : s2.lnk = s.lnk := by
    unfold s2
    split <;> simp [s1]
  split <;> simp [h]

theorem loadAttribute_lnk (a : Attribute) (s : State) : (loadAttribute a s).lnk = s.lnk := by
  unfold loadAttribute
  extract_lets j0 j1 bad raw n stored worst r health s'
  split <;> simp [s']

theorem loadHealth_lnk (s : State) : (loadHealth s).lnk = s.lnk := by
  have h := foldl_keeps (·.lnk) (fun acc a => loadAttribute a acc) (fun acc a => loadAttribute_lnk a acc) allAttributes s
  unfold loadHealth loadFaultWord
  dsimp only at h ⊢
  split <;> simp [h]

theorem endPreparation_lnk (r : WalkResult) (s : State) : (endPreparation r s).lnk = s.lnk := by
  unfold endPreparation
  extract_lets finds s1 s2 s3 s4 s5 port store
  have h4 : s4.lnk = s.lnk := by
    unfold s4
    split <;> simp [s3, s2, s1, loadHealth_lnk, loadDay_lnk, loadLabels_lnk]
  exact (handleFinds_lnk finds s4).trans h4

theorem judgeCensus_lnk (s : State) : (judgeCensus s).lnk = s.lnk := by
  unfold judgeCensus
  split <;> simp

/-! ### Timers -/

theorem offerExpiry_queueBounded {s : State} (hs : s.QueueBounded) (clerk : Nat) (o : Order) :
    (offerExpiry clerk o s).QueueBounded := by
  unfold offerExpiry
  split
  · next h => exact enqueue_request_queueBounded (hs.of_lnk (by simp)) rfl (requestFrames_of_offer h)
  · exact hs.of_lnk (by simp)

theorem expireOrder_queueBounded {s : State} (hs : s.QueueBounded) (clerk : Nat) (o : Order) :
    (expireOrder clerk o s).QueueBounded := by
  unfold expireOrder
  dsimp only
  refine offerExpiry_queueBounded ?_ _ _
  split
  · exact hs
  · exact hs.of_lnk (by simp)

theorem tick_queueBounded {s : State} (hs : s.QueueBounded) : (tick s).QueueBounded := by
  unfold tick
  split
  · exact hs.of_queue (by simp [walkWord_lnk])
  · exact hs

/-! ### Every step -/

theorem beginPreparation_queueBounded (kind : WalkKind) (straps : Straps) (m : Memory) (pending : List Instr) :
    (beginPreparation kind straps m pending).QueueBounded :=
  State.queueBounded_of_nil (by cases kind <;> rfl)

theorem fresh_queueBounded (power : Power) (straps : Straps) (m : Memory) (walk : Option Walk) (pending : List Instr) :
    (State.fresh power straps m walk pending).QueueBounded :=
  State.queueBounded_of_nil rfl

/-- A command that ends in a next state keeps the bounds of the queue. -/
theorem exec_queueBounded {i : Instr} {s t : State} (hs : s.QueueBounded) (h : exec i s = .next t) :
    t.QueueBounded := by
  cases i with
  | powerOn straps retainOk =>
    obtain rfl := Host.Outcome.next.inj h
    split
    · exact fresh_queueBounded ..
    · exact beginPreparation_queueBounded ..
  | mainPowerFail =>
    obtain rfl := Host.Outcome.next.inj h
    exact fresh_queueBounded ..
  | resetAssert =>
    obtain rfl := Host.Outcome.next.inj h
    split
    · exact hs
    · exact hs
    · exact hs
    · exact fresh_queueBounded ..
  | resetRelease straps =>
    obtain rfl := Host.Outcome.next.inj h
    split
    · exact hs
    · exact hs
    · exact hs
    · exact beginPreparation_queueBounded ..
  | verificationWalkEnd =>
    simp only [exec, execVerificationWalkEnd] at h
    split at h
    · split at h <;> obtain rfl := Host.Outcome.next.inj h
      · exact hs.of_lnk (walkWords_lnk _ s)
      · refine hs.of_lnk ((endPreparation_lnk _ _).trans ?_)
        split <;> simp [walkWords_lnk]
    · obtain rfl := Host.Outcome.next.inj h
      exact hs
  | initializationWalkEnd =>
    simp only [exec, execInitializationWalkEnd] at h
    split at h <;> obtain rfl := Host.Outcome.next.inj h
    · exact hs.of_lnk ((endPreparation_lnk _ _).trans (walkWords_lnk _ s))
    · exact hs
  | selectionEnd mosi =>
    obtain rfl := Host.Outcome.next.inj h
    exact hs.of_lnk (selection_lnk mosi s)
  | configure c => exact serve_queueBounded_of_lnk (.configure c) (configureOwner_lnk c) hs h
  | start => exact serve_queueBounded .start (fun _ hu => startOwner_queueBounded hu) hs h
  | restart => exact serve_queueBounded .restart (fun _ hu => restartOwner_queueBounded hu) hs h
  | setTime time => exact serve_queueBounded_of_lnk (.setTime time) (setTimeOwner_lnk time) hs h
  | readStatus => exact serve_queueBounded_of_lnk .readStatus (owner := readStatusOwner) (fun _ => rfl) hs h
  | takeEvent => exact serve_queueBounded_of_lnk .takeEvent takeEventOwner_lnk hs h
  | zero => exact serve_queueBounded_of_lnk .zero zeroOwner_lnk hs h
  | tareWeigh => exact serve_queueBounded_of_lnk .tareWeigh tareWeighOwner_lnk hs h
  | tareSet grams => exact serve_queueBounded_of_lnk (.tareSet grams) (tareSetOwner_lnk grams) hs h
  | tareClear => exact serve_queueBounded_of_lnk .tareClear tareClearOwner_lnk hs h
  | readWeight => exact serve_queueBounded_of_lnk .readWeight (owner := readWeightOwner) (fun _ => rfl) hs h
  | weighItem clerk plu dept price given tare =>
    exact serve_queueBounded_of_lnk (.weighItem clerk plu dept price given tare)
      (weighItemOwner_lnk clerk plu dept price given tare) hs h
  | countItem clerk plu dept price quantity =>
    exact serve_queueBounded (.countItem clerk plu dept price quantity)
      (fun _ hu => countItemOwner_queueBounded clerk plu dept price quantity hu) hs h
  | abortCapture => exact serve_queueBounded .abortCapture (fun _ hu => abortCaptureOwner_queueBounded hu) hs h
  | releaseHeld => exact serve_queueBounded .releaseHeld (fun _ hu => releaseHeldOwner_queueBounded hu) hs h
  | discardHeld => exact serve_queueBounded .discardHeld (fun _ hu => discardHeldOwner_queueBounded hu) hs h
  | setWatch slot form kind value action enable =>
    exact serve_queueBounded_of_lnk (.setWatch slot form kind value action enable)
      (setWatchOwner_lnk slot form kind value action enable) hs h
  | clearWatchStatus slots =>
    exact serve_queueBounded_of_lnk (.clearWatchStatus slots) (clearWatchStatusOwner_lnk slots) hs h
  | readWatches => exact serve_queueBounded_of_lnk .readWatches (owner := readWatchesOwner) (fun _ => rfl) hs h
  | takeLabel => exact serve_queueBounded_of_lnk .takeLabel takeLabelOwner_lnk hs h
  | readJournal index => exact serve_queueBounded_of_lnk (.readJournal index) (readJournalOwner_lnk index) hs h
  | issueTicket =>
    exact serve_queueBounded .issueTicket (fun _ hu => requestFrame_queueBounded hu _ rfl fun _ => rfl) hs h
  | callNext clerk =>
    exact serve_queueBounded (.callNext clerk) (fun _ hu => requestFrame_queueBounded hu _ rfl fun _ => rfl) hs h
  | passTicket clerk =>
    exact serve_queueBounded (.passTicket clerk) (fun _ hu => requestFrame_queueBounded hu _ rfl fun _ => rfl) hs h
  | readTickets => exact serve_queueBounded_of_lnk .readTickets (owner := readTicketsOwner) (fun _ => rfl) hs h
  | totalOrder clerk =>
    exact serve_queueBounded (.totalOrder clerk) (fun _ hu => requestFrame_queueBounded hu _ rfl fun _ => rfl) hs h
  | cancelOrder clerk =>
    exact serve_queueBounded (.cancelOrder clerk) (fun _ hu => requestFrame_queueBounded hu _ rfl fun _ => rfl) hs h
  | voidLine clerk line =>
    exact serve_queueBounded (.voidLine clerk line) (fun _ hu => requestFrame_queueBounded hu _ rfl fun _ => rfl) hs h
  | readOrder clerk => exact serve_queueBounded_of_lnk (.readOrder clerk) (readOrderOwner_lnk clerk) hs h
  | closeDay forced =>
    exact serve_queueBounded (.closeDay forced) (fun _ hu => requestFrame_queueBounded hu _ rfl fun _ => rfl) hs h
  | joinDay => exact serve_queueBounded .joinDay (fun _ hu => joinDayOwner_queueBounded hu) hs h
  | askDaysum day =>
    exact serve_queueBounded (.askDaysum day) (fun _ hu => requestFrame_queueBounded hu _ rfl fun _ => rfl) hs h
  | readDayRecord index => exact serve_queueBounded_of_lnk (.readDayRecord index) (readDayRecordOwner_lnk index) hs h
  | readTotals group => exact serve_queueBounded_of_lnk (.readTotals group) (readTotalsOwner_lnk group) hs h
  | readHealth => exact serve_queueBounded_of_lnk .readHealth (owner := readHealthOwner) (fun _ => rfl) hs h
  | readFaults index => exact serve_queueBounded_of_lnk (.readFaults index) (readFaultsOwner_lnk index) hs h
  | clearStoreLatch =>
    exact serve_queueBounded_of_lnk .clearStoreLatch (owner := clearStoreLatchOwner) (fun _ => rfl) hs h
  | readRoster => exact serve_queueBounded_of_lnk .readRoster (owner := readRosterOwner) (fun _ => rfl) hs h
  | sampleArrival bits value =>
    obtain rfl := Host.Outcome.next.inj h
    split
    · exact arrival_queueBounded hs _
    · exact hs
  | sampleWatchdogExpiry =>
    obtain rfl := Host.Outcome.next.inj h
    obtain ⟨-, -, -, hlnk, -⟩ := loseSamples_keeps s
    split
    · exact hs.of_lnk hlnk
    · exact hs
  | captureTimerExpiry =>
    simp only [exec, execCaptureTimerExpiry] at h
    split at h <;> obtain rfl := Host.Outcome.next.inj h
    · exact endCapture_queueBounded hs _ _
    · exact hs
    · exact hs
  | holdTimerExpiry =>
    simp only [exec, execHoldTimerExpiry] at h
    split at h <;> obtain rfl := Host.Outcome.next.inj h
    · exact becomeIdle_queueBounded (hs.of_lnk (by simp))
    · exact hs
    · exact hs
  | beaconTimerExpiry =>
    obtain rfl := Host.Outcome.next.inj h
    split
    · split
      · next hempty =>
        have hnone : s.lnk.stationFrames = 0 := by simp [Link.stationFrames, List.isEmpty_iff.mp hempty]
        exact (enqueue_station_queueBounded hs (f := .beacon) rfl (by omega)).of_queue rfl
      · exact hs.of_queue rfl
    · exact hs
  | censusTimerExpiry =>
    obtain rfl := Host.Outcome.next.inj h
    split
    · exact hs.of_queue (by simp [endCensus, judgeCensus_lnk])
    · exact hs
  | rosterAgeExpiry station =>
    obtain rfl := Host.Outcome.next.inj h
    split
    · exact hs
    · split
      · exact hs
      · exact hs.of_queue rfl
  | orderExpiry clerk =>
    simp only [exec, execOrderExpiry] at h
    split at h <;> obtain rfl := Host.Outcome.next.inj h
    · exact hs
    · split
      · exact expireOrder_queueBounded hs _ _
      · exact hs
  | timeOfDayTick =>
    obtain rfl := Host.Outcome.next.inj h
    split
    · exact hs.of_queue rfl
    · exact hs
  | scrubRequest =>
    obtain rfl := Host.Outcome.next.inj h
    split
    · exact hs.of_lnk (scrubRequest_lnk s)
    · exact hs
  | storeRead | storeUpdate | itemPosting | journalAppend | takenFlagUpdate | counterUpdate | recordWrite | closeCopy =>
    exact performHead_queueBounded hs h
  | linkAttemptStart =>
    obtain rfl := Host.Outcome.next.inj h
    split
    · exact beginAttempt_queueBounded hs
    · exact hs
  | arbitrationLost =>
    obtain rfl := Host.Outcome.next.inj h
    split
    · exact hs.of_queue rfl
    · exact hs
  | attemptBitError =>
    obtain rfl := Host.Outcome.next.inj h
    have hfailed : (failAttempt { s with lnk.clash := s.lnk.clash + 1 }).QueueBounded := hs.of_queue (failAttempt_queue _)
    split
    · exact hs
    · dsimp only
      split
      · exact State.queueBounded_of_nil (fallSilent_queue _)
      · split
        · exact dropFrame_queueBounded hfailed
        · exact hfailed
  | attemptObjected =>
    obtain rfl := Host.Outcome.next.inj h
    have hfailed : (failAttempt s).QueueBounded := hs.of_queue (failAttempt_queue s)
    split
    · exact hs
    · dsimp only
      split
      · exact dropFrame_queueBounded hfailed
      · exact hfailed
  | frameDamaged frame =>
    obtain rfl := Host.Outcome.next.inj h
    split
    · exact hs
    · split
      · exact hs.of_queue rfl
      · exact discardDamaged_queueBounded hs _
  | dayCloseAccepted origin p =>
    obtain rfl := Host.Outcome.next.inj h
    exact acceptFrame_queueBounded hs _ _ fun own _ hu => applyDayClose_queueBounded hu p own
  | callAccepted | issueAccepted | passAccepted | txCloseAccepted | txCancelAccepted | voidAccepted | itemAccepted =>
    obtain rfl := Host.Outcome.next.inj h
    exact acceptDayFrame_queueBounded hs _
  | daysumAccepted origin p =>
    obtain rfl := Host.Outcome.next.inj h
    exact acceptFrame_queueBounded hs _ _ fun _ u hu => hu.of_lnk (applyDaysum_lnk origin.toNat p u)
  | daysumAskAccepted origin day =>
    obtain rfl := Host.Outcome.next.inj h
    exact acceptFrame_queueBounded hs _ _ fun own _ hu => applyDaysumAsk_queueBounded hu day own
  | censusAskAccepted origin =>
    obtain rfl := Host.Outcome.next.inj h
    exact acceptFrame_queueBounded hs _ _ fun own _ hu => applyCensusAsk_queueBounded hu own
  | censusReplyAccepted origin p =>
    obtain rfl := Host.Outcome.next.inj h
    exact acceptFrame_queueBounded hs _ _ fun _ u hu => hu.of_queue (by simp [applyCensusReply_lnk])
  | censusTxAccepted origin p =>
    obtain rfl := Host.Outcome.next.inj h
    exact acceptFrame_queueBounded hs _ _ fun _ u hu => hu.of_lnk (applyCensusTx_lnk p u)
  | beaconAccepted origin p =>
    obtain rfl := Host.Outcome.next.inj h
    exact acceptFrame_queueBounded hs _ _ fun _ u hu => hu.of_queue (by simp [applyBeacon_lnk])
  | closeStart =>
    obtain rfl := Host.Outcome.next.inj h
    exact startLatched_queueBounded hs
  | vretDisturbance address flips =>
    obtain rfl := Host.Outcome.next.inj h
    exact hs

end Sys2Proof.Machine

namespace Sys2Proof.Machine

/-- Settles O6: every command keeps the bounds, and so does the passing of time. -/
theorem stepKeepsTheQueueBounded : Obligations.StepKeepsTheQueueBounded := by
  intro s t hs h
  unfold step at h
  split at h
  · obtain rfl := Host.Outcome.next.inj h
    exact tick_queueBounded hs
  · next c rest _ => exact exec_queueBounded (i := c) (s := { s with pending := rest }) hs h

end Sys2Proof.Machine
end

section
/-! The proof that the state after reset is sound. -/

namespace Sys2Proof.Machine

/-- What every reset leaves is within the bounds of the port, the tables and the label places. -/
theorem State.fresh_portBounded (power : Power) (straps : Straps) (m : Memory) (walk : Option Walk)
    (pending : List Instr) : (State.fresh power straps m walk pending).PortBounded := by
  simp [State.PortBounded, State.fresh, HostPort.atReset]

theorem State.fresh_latchedWhileBusy (power : Power) (straps : Straps) (m : Memory) (walk : Option Walk)
    (pending : List Instr) : (State.fresh power straps m walk pending).LatchedWhileBusy :=
  fun h => absurd rfl h

theorem State.fresh_waitingSound (power : Power) (straps : Straps) (m : Memory) (walk : Option Walk)
    (pending : List Instr) : (State.fresh power straps m walk pending).WaitingSound := by
  simp [State.WaitingSound, State.fresh, TicketUnit.atReset]

theorem State.fresh_ordersSound (power : Power) (straps : Straps) (m : Memory) (walk : Option Walk)
    (pending : List Instr) : (State.fresh power straps m walk pending).OrdersSound := by
  simp [State.OrdersSound, State.fresh, ClerkTable.atReset, DayUnit.atReset, Table.sorted]

theorem State.fresh_labelsSound (power : Power) (straps : Straps) (m : Memory) (walk : Option Walk)
    (pending : List Instr) : (State.fresh power straps m walk pending).LabelsSound := by
  simp [State.LabelsSound, State.AttemptSound, State.fresh, LabelUnit.atReset, Link.atReset]

/-- The initialization mark stands and the walk has cleared no amount yet (R156). -/
theorem State.reset_amountsInStep : State.reset.AmountsInStep := by
  have hmarked : (Memory.read State.reset.tst.mem 4).data % 2 = 1 := by decide
  refine ⟨by simp [State.reset, State.fresh, Store.atReset], ?_, by decide, by decide, rfl, hmarked, by decide⟩
  simp [State.reset, State.fresh, CaptureUnit.atReset, Capture.dept?]

/-- Settles O4: the invariants, one by one. -/
theorem resetMeetsTheInvariants : Obligations.ResetMeetsTheInvariants :=
  ⟨State.reset_wf, fresh_queueBounded .., State.fresh_portBounded .., State.fresh_latchedWhileBusy _ _ _ _ _,
    State.fresh_waitingSound .., State.fresh_ordersSound .., State.fresh_labelsSound .., State.fresh_zeroSound ..,
    State.reset_amountsInStep⟩

end Sys2Proof.Machine
end

section
/-! SUPPORT and the proof that a sent frame is read back: the fields of a payload and their bytes. -/

namespace Sys2Proof.Machine

/-! ### Fields and their bytes -/

theorem joined_bytes16 (v : BitVec 16) : v.extractLsb' 8 8 ++ v.extractLsb' 0 8 = v := by
  rw [BitVec.extractLsb'_append_extractLsb'_eq_extractLsb' (by rfl), BitVec.extractLsb'_eq_self]

theorem joined_bytes24 (v : BitVec 24) : v.extractLsb' 16 8 ++ v.extractLsb' 8 8 ++ v.extractLsb' 0 8 = v := by
  rw [BitVec.extractLsb'_append_extractLsb'_eq_extractLsb' (by rfl), BitVec.extractLsb'_append_extractLsb'_eq_extractLsb' (by rfl),
    BitVec.extractLsb'_eq_self]

theorem joined_bytes32 (v : BitVec 32) :
    v.extractLsb' 24 8 ++ v.extractLsb' 16 8 ++ v.extractLsb' 8 8 ++ v.extractLsb' 0 8 = v := by
  rw [BitVec.extractLsb'_append_extractLsb'_eq_extractLsb' (by rfl), BitVec.extractLsb'_append_extractLsb'_eq_extractLsb' (by rfl),
    BitVec.extractLsb'_append_extractLsb'_eq_extractLsb' (by rfl), BitVec.extractLsb'_eq_self]

/-! ### The flag bytes of Table 3-4 -/

theorem flagByte_read : ∀ b : Bool, (flagByte b).extractLsb' 1 7 = 0 ∧ (flagByte b).getLsbD 0 = b := by decide

/-- The byte of count flag and clerk of an ITEM. -/
theorem itemByte_read : ∀ (k : Bool) (c : BitVec 5),
    (BitVec.ofBool k ++ (0 : BitVec 2) ++ c).extractLsb' 5 2 = 0
      ∧ (BitVec.ofBool k ++ (0 : BitVec 2) ++ c).getLsbD 7 = k
      ∧ (BitVec.ofBool k ++ (0 : BitVec 2) ++ c).extractLsb' 0 5 = c := by decide

/-- The flags of a CENSUS_REPLY. -/
theorem replyByte_read : ∀ w u : Bool,
    ((0 : BitVec 6) ++ BitVec.ofBool w ++ BitVec.ofBool u).extractLsb' 2 6 = 0
      ∧ ((0 : BitVec 6) ++ BitVec.ofBool w ++ BitVec.ofBool u).getLsbD 1 = w
      ∧ ((0 : BitVec 6) ++ BitVec.ofBool w ++ BitVec.ofBool u).getLsbD 0 = u := by decide

/-- The holder byte of a CENSUS_TX. -/
theorem holderByte_read : ∀ h : BitVec 4,
    ((0 : BitVec 4) ++ h).extractLsb' 4 4 = 0 ∧ ((0 : BitVec 4) ++ h).extractLsb' 0 4 = h := by decide

/-- The flags of a BEACON. -/
theorem beaconByte_read : ∀ w u l : Bool,
    ((0 : BitVec 5) ++ BitVec.ofBool w ++ BitVec.ofBool u ++ BitVec.ofBool l).extractLsb' 3 5 = 0
      ∧ ((0 : BitVec 5) ++ BitVec.ofBool w ++ BitVec.ofBool u ++ BitVec.ofBool l).getLsbD 2 = w
      ∧ ((0 : BitVec 5) ++ BitVec.ofBool w ++ BitVec.ofBool u ++ BitVec.ofBool l).getLsbD 1 = u
      ∧ ((0 : BitVec 5) ++ BitVec.ofBool w ++ BitVec.ofBool u ++ BitVec.ofBool l).getLsbD 0 = l := by decide

/-! ### Payloads and envelopes -/

/-- The bytes of a payload spell it again (Tables 3-3, 3-4 and 3-10). -/
theorem payloadOf_payloadBytes (p : Payload) : payloadOf (payloadClass p) (payloadBytes p) = some p := by
  cases p with
  | dayClose q =>
    change (if _ then some (Payload.dayClose ⟨_ ++ _, _⟩) else none) = _
    obtain ⟨hzero, hforced⟩ := flagByte_read q.forced
    rw [joined_bytes16, hforced, if_pos hzero]
  | call q =>
    change some (Payload.call ⟨_, _ ++ _, _⟩) = _
    rw [joined_bytes16]
  | issue q =>
    change some (Payload.issue ⟨_, _ ++ _⟩) = _
    rw [joined_bytes16]
  | pass q =>
    change some (Payload.pass ⟨_, _ ++ _, _⟩) = _
    rw [joined_bytes16]
  | txClose q =>
    change some (Payload.txClose ⟨_, _, _ ++ _, _, _ ++ _ ++ _ ++ _⟩) = _
    rw [joined_bytes16, joined_bytes32]
  | txCancel q => rfl
  | voidLine q =>
    change some (Payload.voidLine ⟨_, _, _, _ ++ _ ++ _⟩) = _
    rw [joined_bytes24]
  | item q =>
    change (if _ then some (Payload.item ⟨_, _, _, _, _ ++ _ ++ _, _, _ ++ _ ++ _, _ ++ _, _ ++ _ ++ _⟩) else none) = _
    obtain ⟨hzero, hcount, hclerk⟩ := itemByte_read q.byCount q.clerk
    rw [joined_bytes24, joined_bytes24, joined_bytes16, joined_bytes24, hcount, hclerk, if_pos hzero]
  | daysum q =>
    change some (Payload.daysum ⟨_ ++ _, _ ++ _ ++ _ ++ _, _ ++ _ ++ _, _ ++ _, _ ++ _ ++ _ ++ _⟩) = _
    rw [joined_bytes16, joined_bytes32, joined_bytes24, joined_bytes16, joined_bytes32]
  | daysumAsk d =>
    change some (Payload.daysumAsk (_ ++ _)) = _
    rw [joined_bytes16]
  | censusAsk => rfl
  | censusReply q =>
    change (if _ then some (Payload.censusReply ⟨_ ++ _, _, _, _ ++ _, _ ++ _, _⟩) else none) = _
    obtain ⟨hzero, hwrap, huntracked⟩ := replyByte_read q.wrap999 q.untracked
    rw [joined_bytes16, joined_bytes16, joined_bytes16, hwrap, huntracked, if_pos hzero]
  | censusTx q =>
    change (if _ then some (Payload.censusTx ⟨_, _ ++ _, _, _ ++ _ ++ _ ++ _, _⟩) else none) = _
    obtain ⟨hzero, hholder⟩ := holderByte_read q.holder
    rw [joined_bytes16, joined_bytes32, hholder, if_pos hzero]
  | beacon q =>
    change (if _ then some (Payload.beacon ⟨_ ++ _, _, _, _, _ ++ _, _ ++ _⟩) else none) = _
    obtain ⟨hzero, hwrap, huntracked, hlocked⟩ := beaconByte_read q.wrap999 q.untracked q.lockedOut
    rw [joined_bytes16, joined_bytes16, joined_bytes16, hwrap, huntracked, hlocked, if_pos hzero]

/-- Each class has its length (Table 3-2). -/
theorem classLength_payloadBytes (p : Payload) : classLength (payloadClass p) = some (payloadBytes p).length := by
  cases p <;> rfl

/-- A payload length fits its field of four bits. -/
theorem payloadBytes_length_lt (p : Payload) : (payloadBytes p).length < 16 := by
  cases p <;> simp [payloadBytes, bytes16, bytes24, bytes32]

theorem payloadClass_lt (p : Payload) : payloadClass p < 14 := by
  cases p <;> simp [payloadClass]

/-- The class that a receiver reads from an arbitration field (R47). -/
theorem receivedClass_sentEnvelope (f : Frame) : receivedClass (sentEnvelope f) = payloadClass f.payload := by
  have hclass := payloadClass_lt f.payload
  have hhigh : (arbitrationField f).extractLsb' 4 4 = BitVec.ofNat 4 (payloadClass f.payload) :=
    BitVec.extractLsb'_append_eq_left
  rw [receivedClass, sentEnvelope, hhigh, BitVec.toNat_ofNat, Nat.mod_eq_of_lt (by omega)]

/-- The origin that a receiver reads from an arbitration field (R47). -/
theorem origin_arbitrationField (f : Frame) : (arbitrationField f).extractLsb' 0 4 = f.origin :=
  BitVec.extractLsb'_append_eq_right

theorem length_sentEnvelope (f : Frame) : (sentEnvelope f).length.toNat = (payloadBytes f.payload).length := by
  rw [sentEnvelope, BitVec.toNat_ofNat, Nat.mod_eq_of_lt (payloadBytes_length_lt f.payload)]

/-- Settles O14: the envelope passes each judgement of a receiver, and its bytes spell the payload. -/
theorem sentFramesAreReadBack : Obligations.SentFramesAreReadBack := by
  intro f hrange
  have hlength := length_sentEnvelope f
  have hclass := receivedClass_sentEnvelope f
  have hbytes : (sentEnvelope f).bytes = payloadBytes f.payload := rfl
  have hcheck : checkWord (sentEnvelope f).arbitration (sentEnvelope f).length (payloadBytes f.payload)
      = (sentEnvelope f).check := by simp only [sentEnvelope]
  have horigin : (sentEnvelope f).arbitration.extractLsb' 0 4 = f.origin := origin_arbitrationField f
  have hwhole : (sentEnvelope f).truncated = false := rfl
  simp [receivedFrame, hwhole, hcheck, hbytes, hlength, hclass, classLength_payloadBytes, payloadOf_payloadBytes, hrange,
    horigin]

end Sys2Proof.Machine
end

section
/-! SUPPORT and the proofs about the requests that place a frame: their refusals in order, and their acceptance. -/

namespace Sys2Proof.Machine

/-! ### The tables of refusals -/

/-- A request whose conditions are all false places its frame where the link takes it (R49). -/
theorem requestFrame_placed {rows : List (Bool × ResultCode)} {s : State} (hrows : ∀ r ∈ rows, r.1 = false)
    (htakes : s.TakesFrame) (claim : State → State) (frame : Nat → TxFrame) :
    requestFrame rows claim frame s = placeFrame frame (claim s) := by
  have hfind : rows.find? Prod.fst = none := by simpa using hrows
  simp [requestFrame, hfind, (offerRefusal_none_iff s).mpr htakes]

theorem requestFrame_cons (b : Bool) (code : ResultCode) (rows : List (Bool × ResultCode)) (claim : State → State)
    (frame : Nat → TxFrame) (s : State) :
    requestFrame ((b, code) :: rows) claim frame s = if b then refuse code s else requestFrame rows claim frame s := by
  cases b <;> rfl

/-- The row of a table as the model judges it: the same code, and the condition decided. -/
def Decides (row : Bool × ResultCode) (stated : Prop × ResultCode) : Prop :=
  (row.1 = true ↔ stated.1) ∧ row.2 = stated.2

/-- A request that places a frame is refused by the rows of its table in their order, then by the two of the link
(R49). -/
theorem firstFrameRefusal_of_rows {i : Instr} {rows : List (Bool × ResultCode)} {stated : List (Prop × ResultCode)}
    {claim : State → State} {frame : Nat → TxFrame} {s : State}
    (hexec : exec i s = .next (requestFrame rows claim frame s)) (hoff : s.lnk.state ≠ .off)
    (hrows : List.Forall₂ Decides rows stated) : s.FirstFrameRefusal i stated := by
  induction hrows with
  | nil =>
    refine ⟨fun hsilent => ?_, fun hheard => ⟨fun hfull => ?_, fun _ => trivial⟩⟩
    · have hoffer : s.offerRefusal = some .linkSilent := by simp [State.offerRefusal, hsilent]
      simp [hexec, requestFrame, hoffer]
    · have hoffer : s.offerRefusal = some .linkFull := by simp_all [State.offerRefusal]
      simp [hexec, requestFrame, hoffer]
  | @cons row statedRow _ _ hrow _ ih =>
    obtain ⟨b, code⟩ := row
    obtain ⟨condition, _⟩ := statedRow
    obtain ⟨hcondition, rfl⟩ : (b = true ↔ condition) ∧ code = _ := hrow
    rw [requestFrame_cons] at hexec
    refine ⟨fun h => ?_, fun h => ih ?_⟩
    · rw [hexec, if_pos (hcondition.mpr h)]
    · rw [hexec, if_neg (mt hcondition.mp h)]

/-! ### The conditions -/

theorem clerkInRange_iff (c : Byte) : clerkInRange c = true ↔ 1 ≤ c.toNat ∧ c.toNat ≤ 24 := by
  simp [clerkInRange, within]

theorem clerkInRange_false_iff (c : Byte) : clerkInRange c = false ↔ c.toNat = 0 ∨ 24 < c.toNat := by
  rw [← Bool.not_eq_true, clerkInRange_iff]
  omega

theorem notRunning_iff (s : State) : s.notRunning = true ↔ s.hpt.runState ≠ .running := by simp [State.notRunning]

theorem holdsLines_iff (s : State) (clerk : Nat) : holdsLines (s.order clerk) = true ↔ s.ServesLines clerk := by
  unfold State.ServesLines
  cases s.order clerk <;> simp [holdsLines]

/-- The clerk's order holds the line, not void (R103). -/
theorem holdsLine_iff (o : Order) (line : Nat) : o.holdsLine line = true ↔ ∃ l, o.line line = some l ∧ l.voided = false := by
  unfold Order.holdsLine
  cases o.line line <;> simp

theorem no_line_iff (o : Option Order) (line : Nat) : (o.map fun x => x.holdsLine line).getD false = false
    ↔ ∀ x l, o = some x → x.line line = some l → l.voided = true := by
  cases o with
  | none => simp
  | some x =>
    have hother : (∀ y l, some x = some y → y.line line = some l → l.voided = true)
        ↔ ∀ l, x.line line = some l → l.voided = true :=
      ⟨fun h l => h x l rfl, fun h y l hy => by obtain rfl := Option.some.inj hy; exact h l⟩
    rw [hother]
    cases h : x.line line <;> simp [Order.holdsLine, h]

/-! ### The eight requests at their owners -/

theorem exec_issueTicket {s : State} (h : s.asked .issueTicket) :
    exec .issueTicket s = .next (issueTicketOwner s) :=
  serve_asked h

theorem exec_callNext {clerk : Byte} {s : State} (h : s.asked (.callNext clerk)) :
    exec (.callNext clerk) s = .next (callNextOwner clerk s) :=
  serve_asked h

theorem exec_passTicket {clerk : Byte} {s : State} (h : s.asked (.passTicket clerk)) :
    exec (.passTicket clerk) s = .next (passTicketOwner clerk s) :=
  serve_asked h

theorem exec_totalOrder {clerk : Byte} {s : State} (h : s.asked (.totalOrder clerk)) :
    exec (.totalOrder clerk) s = .next (totalOrderOwner clerk s) :=
  serve_asked h

theorem exec_cancelOrder {clerk : Byte} {s : State} (h : s.asked (.cancelOrder clerk)) :
    exec (.cancelOrder clerk) s = .next (cancelOrderOwner clerk s) :=
  serve_asked h

theorem exec_voidLine {clerk line : Byte} {s : State} (h : s.asked (.voidLine clerk line)) :
    exec (.voidLine clerk line) s = .next (voidLineOwner clerk line s) :=
  serve_asked h

theorem exec_closeDay {forced : Byte} {s : State} (h : s.asked (.closeDay forced)) :
    exec (.closeDay forced) s = .next (closeDayOwner forced s) :=
  serve_asked h

theorem exec_askDaysum {day : BitVec 16} {s : State} (h : s.asked (.askDaysum day)) :
    exec (.askDaysum day) s = .next (askDaysumOwner day s) :=
  serve_asked h

/-! ### Requests refused -/

/-- Every request that places a frame has the line of R191 among its refusals. -/
theorem requestFrame_refused_or_placed {rows : List (Bool × ResultCode)} {claim : State → State}
    {frame : Nat → TxFrame} {s : State} (hcodes : ∀ r ∈ rows, r.2 ≠ .ok ∧ r.2 ≠ .accepted)
    (hrunning : (s.notRunning, .wrongState) ∈ rows) (hclaim : (claim s).lnk = s.lnk ∧ (claim s).hpt = s.hpt) :
    (∃ code, code ≠ .ok ∧ code ≠ .accepted ∧ requestFrame rows claim frame s = refuse code s)
      ∨ ((requestFrame rows claim frame s).hpt.slot
            = .ready { result := .accepted, data := [.num 1 (s.hpt.nextTag : Nat)] }
          ∧ (requestFrame rows claim frame s).lnk.queue.length = s.lnk.queue.length + 1 ∧ s.lnk.requestFrames < 12
          ∧ s.lnk.state ≠ .silent ∧ s.lnk.state ≠ .off ∧ s.hpt.runState = .running) := by
  obtain ⟨r, hr, -, h⟩ | ⟨code, hcode, h⟩ | ⟨hoffer, hrows, h⟩ := requestFrame_cases rows claim frame s <;> rw [h]
  · exact .inl ⟨r.2, (hcodes r hr).1, (hcodes r hr).2, rfl⟩
  · have hlink : code = .linkSilent ∨ code = .linkFull := by
      unfold State.offerRefusal at hcode
      split at hcode <;> simp_all
    exact .inl ⟨code, by rcases hlink with rfl | rfl <;> simp, by rcases hlink with rfl | rfl <;> simp, rfl⟩
  · obtain ⟨hlnk, hhpt⟩ := hclaim
    obtain ⟨hstate, hfree⟩ := (offerRefusal_none_iff s).mp hoffer
    have hruns : s.hpt.runState = .running := by simpa [State.notRunning] using hrows _ hrunning
    refine .inr ⟨?_, ?_, hfree, ?_, ?_, hruns⟩
    · simp [placeFrame, acceptRequest, answer, enqueue, hhpt]
    · simp [placeFrame, hlnk]
    · rcases hstate with h | h <;> simp [h]
    · rcases hstate with h | h <;> simp [h]

/-- The code of every row of the eight tables is a refusal, and one of the rows is R191's. -/
theorem frameRequest_refused_or_placed {i : Instr} {rows : List (Bool × ResultCode)} {claim : State → State}
    {frame : Nat → TxFrame} {s t : State} (hexec : exec i s = .next (requestFrame rows claim frame s))
    (ht : exec i s = .next t) (hcodes : ∀ r ∈ rows, r.2 ≠ .ok ∧ r.2 ≠ .accepted)
    (hrunning : (s.notRunning, .wrongState) ∈ rows) (hclaim : (claim s).lnk = s.lnk ∧ (claim s).hpt = s.hpt) :
    (∃ code, code ≠ .ok ∧ code ≠ .accepted ∧ t = refuse code s)
      ∨ (t.hpt.slot = .ready { result := .accepted, data := [.num 1 (s.hpt.nextTag : Nat)] }
          ∧ t.lnk.queue.length = s.lnk.queue.length + 1 ∧ s.lnk.requestFrames < 12
          ∧ s.lnk.state ≠ .silent ∧ s.lnk.state ≠ .off ∧ s.hpt.runState = .running) := by
  obtain rfl := Host.Outcome.next.inj (hexec.symm.trans ht)
  exact requestFrame_refused_or_placed hcodes hrunning hclaim

/-- Settles O42: each request is refused by the rows of its table, or its frame joins the queue. -/
theorem refusedFrameRequestsChangeNothing : Obligations.RefusedFrameRequestsChangeNothing := by
  refine ⟨fun s t i hi hasked ht => ?_, fun s hoff => ⟨?_, ?_, ?_, ?_, ?_, ?_, ?_, ?_⟩⟩
  · rcases hi with rfl | ⟨c, rfl | rfl | rfl | rfl⟩ | ⟨c, l, rfl⟩ | ⟨f, rfl⟩ | ⟨d, rfl⟩
    · exact frameRequest_refused_or_placed (exec_issueTicket hasked) ht (by simp) (by simp) ⟨rfl, rfl⟩
    · exact frameRequest_refused_or_placed (exec_callNext hasked) ht (by simp) (by simp) ⟨rfl, rfl⟩
    · exact frameRequest_refused_or_placed (exec_passTicket hasked) ht (by simp) (by simp) ⟨rfl, rfl⟩
    · exact frameRequest_refused_or_placed (exec_totalOrder hasked) ht (by simp) (by simp) ⟨rfl, rfl⟩
    · exact frameRequest_refused_or_placed (exec_cancelOrder hasked) ht (by simp) (by simp) ⟨rfl, rfl⟩
    · exact frameRequest_refused_or_placed (exec_voidLine hasked) ht (by simp) (by simp) ⟨rfl, rfl⟩
    · exact frameRequest_refused_or_placed (exec_closeDay hasked) ht (by simp) (by simp) ⟨rfl, rfl⟩
    · exact frameRequest_refused_or_placed (exec_askDaysum hasked) ht (by simp) (by simp) ⟨rfl, rfl⟩
  · rintro n hasked rfl
    refine firstFrameRefusal_of_rows (exec_issueTicket hasked) hoff ?_
    simp [Decides, notRunning_iff, nextTicket, or_assoc]
  · intro clerk hasked
    refine firstFrameRefusal_of_rows (exec_callNext hasked) hoff ?_
    simp [Decides, notRunning_iff, clerkInRange_false_iff, holdsLines_iff]
  · intro clerk hasked
    refine firstFrameRefusal_of_rows (exec_passTicket hasked) hoff ?_
    simp [Decides, notRunning_iff, clerkInRange_false_iff, holdsLines_iff]
  · intro clerk hasked
    refine firstFrameRefusal_of_rows (exec_totalOrder hasked) hoff ?_
    simp [Decides, notRunning_iff, clerkInRange_false_iff, ← holdsLines_iff, free_eq_zero_iff]
  · intro clerk hasked
    refine firstFrameRefusal_of_rows (exec_cancelOrder hasked) hoff ?_
    simp [Decides, notRunning_iff, clerkInRange_false_iff]
  · intro clerk line hasked
    refine firstFrameRefusal_of_rows (exec_voidLine hasked) hoff ?_
    simp [Decides, notRunning_iff, clerkInRange_false_iff, free_eq_zero_iff, within, no_line_iff, or_assoc]
  · intro forced hasked
    refine firstFrameRefusal_of_rows (exec_closeDay hasked) hoff ?_
    simp [Decides, notRunning_iff, State.openOrders, List.length_pos_iff]
  · intro day hasked
    refine firstFrameRefusal_of_rows (exec_askDaysum hasked) hoff ?_
    simp [Decides, notRunning_iff]

/-- Settles O41: each condition of the table is false, and the frame joins the tail. -/
theorem frameRequestsAreAccepted : Obligations.FrameRequestsAreAccepted := by
  rintro s t hrunning hlink hfree rfl
  have htakes : s.TakesFrame := ⟨hlink, hfree⟩
  have hruns : s.notRunning = false := by simp [State.notRunning, hrunning]
  refine ⟨fun day hasked hday => ?_, fun hbehind => ⟨fun forced hasked hforced => ?_,
    fun hasked hissuer hconflict huntracked hroom hwaits hbound => ?_, fun clerk hlo hhi => ?_⟩⟩
  · rw [exec_askDaysum hasked, askDaysumOwner, requestFrame_placed (by simp [hday, hruns]) htakes]
    rfl
  · have hopen : (decide (forced.toNat = 0) && decide (0 < s.openOrders)) = false := by
      rcases hforced with h | ⟨-, h⟩ <;> simp [h, State.openOrders]
    rw [exec_closeDay hasked, closeDayOwner, requestFrame_placed (by simp [hruns, hbehind, hopen]; omega) htakes]
    rfl
  · rw [exec_issueTicket hasked, issueTicketOwner, requestFrame_placed
      (by simp [hruns, hissuer, hbehind, hconflict, huntracked, hroom, hwaits, hbound]) htakes]
    rfl
  · have hclerk : clerkInRange clerk = true := (clerkInRange_iff clerk).mpr ⟨hlo, hhi⟩
    refine ⟨fun hasked hconflict hlist hlines => ?_, fun o ho => ⟨fun hasked hconflict hticket hitems => ?_,
      fun hasked => ?_, fun hasked hitems hlabels => ?_, fun line hasked hfirst hlast hline hlabels => ?_⟩⟩
    · have hserves : holdsLines (s.order clerk.toNat) = false := by
        cases ho : s.order clerk.toNat with
        | none => rfl
        | some o => simp [holdsLines, hlines o ho]
      have hnext : (!s.ticketConfig.untracked && s.tkt.waiting.isEmpty) = false := by
        rcases hlist with h | h <;> simp [h]
      rw [exec_callNext hasked, callNextOwner, requestFrame_placed
        (by simp [hclerk, hruns, hbehind, hconflict, hnext, hserves]) htakes]
      rfl
    · have hserves : holdsLines (some o) = false := by simp [holdsLines, hitems]
      rw [exec_passTicket hasked, passTicketOwner, requestFrame_placed
        (by simp [hclerk, hruns, hbehind, hconflict, ho, hticket, hserves]) htakes]
      rfl
    · rw [exec_cancelOrder hasked, cancelOrderOwner, requestFrame_placed (by simp [hclerk, hruns, hbehind, ho]) htakes]
      rfl
    · have hserves : holdsLines (some o) = true := by simp [holdsLines, hitems]
      have hplaces : s.lbl.free ≠ 0 := mt (free_eq_zero_iff _).mp (by omega)
      rw [exec_totalOrder hasked, totalOrderOwner, requestFrame_placed
        (by simp [hclerk, hruns, hbehind, ho, hserves, hplaces]) htakes]
      rfl
    · have hplaces : s.lbl.free ≠ 0 := mt (free_eq_zero_iff _).mp (by omega)
      have hholds : o.holdsLine line.toNat = true := (holdsLine_iff o _).mpr hline
      have hlines : o.lines.isSome = true := by
        cases h : o.lines with
        | none => simp [Order.holdsLine, Order.line, h] at hholds
        | some lines => rfl
      rw [exec_voidLine hasked, voidLineOwner, requestFrame_placed
        (by simp [hclerk, hruns, hbehind, ho, within, hfirst, hlast, hplaces, hholds, hlines]) htakes]
      rfl

end Sys2Proof.Machine
end

section
/-! SUPPORT and the proofs about the link: damaged frames, failed attempts, and the timers. -/

namespace Sys2Proof.Machine

/-! ### Damaged frames -/

theorem receivedClass_eq (r : RawFrame) : receivedClass r = r.arbitration.toNat / 16 := by
  have h := r.arbitration.isLt
  simp only [receivedClass, BitVec.extractLsb'_toNat, Nat.shiftRight_eq_div_pow]
  omega

theorem exec_frameDamaged {r : RawFrame} {s : State} (hp : s.power = .on) (hoff : s.lnk.state ≠ .off)
    (hr : receivedFrame r = none) : exec (.frameDamaged r) s = .next (
      if 14 ≤ r.arbitration.toNat / 16 then stopSending s
      else discardDamaged (if r.truncated then .objectionTruncated else .objectionSlot) s) := by
  have hreceives : s.receives = true := by simp [State.receives, State.working, hp, hoff]
  simp [exec, execFrameDamaged, hreceives, hr, undefinedClass, receivedClass_eq]

/-- Settles O46: the class and the link state decide whether an objection is driven. -/
theorem damagedFramesAreObjectedTo : Obligations.DamagedFramesAreObjectedTo := by
  refine fun r s hp hoff hr => ⟨fun hclass hlink => ?_, fun h => ?_⟩ <;> rw [exec_frameDamaged hp hoff hr]
  · have hobjects : s.objects = true := by simp [State.objects, hlink]
    rw [if_neg (by omega), discardDamaged, if_pos hobjects]
    rfl
  · split
    · rfl
    · next hclass =>
      have hobjects : ¬s.objects = true := by simp [State.objects, h.resolve_left hclass]
      rw [discardDamaged, if_neg hobjects]
      rfl

/-! ### Failed attempts -/

/-- A report that moves a raw value, with room: the record, its write, and ATTRIBUTE_LOW at a crossing (R176, R178). -/
theorem moveAttribute_room {a : Attribute} {raw : Nat} {s : State} (hroom : s.hpt.events.length < 32)
    (h : min raw 65535 ≠ (s.hlm.attributes.get a).raw) :
    let r' := (s.hlm.attributes.get a).moved a (min raw 65535) s.figures.zeroBand
    moveAttribute a raw s = { s with
      hpt.events := s.hpt.events
        ++ if r'.low = true ∧ (s.hlm.attributes.get a).low = false then [s.record (.attributeLow a r'.normalized)] else []
      hlm.attributes := s.hlm.attributes.set a r'
      tst.ops := s.tst.ops ++ [r'.stored a] } := by
  intro r'
  by_cases hcross : r'.low = true ∧ (s.hlm.attributes.get a).low = false
  · obtain ⟨hlow, hwas⟩ := hcross
    have hif : (r'.low && !(s.hlm.attributes.get a).low) = true := by simp [hlow, hwas]
    simp only [moveAttribute, if_neg h]
    rw [if_pos hif, queueEvent_room (by exact hroom), if_pos ⟨hlow, hwas⟩]
    rfl
  · have hif : ¬(r'.low && !(s.hlm.attributes.get a).low) = true := by simpa using hcross
    simp only [moveAttribute, if_neg h]
    rw [if_neg hif, if_neg hcross, List.append_nil]
    rfl

/-- With room, a report that moves one record does what R176 and R178 say, and nothing else. -/
theorem moveAttribute_reportsOnly {s : State} (hroom : s.hpt.events.length < 32) (a : Attribute) (raw : Nat) :
    s.ReportsOnly (moveAttribute a raw s) a raw := by
  by_cases h : min raw 65535 = (s.hlm.attributes.get a).raw
  · simp [State.ReportsOnly, State.Moves, moveAttribute_same h, h]
  · have hmoved := moveAttribute_room hroom h
    refine ⟨moveAttribute_moves a raw s, ?_, ?_, fun b hb => moveAttribute_other hb raw s, ?_, ?_⟩
    · rw [hmoved, if_neg h]
      simp [AttributeRecord.stored]
    · rw [hmoved]
      simp [h]
    · rw [hmoved]
    · rw [hmoved]

/-- With room a report queues its event at most: the rest of the port is left. -/
theorem moveAttribute_hpt {s : State} (hroom : s.hpt.events.length < 32) (a : Attribute) (raw : Nat) :
    (moveAttribute a raw s).hpt = { s.hpt with events := (moveAttribute a raw s).hpt.events } := by
  by_cases h : min raw 65535 = (s.hlm.attributes.get a).raw
  · rw [moveAttribute_same h]
  · rw [moveAttribute_room hroom h]

/-- With room a mismatch queues its events alone (R77, R178). -/
theorem raiseMismatch_hpt {s : State} (hroom : s.hpt.events.length < 31) (k : MismatchKind) (clerk ticket : Option Nat) :
    (raiseMismatch k clerk ticket s).hpt = { s.hpt with events := (raiseMismatch k clerk ticket s).hpt.events } := by
  have hqueued := queueEvent_room (s := s) (by omega) (.viewMismatch k clerk ticket)
  have hlt : (queueEvent (.viewMismatch k clerk ticket) s).hpt.events.length < 32 := by
    simp only [hqueued, List.length_append, List.length_singleton]
    omega
  refine (moveAttribute_hpt hlt .viewMismatch _).trans ?_
  rw [raiseMismatch, raiseAttribute, hqueued]

/-- The link after a counted failure (R53 to R55). -/
theorem failAttempt_lnk (s : State) : (failAttempt s).lnk
    = { s.lnk with
        attempt := none, drive := .recessive, formWaiting := false, attemptCount := s.lnk.attemptCount + 1 } := by
  simp [failAttempt, stopSending]

/-- A counted failure is the link's alone, but for its report (R177). -/
theorem failAttempt_keeps (s : State) : (failAttempt s).wch = s.wch ∧ (failAttempt s).cap = s.cap
    ∧ (failAttempt s).lbl = s.lbl ∧ (failAttempt s).tkt = s.tkt ∧ (failAttempt s).clt = s.clt
    ∧ (failAttempt s).day = s.day ∧ (failAttempt s).tst.mem = s.tst.mem := by
  simp [failAttempt]

/-- A counted failure is one link retry (R177). -/
theorem failAttempt_raw (s : State) : (failAttempt s).hlm.attributes.linkRetries.raw
    = min (s.hlm.attributes.linkRetries.raw + 1) 65535 :=
  moveAttribute_raw .linkRetries _ _

theorem failAttempt_moves (s : State) :
    s.Moves (failAttempt s) .linkRetries (s.hlm.attributes.linkRetries.raw + 1) :=
  moveAttribute_moves .linkRetries _ { stopSending s with lnk.attemptCount := s.lnk.attemptCount + 1 }

theorem failAttempt_reportsOnly {s : State} (h : s.hpt.events.length < 32) :
    s.ReportsOnly (failAttempt s) .linkRetries (s.hlm.attributes.linkRetries.raw + 1) :=
  moveAttribute_reportsOnly (s := { stopSending s with lnk.attemptCount := s.lnk.attemptCount + 1 }) h .linkRetries _

theorem exec_attemptObjected {s : State} (h : s.lnk.attempt.isSome = true) :
    exec .attemptObjected s = .next (if 15 ≤ s.lnk.attemptCount then dropFrame (failAttempt s) else failAttempt s) := by
  have hattempt : ¬s.lnk.attempt.isNone = true := by simp [Option.isSome_iff_ne_none.mp h]
  simp [exec, execAttemptObjected, hattempt, failAttempt_lnk]

theorem exec_attemptBitError {s : State} (h : s.lnk.attempt.isSome = true) : exec .attemptBitError s = .next (
    let t := failAttempt { s with lnk.clash := s.lnk.clash + 1 }
    if 2 ≤ s.lnk.clash then fallSilent t else if 15 ≤ s.lnk.attemptCount then dropFrame t else t) := by
  have hattempt : ¬s.lnk.attempt.isNone = true := by simp [Option.isSome_iff_ne_none.mp h]
  simp [exec, execAttemptBitError, hattempt, failAttempt_lnk]

/-- Settles O44: a lost attempt ends, and one that fails is counted and reported. -/
theorem failedAttemptsAreCounted : Obligations.FailedAttemptsAreCounted := by
  refine ⟨fun raw bz => ⟨fun hbz => ?_, rfl, rfl, rfl, rfl, rfl, rfl⟩, fun s hattempt => ⟨?_, fun hcount => ?_,
    fun hcount hclash => ?_⟩⟩
  · simp [normalizedValue, Nat.ne_of_gt hbz]
  · simp [exec, execArbitrationLost, hattempt, stopSending]
  · rw [exec_attemptObjected hattempt, if_neg (by omega)]
    exact ⟨_, rfl, failAttempt_lnk s, failAttempt_raw s, failAttempt_reportsOnly, failAttempt_keeps s⟩
  · rw [exec_attemptBitError hattempt, if_neg (by omega), if_neg (by omega)]
    exact ⟨_, rfl, failAttempt_lnk _, failAttempt_raw _,
      fun hroom => failAttempt_reportsOnly (s := { s with lnk.clash := s.lnk.clash + 1 }) hroom, failAttempt_keeps _⟩

/-! ### Timers -/

theorem exec_beaconTimerExpiry {s : State} {left : Nat} (h : s.lnk.beaconTimer = some left) (hlt : left < beaconTime)
    (hlive : s.lnk.state = .live) :
    exec .beaconTimerExpiry s = .next (restartBeacon (if s.lnk.queue.isEmpty then enqueue .beacon s else s)) := by
  simp [exec, execBeaconTimerExpiry, h, hlive, hasRun, hlt]

theorem exec_censusTimerExpiry {s : State} (h : s.lnk.censusTimer.isSome = true) (hj : s.hpt.runState = .joining) :
    exec .censusTimerExpiry s = .next (endCensus s) := by
  simp [exec, execCensusTimerExpiry, h, hj]

theorem exec_orderExpiry {clerk : Byte} {s : State} {o : Order} {left : Nat} (ho : s.order clerk.toNat = some o)
    (h : o.timer = some left) (hlt : left < s.expiryDuration o.holder) :
    exec (.orderExpiry clerk) s = .next (expireOrder clerk.toNat o s) := by
  simp [exec, execOrderExpiry, ho, h, hasRun, hlt]

/-- The station at the end of its census window, before the orders are judged (R66). -/
def State.censusEnded (s : State) : State :=
  { s with
    hpt.runState := .running
    lnk := { s.lnk with
      state := if s.lnk.state = .joining then .live else s.lnk.state
      censusTimer := none
      beaconTimer := if s.lnk.state = .joining then some beaconTime else s.lnk.beaconTimer } }

/-- Without a shortfall the window ends, and nothing else changes (R66, R110). -/
theorem endCensus_held {s : State} (h : s.clt.censusOpen ≤ s.openOrders) : endCensus s = s.censusEnded := by
  have hheld : ¬s.censusEnded.openOrders < s.censusEnded.clt.censusOpen := Nat.not_lt.mpr h
  have hend : endCensus s = judgeCensus s.censusEnded := by simp [endCensus, State.censusEnded]
  rw [hend, judgeCensus, if_neg hheld]

/-- Fewer orders than a reply reported are CENSUS_SHORT (R110). -/
theorem endCensus_short {s : State} (h : s.openOrders < s.clt.censusOpen) :
    endCensus s = raiseMismatch .censusShort none none s.censusEnded := by
  have hshort : s.censusEnded.openOrders < s.censusEnded.clt.censusOpen := h
  have hend : endCensus s = judgeCensus s.censusEnded := by simp [endCensus, State.censusEnded]
  rw [hend, judgeCensus, if_pos hshort]

/-- The order as its expiry leaves it marked (R112). -/
theorem expireOrder_eq (clerk : Nat) (o : Order) {s : State} (hroom : s.hpt.events.length < 32) :
    expireOrder clerk o s = offerExpiry clerk { o with expiryMark := true } { s with
      hpt.events := if o.expiryMark then s.hpt.events else s.hpt.events ++ [s.record (.orderExpired clerk)] } := by
  cases h : o.expiryMark <;> simp [expireOrder, h, queueEvent_room hroom, State.record]

/-- An expiry offered where the link takes it (R112). -/
theorem offerExpiry_taken {s : State} (h : s.TakesFrame) (clerk : Nat) (o : Order) :
    offerExpiry clerk o s = enqueue (.cancelExpiry clerk) (putOrder clerk { o with timer := none } s) := by
  rw [offerExpiry, (offerRefusal_none_iff s).mpr h]

/-- An expiry that finds no place is offered again in 60 s, and one of a SILENT link never (R112). -/
theorem offerExpiry_refused {s : State} {code : ResultCode} (h : s.offerRefusal = some code) (clerk : Nat) (o : Order) :
    offerExpiry clerk o s
      = putOrder clerk { o with timer := if code = .linkFull then some unitsPerMinute else none } s := by
  rw [offerExpiry, h]

/-- The orders of the other clerks are left (R112). -/
theorem offerExpiry_other {clerk c : Nat} (hc : c ≠ clerk) (o : Order) (s : State) :
    (offerExpiry clerk o s).order c = s.order c := by
  unfold offerExpiry
  split <;> simp [State.order, putOrder, enqueue, Table.get_put_other hc]

/-- An offer changes the order and, where it is taken, the queue (R112). -/
theorem offerExpiry_keeps (clerk : Nat) (o : Order) (s : State) : (offerExpiry clerk o s).hpt = s.hpt
    ∧ (offerExpiry clerk o s).wch = s.wch ∧ (offerExpiry clerk o s).cap = s.cap ∧ (offerExpiry clerk o s).lbl = s.lbl
    ∧ (offerExpiry clerk o s).tkt = s.tkt ∧ (offerExpiry clerk o s).day = s.day ∧ (offerExpiry clerk o s).hlm = s.hlm
    ∧ (offerExpiry clerk o s).tst = s.tst := by
  unfold offerExpiry
  split <;> simp

/-- Settles O47: the four timers, each with the restart that keeps it from running out. -/
theorem linkAndOrderTimersRunOut : Obligations.LinkAndOrderTimersRunOut := by
  refine ⟨⟨fun s left h hlt hlive => ?_, fun s h => ?_, fun s h hj hheld => ⟨fun hlink => ?_, fun hlink => ?_⟩,
    fun s h hj hshort hroom => ?_, fun k s => ⟨fun e he hage => ?_, fun h => ?_⟩⟩, fun clerk s o ho h => ?_,
    fun clerk s o left ho h hlt hroom => ?_⟩
  · rw [exec_beaconTimerExpiry h hlt hlive]
    cases hq : s.lnk.queue <;> simp [restartBeacon, enqueue, hlive, hq, beaconTime]
  · have hrun : ¬(hasRun s.lnk.beaconTimer beaconTime && decide (s.lnk.state = .live)) = true := by
      rcases h with h | h | h <;> simp [h, beaconTime]
    simp [exec, execBeaconTimerExpiry, hrun]
  · rw [exec_censusTimerExpiry h hj, endCensus_held hheld]
    simp [State.censusEnded, hlink, beaconTime]
  · rw [exec_censusTimerExpiry h hj, endCensus_held hheld]
    simp [State.censusEnded, hlink]
  · rw [exec_censusTimerExpiry h hj, endCensus_short hshort]
    refine ⟨_, rfl, ?_, ?_, fun hlink => ?_, fun hlink => ?_, by simp [State.censusEnded]⟩
    · exact raiseMismatch_hpt (s := s.censusEnded) (by exact Nat.lt_trans hroom (by decide)) _ _ _
    · exact raiseMismatch_mismatches (s := s.censusEnded) (by exact Nat.lt_trans hroom (by decide)) _ _ _
    · simp [State.censusEnded, hlink, beaconTime]
    · simp [State.censusEnded, hlink]
  · refine ⟨Table.del s.lnk.roster k.toNat, ?_, Table.get_del_same .., fun j hj => Table.get_del_other hj⟩
    have hage' : ¬e.age = 0 := by omega
    simp [exec, execRosterAgeExpiry, he, hage']
  · cases he : Table.get s.lnk.roster k.toNat with
    | none => simp [exec, execRosterAgeExpiry, he]
    | some e => simp [exec, execRosterAgeExpiry, he, h e he]
  · have hrun : hasRun o.timer (s.expiryDuration o.holder) = false := by rcases h with h | h <;> simp [h]
    simp [exec, execOrderExpiry, ho, hrun]
  · rw [exec_orderExpiry ho h hlt, expireOrder_eq _ _ hroom]
    refine ⟨_, rfl, ?_, fun hlink => ⟨fun hfree => ?_, fun hfull => ?_⟩, fun hsilent => ?_,
      fun c hc => offerExpiry_other hc _ _, ?_⟩
    · rw [(offerExpiry_keeps ..).1]
      rfl
    · rw [offerExpiry_taken (by exact ⟨hlink, hfree⟩)]
      exact ⟨rfl, Table.get_put_same ..⟩
    · rw [offerExpiry_refused (code := .linkFull)]
      · exact ⟨rfl, Table.get_put_same ..⟩
      · rcases hlink with hlink | hlink <;> simp [State.offerRefusal, hlink, hfull]
    · rw [offerExpiry_refused (code := .linkSilent) (by simp [State.offerRefusal, hsilent])]
      exact ⟨rfl, Table.get_put_same ..⟩
    · obtain ⟨-, hwch, hcap, hlbl, htkt, hday, hhlm, htst⟩ := offerExpiry_keeps clerk.toNat { o with expiryMark := true }
        { s with hpt.events := if o.expiryMark then s.hpt.events
                               else s.hpt.events ++ [s.record (.orderExpired clerk.toNat)] }
      exact ⟨hwch, hcap, hlbl, htkt, hday, hhlm, htst⟩

end Sys2Proof.Machine
end

section
/-! SUPPORT and the proof about the start of an attempt: what the head of each class is formed to, and its removals. -/

namespace Sys2Proof.Machine

/-! ### The attempt -/

theorem exec_linkAttemptStart {s : State} (hp : s.power = .on) (hlink : s.lnk.state = .joining ∨ s.lnk.state = .live)
    (hattempt : s.lnk.attempt = none) : exec .linkAttemptStart s = .next (beginAttempt s) := by
  simp [exec, execLinkAttemptStart, State.maySend, State.working, hp, hlink, hattempt]

/-- A head that is formed starts its attempt (R51). -/
theorem beginAttempt_formed {s : State} {f : TxFrame} {rest : List TxFrame} {p : Payload}
    (hq : s.lnk.queue = f :: rest) (hf : formation f s = .formed p) : beginAttempt s = { s with
      lnk := { s.lnk with
        attempt := some { origin := s.hpt.straps.station, payload := p }
        drive := .sending
        formWaiting := false } } := by
  simp [beginAttempt, formHeads, hq, hf]

/-- A DAYSUM whose figures have not been read waits at the head (R172). -/
theorem beginAttempt_waiting {s : State} {f : TxFrame} {rest : List TxFrame} (hq : s.lnk.queue = f :: rest)
    (hf : formation f s = .waiting) : beginAttempt s = { s with lnk.formWaiting := true } := by
  simp [beginAttempt, formHeads, hq, hf]

theorem beginAttempt_nil {s : State} (hq : s.lnk.queue = []) : beginAttempt s = s := by
  simp [beginAttempt, formHeads, hq]

/-- After a head that its unit settles the next is formed in the same step (R51). -/
theorem beginAttempt_ended {s : State} {f : TxFrame} {rest : List TxFrame} {e : FrameEnd}
    (hq : s.lnk.queue = f :: rest) (hb : s.lnk.backlog = Backlog.none) (hf : formation f s = .ended e) :
    beginAttempt s = beginAttempt (endFrame f e (dropHead s)) := by
  have hempty : (endFrame f e (dropHead s)).lnk.backlog = Backlog.none := by simpa [dropHead] using hb
  have hfirst : beginAttempt s = formHeads (rest.length + 1) (endFrame f e (dropHead s)) := by
    simp [beginAttempt, formHeads, hq, hf, hb, Backlog.size, Backlog.none, moveBacklog_empty hempty]
  rw [hfirst, beginAttempt]
  simp [dropHead, hq, hb, Backlog.size, Backlog.none]

/-- A head removed without an event leaves its place to the next (R51). -/
theorem beginAttempt_quiet {s : State} {f : TxFrame} {rest : List TxFrame} (hq : s.lnk.queue = f :: rest)
    (hb : s.lnk.backlog = Backlog.none) (hf : formation f s = .quiet) : beginAttempt s = beginAttempt (dropHead s) := by
  have hempty : (dropHead s).lnk.backlog = Backlog.none := hb
  have hfirst : beginAttempt s = formHeads (rest.length + 1) (dropHead s) := by
    simp [beginAttempt, formHeads, hq, hf, hb, Backlog.size, Backlog.none, moveBacklog_empty hempty]
  rw [hfirst, beginAttempt]
  simp [dropHead, hq, hb, Backlog.size, Backlog.none]

/-! ### Formation by class (Table 3-5) -/

theorem saturated_toNat (w n : Nat) : (saturated w n).toNat = min n (2 ^ w - 1) := by
  have hpos : 0 < 2 ^ w := Nat.two_pow_pos w
  rw [saturated, BitVec.toNat_ofNat, Nat.mod_eq_of_lt (by omega)]

theorem formedTag_eq (s : State) : s.formedTag = BitVec.ofNat 8 (s.day.day % 256) := rfl

theorem holdsLines_false {s : State} {clerk : Nat} (h : ¬s.ServesLines clerk) : holdsLines (s.order clerk) = false := by
  rw [← Bool.not_eq_true, holdsLines_iff]
  exact h

/-- The removal of a request's head is the end that formation finds for it (Table 3-5). -/
theorem formation_of_removesHead {s : State} {f : TxFrame} {code : ResultCode} (h : s.RemovesHead f code) :
    formation f s = .ended (.removed code) := by
  cases f with
  | call tag clerk =>
    rcases h with ⟨rfl, huntracked, hwaiting⟩ | ⟨rfl, hlist, hserves⟩
    · simp [formation, formCall, huntracked, hwaiting]
    · have hlines : holdsLines (s.order clerk) = true := (holdsLines_iff s clerk).mpr hserves
      cases huntracked : s.ticketConfig.untracked with
      | true => simp [formation, formCall, huntracked, hlines]
      | false =>
        cases hwaiting : s.tkt.waiting with
        | nil => exact absurd hwaiting (hlist.resolve_left (by simp [huntracked]))
        | cons e rest => simp [formation, formCall, huntracked, hwaiting, hlines]
  | issue tag =>
    obtain ⟨rfl, h⟩ := h
    have hfull : (decide (48 ≤ s.tkt.waiting.length) || s.waits (nextTicket s.ticketConfig.wrap s.tkt.issued)
        || s.bound (nextTicket s.ticketConfig.wrap s.tkt.issued)) = true := by
      simpa [nextTicket, or_assoc] using h
    simp [formation, formIssue, hfull]
  | pass tag clerk =>
    obtain ⟨rfl, h⟩ := h
    cases ho : s.order clerk with
    | none => simp [formation, formPass, ho]
    | some o =>
      cases ht : o.ticket with
      | none => simp [formation, formPass, ho, ht]
      | some n =>
        have hitems : 0 < o.itemCount := (h o ho).resolve_left (by simp [ht])
        simp [formation, formPass, ho, ht, holdsLines, hitems]
  | voidLine tag clerk line =>
    rcases h with ⟨rfl, ho⟩ | ⟨rfl, o, ho, hline⟩
    · simp [formation, formVoid, ho]
    · cases hl : o.line line with
      | none => simp [formation, formVoid, ho, hl]
      | some l => simp [formation, formVoid, ho, hl, hline l hl]
  | txClose tag clerk =>
    rcases h with ⟨rfl, ho⟩ | ⟨rfl, o, ho, hitems⟩
    · simp [formation, formTxClose, ho]
    · simp [formation, formTxClose, ho, hitems]
  | cancelHost tag clerk =>
    obtain ⟨rfl, ho⟩ := h
    simp [formation, formCancelHost, ho]
  | dayClose tag day forced =>
    obtain ⟨rfl, rfl, horders⟩ := h
    simp [formation, State.openOrders, List.length_pos_iff.mpr horders]
  | cancelExpiry | item | daysum | daysumAsk | censusAsk | censusReply | censusTx | beacon => exact h.elim

theorem formation_of_removesQuietly {s : State} {f : TxFrame} (h : s.RemovesQuietly f) : formation f s = .quiet := by
  cases f with
  | cancelExpiry clerk =>
    cases ho : s.order clerk with
    | none => simp [formation, formCancelExpiry, ho]
    | some o => simp [formation, formCancelExpiry, ho, h o ho]
  | daysum day read figures =>
    have hday : s.recordSlot day = none := h
    simp [formation, formDaysum, hday]
  | censusTx clerk =>
    have ho : s.order clerk = none := h
    simp [formation, formCensusTx, ho]
  | call | issue | pass | voidLine | txClose | cancelHost | dayClose | item | daysumAsk | censusAsk | censusReply
  | beacon => exact h.elim

theorem formation_of_makesLate {s : State} {f : ItemFrame} {reason : LateReason} (h : s.MakesLate f reason) :
    formation (.item f) s = .ended (.late reason) := by
  rcases h with ⟨rfl, ho, hopen⟩ | ⟨rfl, o, ho, hlines⟩
  · simp [formation, formItem, ho, hopen]
  · simp [formation, formItem, ho, hlines]

/-! ### The end of a removed head -/

/-- The end of a request's frame: its reservation is freed and the request completes (R105, R130). -/
theorem endFrame_request {f : TxFrame} {tag : Nat} (htag : f.tag = some tag) (e : FrameEnd) (s : State) :
    endFrame f e s = completeRequest tag e.code none
      { s with lbl.reservations := s.lbl.reservations - if f.reserves then 1 else 0 } := by
  cases f with
  | cancelExpiry | item | daysum | censusAsk | censusReply | censusTx | beacon => exact nomatch htag
  | dayClose | call | issue | pass | txClose | cancelHost | voidLine | daysumAsk =>
    obtain rfl := Option.some.inj htag
    rfl

/-- With room the end of a request's frame is its completion event (R84, R105). -/
theorem endFrame_request_room {f : TxFrame} {tag : Nat} {s : State} (htag : f.tag = some tag)
    (hroom : s.hpt.events.length < 32) (e : FrameEnd) : endFrame f e s = { s with
      lbl := { s.lbl with reservations := s.lbl.reservations - if f.reserves then 1 else 0 }
      hpt := { s.hpt with events := s.hpt.events ++ [s.record (.requestDone tag e.code none)] } } := by
  rw [endFrame_request htag, completeRequest, queueEvent_room (by exact hroom)]
  rfl

/-- With room a late item is its posting, its event and one fault (R108). -/
theorem lateItem_room {s : State} (hroom : s.hpt.events.length < 32) (f : ItemFrame) (reason : LateReason) :
    lateItem f reason s = recordFault .lateItem { s with
      hpt.events := s.hpt.events ++ [s.record (.lateItem f.serial f.clerk reason)]
      tst.ops := s.tst.ops ++ [unattachedPosting f.price] } := by
  rw [lateItem, queueEvent_room (s := postUnattached _ s) hroom]
  rfl

/-- What a late item with room leaves: its posting and its fault are handed, its event queued (R108, R181). -/
theorem lateItem_room_keeps {s : State} (hroom : s.hpt.events.length < 32) (f : ItemFrame) (reason : LateReason) :
    (lateItem f reason s).hpt
        = { s.hpt with events := s.hpt.events ++ [s.record (.lateItem f.serial f.clerk reason)] }
      ∧ (lateItem f reason s).hlm = { s.hlm with
          newestFault := ringNext 6 s.hlm.newestFault, faultCount := min (s.hlm.faultCount + 1) 65535 }
      ∧ (lateItem f reason s).tst = { s.tst with
          ops := s.tst.ops ++ [unattachedPosting f.price, s.faultWrite (lateItem f reason s) .lateItem] } := by
  rw [lateItem_room hroom]
  refine ⟨rfl, rfl, ?_⟩
  simp only [recordFault, hand, List.append_assoc, List.cons_append, List.nil_append]
  rfl

/-- Settles O43: the attempt, the formations of Table 3-5, and the removals with the next head. -/
theorem attemptSendsTheFormedHead : Obligations.AttemptSendsTheFormedHead := by
  refine ⟨fun s f rest p hp hlink hattempt hq hf => ?_, fun s h => ?_, saturated_toNat, ?_, ?_⟩
  · rw [exec_linkAttemptStart hp hlink hattempt, beginAttempt_formed hq hf]
  · simp only [exec, execLinkAttemptStart]
    split
    · next hsend =>
      simp only [State.maySend, State.working, Bool.and_eq_true, decide_eq_true_eq, Option.isNone_iff_eq_none] at hsend
      obtain ⟨⟨hp, hlink⟩, hattempt⟩ := hsend
      have hq : s.lnk.queue = [] := by rcases hlink with hlink | hlink <;> simpa [hp, hattempt, hlink] using h
      rw [beginAttempt_nil hq]
    · rfl
  · rintro s tag clerk _ rfl
    refine ⟨?_, fun hserves => ⟨fun e rest hu hw => ?_, fun n hu hn => ?_⟩, ?_, fun _ _ => formation_of_makesLate,
      fun o ho => ⟨fun n hn hitems => ?_, fun line l hl hlive => ?_, fun hitems => ?_, ?_, fun hmark => ?_,
        fun hholder => ⟨BitVec.ofNat 4 o.holder, ?_, ?_⟩⟩,
      fun d forced hforced => ?_, fun d read f hheld => ?_, fun d => rfl, rfl, rfl, fun locked hlocked => ?_⟩
    · rintro n hroom rfl hwaits hbound
      simp [formation, formIssue, hroom, hwaits, hbound, nextTicket, formedTag_eq]
    · simp [formation, formCall, hu, hw, holdsLines_false hserves, formedTag_eq]
    · simp [formation, formCall, hu, hn, holdsLines_false hserves, formedTag_eq, nextTicket]
    · rintro f line (⟨o, ho, hroom, rfl⟩ | ⟨ho, hopen, rfl⟩)
      · simp [formation, formItem, ho, Nat.not_le.mpr hroom, itemPayload, formedTag_eq]
      · simp [formation, formItem, ho, hopen, itemPayload, formedTag_eq]
    · simp [formation, formPass, ho, hn, holdsLines, hitems, formedTag_eq]
    · simp [formation, formVoid, ho, hl, hlive, formedTag_eq]
    · simp [formation, formTxClose, ho, Nat.ne_of_gt hitems, formedTag_eq]
    · simp [formation, formCancelHost, ho, formedTag_eq]
    · simp [formation, formCancelExpiry, ho, hmark, formedTag_eq]
    · rw [BitVec.toNat_ofNat, Nat.mod_eq_of_lt (by omega)]
    · simp [formation, formCensusTx, ho]
    · rcases hforced with rfl | horders
      · rfl
      · simp [formation, State.openOrders, horders]
    · obtain ⟨slot, hslot⟩ := Option.isSome_iff_exists.mp hheld
      simp [formation, formDaysum, hslot]
    · have hlock : s.lockedOut = locked := Bool.eq_iff_iff.mpr ((lockedOut_iff s).trans hlocked.symm)
      simp [formation, hlock]
  · intro s f rest hp hlink hattempt hq hb
    have hdrop : dropHead s = { s with lnk := { s.lnk with queue := rest, attemptCount := 0 } } := by
      simp [dropHead, hq]
    rw [exec_linkAttemptStart hp hlink hattempt]
    refine ⟨fun tag code htag hremoves hroom => ?_, fun hquiet => ?_, fun i reason hi hlate hroom => ?_,
      fun day read hf hheld => ?_⟩
    · rw [exec_linkAttemptStart (by exact hp) (by exact hlink) (by exact hattempt),
        beginAttempt_ended hq hb (formation_of_removesHead hremoves), endFrame_request_room htag (by exact hroom),
        hdrop]
      rfl
    · rw [exec_linkAttemptStart (by exact hp) (by exact hlink) (by exact hattempt),
        beginAttempt_quiet hq hb (formation_of_removesQuietly hquiet), hdrop]
    · subst hi
      obtain ⟨hhpt, hhlm, htst⟩ := lateItem_room_keeps (s := dropHead s) hroom i reason
      refine ⟨lateItem i reason (dropHead s), ?_, by simp [hdrop], hhpt, by simp [hdrop], by rw [hhlm]; rfl,
        by rw [hhlm]; rfl, htst, by simp [hdrop]⟩
      rw [exec_linkAttemptStart (by simpa using hp) (by simpa [hdrop] using hlink) (by simpa [hdrop] using hattempt),
        beginAttempt_ended hq hb (formation_of_makesLate hlate)]
      rfl
    · subst hf
      have hwaits : formation (.daysum day read none) s = .waiting := by
        obtain ⟨slot, hslot⟩ := Option.isSome_iff_exists.mp hheld
        simp [formation, formDaysum, hslot]
      rw [beginAttempt_waiting hq hwaits]

end Sys2Proof.Machine
end

section
/-! SUPPORT. A station that hears an accepted frame: the backlog that moves up behind its own, the roster, and the link that
it leaves (R50, R56, R60). -/

namespace Sys2Proof.Machine

/-! ### Station frames that move up from the backlog -/

/-- Station frames have moved up from the backlog between two states, with the reads that DAYSUM frames bring (R50). -/
def State.MovesUp (s t : State) : Prop :=
  ∃ moved reads backlog,
    t = { s with
      lnk.queue := s.lnk.queue ++ moved
      lnk.backlog := backlog
      tst.ops := s.tst.ops ++ reads }
    ∧ (∀ f ∈ moved, f.isRequest = false)
    ∧ DaysumReads reads
    ∧ (s.lnk.backlog.days = [] → reads = [] ∧ backlog.days = [])

theorem State.MovesUp.refl (s : State) : s.MovesUp s :=
  ⟨[], [], s.lnk.backlog, by simp, by simp, by simp [DaysumReads], fun h => ⟨rfl, h⟩⟩

theorem DaysumReads.append {l r : List Op} (hl : DaysumReads l) (hr : DaysumReads r) : DaysumReads (l ++ r) :=
  fun op hop => (List.mem_append.mp hop).elim (hl op) (hr op)

theorem State.MovesUp.trans {s t u : State} (h : s.MovesUp t) (g : t.MovesUp u) : s.MovesUp u := by
  obtain ⟨moved, reads, backlog, rfl, hmoved, hreads, hdays⟩ := h
  obtain ⟨moved', reads', backlog', rfl, hmoved', hreads', hdays'⟩ := g
  refine ⟨moved ++ moved', reads ++ reads', backlog', by simp, ?_, hreads.append hreads', fun hnone => ?_⟩
  · intro f hf
    exact (List.mem_append.mp hf).elim (hmoved f) (hmoved' f)
  · obtain ⟨rfl, hleft⟩ := hdays hnone
    obtain ⟨rfl, hleft'⟩ := hdays' hleft
    exact ⟨rfl, hleft'⟩

/-- A station frame that is queued without a read. -/
theorem enqueue_movesUp {s : State} {f : TxFrame} {b : Backlog} (hf : f.isRequest = false)
    (hdays : s.lnk.backlog.days = [] → b.days = []) : s.MovesUp (enqueue f { s with lnk.backlog := b }) :=
  ⟨[f], [], b, by simp [enqueue], by simpa using hf, by simp [DaysumReads], fun h => ⟨rfl, hdays h⟩⟩

theorem moveBacklogItem_movesUp (s : State) : s.MovesUp (moveBacklogItem s) := by
  unfold moveBacklogItem
  dsimp only
  split
  · exact enqueue_movesUp rfl id
  · split
    · split
      · exact enqueue_movesUp rfl id
      · next later _ _ =>
        exact ⟨[], [], { s.lnk.backlog with clerks := later }, by simp, by simp, by simp [DaysumReads],
          fun h => ⟨rfl, h⟩⟩
    · split
      · next day rest hdays =>
        have hsome (h : s.lnk.backlog.days = []) : False := by simp [hdays] at h
        cases hslot : s.recordSlot day with
        | none =>
          have hplace : placeDaysum day { s with lnk.backlog.days := rest }
              = enqueue (.daysum day 0 none) { s with lnk.backlog.days := rest } := by
            have hslot' : State.recordSlot { s with lnk.backlog.days := rest } day = none := hslot
            simp [placeDaysum, hslot']
          rw [hplace]
          exact enqueue_movesUp rfl fun h => (hsome h).elim
        | some slot =>
          have hslot' : State.recordSlot { s with lnk.backlog.days := rest } day = some slot := hslot
          rw [placeDaysum_held hslot']
          exact ⟨[_], [_], _, rfl, by simp [TxFrame.isRequest, TxFrame.cls], by
            simp only [DaysumReads, List.mem_singleton, forall_eq]; exact ⟨slot, _, rfl⟩, fun h => (hsome h).elim⟩
      · exact .refl s

theorem fillStationPlaces_movesUp (n : Nat) (s : State) : s.MovesUp (fillStationPlaces n s) := by
  induction n generalizing s with
  | zero => exact .refl s
  | succ n ih =>
    unfold fillStationPlaces
    split
    · exact (moveBacklogItem_movesUp s).trans (ih _)
    · exact .refl s

theorem moveBacklog_movesUp (s : State) : s.MovesUp (moveBacklog s) := fillStationPlaces_movesUp _ s

/-! ### The station that has heard a frame -/

/-- The frame taken off the queue at its sender (R56); none at a receiver. -/
def State.ownFrame (s : State) (f : Frame) : Option TxFrame := if s.sends f then s.lnk.queue.head? else none

/-- The station that has heard an accepted frame, which is not yet applied: its attempt is over, its own frame is off the
queue, and the roster refreshed (R56, R59, R60). -/
def State.heard (s : State) (f : Frame) : State :=
  refreshRoster f.origin.toNat (if s.sends f then takeOwnFrame s else stopSending s)

/-- A well-formed frame is applied to the station that has heard it (R56, R59). -/
theorem acceptFrame_heard {s : State} {f : Frame} (hr : s.receives = true) (hp : payloadInRange f.payload = true)
    (apply : Option TxFrame → State → State) : acceptFrame f apply s = apply (s.ownFrame f) (s.heard f) := by
  simp [acceptFrame, hr, hp, State.ownFrame, State.heard]

/-- A receiver takes no frame of its own. -/
theorem ownFrame_receiver {s : State} {f : Frame} (h : s.sends f = false) : s.ownFrame f = none := by
  simp [State.ownFrame, h]

theorem ownFrame_sender {s : State} {f : Frame} {head : TxFrame} {rest : List TxFrame} (h : s.sends f = true)
    (hq : s.lnk.queue = head :: rest) : s.ownFrame f = some head := by
  simp [State.ownFrame, h, hq]

/-- Hearing a frame is a matter of the link and of the reads that move up. -/
@[simp] theorem heard_keeps (f : Frame) (s : State) :
    (s.heard f).pending = s.pending ∧ (s.heard f).power = s.power ∧ (s.heard f).hpt = s.hpt
    ∧ (s.heard f).wch = s.wch ∧ (s.heard f).cap = s.cap ∧ (s.heard f).lbl = s.lbl ∧ (s.heard f).tkt = s.tkt
    ∧ (s.heard f).clt = s.clt ∧ (s.heard f).day = s.day ∧ (s.heard f).hlm = s.hlm
    ∧ (s.heard f).tst.mem = s.tst.mem ∧ (s.heard f).lnk.state = s.lnk.state := by
  unfold State.heard
  split <;> simp [takeOwnFrame]

/-- A receiver that has heard a frame keeps its link but for the roster (R56, R60). -/
theorem heard_receiver {s : State} {f : Frame} (h : s.sends f = false) :
    s.heard f = { s with lnk := s.linkHeard (s.heard f) } := by
  have hheard : s.heard f = refreshRoster f.origin.toNat (stopSending s) := by simp [State.heard, h]
  rw [hheard, refreshRoster]
  split <;> rfl

/-- The sender that has heard its frame: its head is gone and station frames may have moved up (R50, R56). -/
theorem heard_sender {s : State} {f : Frame} (h : s.sends f = true) :
    ∃ moved reads backlog,
      s.heard f = { s with
        lnk := { s.linkSent (s.heard f) (s.lnk.queue.drop 1 ++ moved) with backlog := backlog }
        tst.ops := s.tst.ops ++ reads }
      ∧ (∀ g ∈ moved, g.isRequest = false)
      ∧ DaysumReads reads
      ∧ (s.lnk.backlog.days = [] → reads = [])
      ∧ (s.lnk.backlog = Backlog.none → moved = [] ∧ backlog = Backlog.none) := by
  have hheard : s.heard f = refreshRoster f.origin.toNat (takeOwnFrame s) := by simp [State.heard, h]
  have hrefresh : s.heard f = { takeOwnFrame s with
      lnk := { (takeOwnFrame s).lnk with roster := (s.heard f).lnk.roster } } := by
    rw [hheard, refreshRoster]
    split <;> rfl
  by_cases hb : s.lnk.backlog = Backlog.none
  · refine ⟨[], [], Backlog.none, ?_, by simp, by simp [DaysumReads], fun _ => rfl, fun _ => ⟨rfl, rfl⟩⟩
    rw [takeOwnFrame_eq hb] at hrefresh
    simpa [State.linkSent, hb] using hrefresh
  · obtain ⟨moved, reads, backlog, hup, hmoved, hreads, hdays⟩ :=
      moveBacklog_movesUp (restartBeacon { stopSending (dropHead s) with lnk.clash := 0 })
    refine ⟨moved, reads, backlog, ?_, hmoved, hreads, fun hnone => (hdays hnone).1, fun hnone => absurd hnone hb⟩
    rw [takeOwnFrame, hup] at hrefresh
    exact hrefresh

/-! ### The link after the frame -/

/-- What a state whose link differs in the roster alone has in common: the link is left as R56 says. -/
theorem State.LinkAfter.of_lnk {s t u : State} {f : Frame} (h : s.LinkAfter u f)
    (ht : t.lnk = { u.lnk with roster := t.lnk.roster }) : s.LinkAfter t f := by
  obtain ⟨hreceiver, hsender⟩ := h
  refine ⟨fun hs => ?_, fun head rest hs hq => ?_⟩
  · rw [ht, hreceiver hs]
    rfl
  · obtain ⟨moved, hlnk, hrest⟩ := hsender head rest hs hq
    have hbacklog : t.lnk.backlog = u.lnk.backlog := by rw [ht]
    refine ⟨moved, ?_, by rwa [hbacklog]⟩
    rw [ht, hlnk]
    rfl

/-- A heard frame leaves the link as R56 says. -/
theorem heard_linkAfter (s : State) (f : Frame) : s.LinkAfter (s.heard f) f := by
  refine ⟨fun hs => ?_, fun head rest hs hq => ?_⟩
  · exact congrArg State.lnk (heard_receiver hs)
  · obtain ⟨moved, reads, backlog, hu, hmoved, -, -, hnone⟩ := heard_sender hs
    have hlnk := congrArg State.lnk hu
    have hbacklog : (s.heard f).lnk.backlog = backlog := by rw [hlnk]
    refine ⟨moved, ?_, hmoved, fun hb => ⟨(hnone hb).1, by rw [hbacklog, (hnone hb).2]⟩⟩
    rw [hbacklog]
    simpa [hq] using hlnk

/-- A frame that leaves the link of the station that has heard it, but for the roster. -/
theorem linkAfter_of_heard {s t : State} {f : Frame} (h : t.lnk = { (s.heard f).lnk with roster := t.lnk.roster }) :
    s.LinkAfter t f :=
  (heard_linkAfter s f).of_lnk h

/-- At a receiver the frame is heard without a trace in the list of operations. -/
theorem heard_tst_receiver {s : State} {f : Frame} (h : s.sends f = false) : (s.heard f).tst = s.tst := by
  rw [heard_receiver h]

/-- At the sender the reads of DAYSUM frames that move up join the list of operations (R172). -/
theorem heard_tst_sender {s : State} {f : Frame} (h : s.sends f = true) :
    ∃ reads, (s.heard f).tst = { s.tst with ops := s.tst.ops ++ reads } ∧ DaysumReads reads
      ∧ (s.lnk.backlog.days = [] → reads = []) := by
  obtain ⟨moved, reads, backlog, hu, -, hreads, hdays, -⟩ := heard_sender h
  exact ⟨reads, by rw [hu], hreads, hdays⟩

/-! ### The roster (R60) -/

/-- The roster entry of a station just heard. -/
def HeardNow (t : State) (n : Nat) : Prop := ∃ e, Table.get t.lnk.roster n = some e ∧ e.age = 0

theorem refreshRoster_other {n k : Nat} (hk : k ≠ n) (s : State) :
    Table.get (refreshRoster n s).lnk.roster k = Table.get s.lnk.roster k := by
  unfold refreshRoster
  split
  · rfl
  · exact Table.get_put_other hk _

theorem refreshRoster_own {n : Nat} {s : State} (h : n = s.station) : refreshRoster n s = s := by
  simp [refreshRoster, h]

theorem refreshRoster_heardNow {n : Nat} {s : State} (h : n ≠ s.station) : HeardNow (refreshRoster n s) n := by
  rw [refreshRoster_eq h]
  exact ⟨_, Table.get_put_same .., rfl⟩

/-- A roster entry that is refreshed again stays fresh. -/
theorem HeardNow.refresh {n : Nat} {s : State} (h : HeardNow s n) (m : Nat) : HeardNow (refreshRoster m s) n := by
  by_cases hm : n = m
  · subst hm
    by_cases hs : n = s.station
    · rwa [refreshRoster_own hs]
    · exact refreshRoster_heardNow hs
  · obtain ⟨e, he, hage⟩ := h
    exact ⟨e, by rw [refreshRoster_other hm, he], hage⟩

/-- The roster of the station that has heard a frame is that of its origin refreshed. -/
theorem heard_roster (f : Frame) (s : State) :
    (s.heard f).lnk.roster = (refreshRoster f.origin.toNat s).lnk.roster := by
  have hsame (u : State) (hr : u.lnk.roster = s.lnk.roster) (hst : u.hpt = s.hpt) :
      (refreshRoster f.origin.toNat u).lnk.roster = (refreshRoster f.origin.toNat s).lnk.roster := by
    by_cases hown : f.origin.toNat = s.hpt.straps.station.toNat <;>
      simp [refreshRoster, State.station, hst, hown, hr]
  unfold State.heard
  split
  · exact hsame _ (by simp [takeOwnFrame]) (by simp [takeOwnFrame])
  · exact hsame _ (by simp) (by simp)

end Sys2Proof.Machine
end

section
/-! SUPPORT and the proof that accepted frames refresh the roster (R60, R166). -/

namespace Sys2Proof.Machine

/-! ### The business day at a close start -/

@[simp] theorem removeDayFrames_day (s : State) : (removeDayFrames s).day = s.day := by
  refine (foldl_keeps (·.day) (fun acc f => endFrame f .dayClosed acc) (by simp) _ _).trans ?_
  unfold withdrawHead
  split
  · rfl
  · split <;> rfl

@[simp] theorem clearDayScoped_day (s : State) : (clearDayScoped s).day = s.day :=
  foldl_keeps (·.day) (fun acc a => moveAttribute a 0 acc) (by simp) dayScoped s

/-- The deferred frames wait until the other steps of the close start are done (R167). -/
@[simp] theorem advanceDay_deferred (c : LatchedClose) (s : State) :
    (advanceDay c s).day.deferred = s.day.deferred := by
  simp [advanceDay, settleBehind_eq, handCopy, hand, restartSerials, freeAllOrders, emptyTicketView, moveDay]

/-! ### What becomes of the roster -/

@[simp] theorem closed_roster (l : Link) : l.closed.roster = l.roster := rfl

/-- The roster of a later state: a station just heard stays so, and an entry changes only where the station named or a
deferred frame refreshes it. -/
def State.RosterFrom (s t : State) (origin : Nat) : Prop :=
  (HeardNow s origin → HeardNow t origin)
    ∧ (origin = s.station → s.day.deferred = [] → t.lnk.roster = s.lnk.roster)
    ∧ ∀ k, k ≠ origin → (∀ g ∈ s.day.deferred, g.origin.toNat ≠ k) →
        Table.get t.lnk.roster k = Table.get s.lnk.roster k

theorem State.RosterFrom.of_roster {s t : State} {origin : Nat} (h : t.lnk.roster = s.lnk.roster) :
    s.RosterFrom t origin := by
  simp [State.RosterFrom, HeardNow, h]

/-- Deferred frames refresh the entries of their origins (R60, R166). -/
theorem foldl_applyDeferredFrame_roster (l : List Frame) (s : State) :
    (∀ n, HeardNow s n → HeardNow (l.foldl applyDeferredFrame s) n)
      ∧ ∀ k, (∀ g ∈ l, g.origin.toNat ≠ k) →
          Table.get (l.foldl applyDeferredFrame s).lnk.roster k = Table.get s.lnk.roster k := by
  induction l generalizing s with
  | nil => simp
  | cons f l ih =>
    obtain ⟨hheard, hother⟩ := ih (applyDeferredFrame s f)
    have hlnk := applyDeferredFrame_lnk s f
    refine ⟨fun n hn => hheard n ?_, fun k hk => ?_⟩
    · have hfresh : HeardNow (refreshRoster f.origin.toNat s) n := hn.refresh _
      simpa [HeardNow, hlnk] using hfresh
    · have hne : k ≠ f.origin.toNat := fun h => hk f (by simp) h.symm
      rw [List.foldl_cons, hother k fun g hg => hk g (by simp [hg]), hlnk, refreshRoster_other hne]

theorem startClose_rosterFrom (c : LatchedClose) (s : State) (origin : Nat) :
    s.RosterFrom (startClose c s) origin := by
  obtain ⟨hheard, hother⟩ := foldl_applyDeferredFrame_roster (advanceDay c s).day.deferred
    { advanceDay c s with day.deferred := [] }
  rw [startClose_eq, applyDeferred]
  refine ⟨fun h => hheard origin (by simpa [HeardNow] using h), fun _ hnone => ?_, fun k _ hk => ?_⟩
  · simp [hnone]
  · rw [hother k (by simpa using hk)]
    simp

theorem beginClose_rosterFrom (c : LatchedClose) (s : State) (origin : Nat) :
    s.RosterFrom (beginClose c s) origin := by
  unfold beginClose
  split
  · exact startClose_rosterFrom c s origin
  · exact .of_roster rfl

theorem applyDayClose_rosterFrom (p : DayClosePayload) (own : Option TxFrame) (s : State) (origin : Nat) :
    s.RosterFrom (applyDayClose p own s) origin := by
  have hown {t : State} (h : s.RosterFrom t origin) (code : ResultCode) :
      s.RosterFrom (completeOwn own code none t) origin := by
    simpa [State.RosterFrom, HeardNow] using h
  unfold applyDayClose
  dsimp only
  split
  · refine hown ?_ _
    split
    · exact .of_roster rfl
    · exact beginClose_rosterFrom _ s origin
  · split
    · refine hown ?_ _
      split
      · exact beginClose_rosterFrom _ s origin
      · exact .of_roster rfl
    · exact hown (.of_roster rfl) _

/-- The fields that a BEACON or a CENSUS_REPLY sets leave the age of their origin's entry, and every other entry (R60). -/
theorem setRoster_rosterFrom (origin day : Nat) (lockout : Option Bool) (s : State) :
    s.RosterFrom (setRoster origin day lockout s) origin := by
  unfold setRoster
  split
  · exact .of_roster rfl
  · next hown =>
    split
    · exact .of_roster rfl
    · next e he =>
      refine ⟨fun ⟨e', he', hage⟩ => ?_, fun h => absurd h hown, fun k hk _ => Table.get_put_other hk _⟩
      obtain rfl : e = e' := Option.some.inj (he.symm.trans he')
      exact ⟨_, Table.get_put_same .., hage⟩

/-- What the frame of each class leaves of the roster of the station that has heard it. -/
theorem command_rosterFrom {f : Frame} {s t : State} (hr : s.receives = true) (hp : payloadInRange f.payload = true)
    (ht : exec f.command s = .next t) : (s.heard f).RosterFrom t f.origin.toNat := by
  have hday (h : exec f.command s = .next (acceptDayFrame f s)) : (s.heard f).RosterFrom t f.origin.toNat := by
    obtain rfl := Host.Outcome.next.inj (h.symm.trans ht)
    rw [acceptDayFrame, acceptFrame_heard hr hp]
    exact .of_roster (by rw [receiveDayFrame_lnk])
  have hother {apply : Option TxFrame → State → State} (h : exec f.command s = .next (acceptFrame f apply s))
      (ha : ∀ own (u : State), u.RosterFrom (apply own u) f.origin.toNat) : (s.heard f).RosterFrom t f.origin.toNat := by
    obtain rfl := Host.Outcome.next.inj (h.symm.trans ht)
    rw [acceptFrame_heard hr hp]
    exact ha _ _
  obtain ⟨origin, payload⟩ := f
  cases payload with
  | dayClose p => exact hother rfl fun own u => applyDayClose_rosterFrom p own u origin.toNat
  | call | issue | pass | txClose | txCancel | voidLine | item => exact hday rfl
  | daysum p => exact hother rfl fun own u => .of_roster (by rw [applyDaysum_lnk])
  | daysumAsk d =>
    refine hother rfl fun own u => .of_roster ?_
    unfold applyDaysumAsk
    split <;> simp
  | censusAsk =>
    refine hother rfl fun own u => .of_roster ?_
    unfold applyCensusAsk
    split <;> simp
  | censusReply p =>
    refine hother rfl fun own u => ?_
    have hset := setRoster_rosterFrom origin.toNat p.day.toNat none u
    simpa [State.RosterFrom, HeardNow, applyCensusReply_lnk] using hset
  | censusTx p => exact hother rfl fun own u => .of_roster (by rw [applyCensusTx_lnk])
  | beacon p =>
    refine hother rfl fun own u => ?_
    have hset := setRoster_rosterFrom origin.toNat p.day.toNat (some p.lockedOut) u
    simpa [State.RosterFrom, HeardNow, applyBeacon_lnk] using hset

/-- Settles O48: hearing the frame refreshes its origin's entry, and no class undoes it. -/
theorem acceptedFramesRefreshTheRoster : Obligations.AcceptedFramesRefreshTheRoster := by
  intro f s t hr hp ht
  obtain ⟨hheard, hown, hother⟩ := command_rosterFrom hr hp ht
  have hroster := heard_roster f s
  refine ⟨fun hne => hheard ?_, fun heq hnone => ?_, fun k hk hdef => ?_⟩
  · have hne' : f.origin.toNat ≠ s.station := fun h => hne (BitVec.eq_of_toNat_eq h)
    have hnow := refreshRoster_heardNow hne'
    simpa [HeardNow, hroster] using hnow
  · have heq' : f.origin.toNat = s.station := congrArg BitVec.toNat heq
    rw [hown (by simpa [State.station] using heq') (by simpa using hnone), hroster, refreshRoster_own heq']
  · rw [hother k hk (by simpa using hdef), hroster, refreshRoster_other hk]

end Sys2Proof.Machine
end

section
/-! SUPPORT and the proof about the frames that end without being accepted: a clash that silences the link, and the sixteenth
counted failure. -/

namespace Sys2Proof.Machine

/-! ### The end of one frame -/

/-- The events with which the unit of a frame settles its end (R84, R105, R108). -/
def FrameEnd.events (e : FrameEnd) (f : TxFrame) : List Event :=
  match f with
  | .item i => (e.lateReason.map fun reason => Event.lateItem i.serial i.clerk reason).toList
  | _ => (f.tag.map fun tag => Event.requestDone tag e.code none).toList

/-- The late items that the end of a frame makes: one for an ITEM that ends so, and none otherwise (R107, R108). -/
def FrameEnd.lateItems (e : FrameEnd) (f : TxFrame) : Nat :=
  if decide (f.cls = 7) && e.lateReason.isSome then 1 else 0

theorem FrameEnd.events_length (e : FrameEnd) (f : TxFrame) : (e.events f).length ≤ 1 := by
  have hopt (o : Option Event) : o.toList.length ≤ 1 := by cases o <;> simp
  unfold FrameEnd.events
  split <;> exact hopt _

theorem FrameEnd.events_of_tag (e : FrameEnd) {f : TxFrame} {tag : Nat} (h : f.tag = some tag) :
    e.events f = [.requestDone tag e.code none] := by
  cases f with
  | item | cancelExpiry | daysum | censusAsk | censusReply | censusTx | beacon => exact nomatch h
  | _ => simp [FrameEnd.events, h]

theorem FrameEnd.lateItems_of_tag (e : FrameEnd) {f : TxFrame} {tag : Nat} (h : f.tag = some tag) :
    e.lateItems f = 0 := by
  cases f with
  | item | cancelExpiry | daysum | censusAsk | censusReply | censusTx | beacon => exact nomatch h
  | _ => rfl

/-- A frame ends as the frame of a request, as a late item, or without a word to the host. -/
theorem endFrame_cases (f : TxFrame) (e : FrameEnd) (s : State) :
    (∃ tag, f.tag = some tag)
      ∨ (∃ i reason, f = .item i ∧ e.lateReason = some reason ∧ endFrame f e s = lateItem i reason s)
      ∨ (e.events f = [] ∧ e.lateItems f = 0 ∧ endFrame f e s = { s with clt := (endFrame f e s).clt }) := by
  cases f with
  | item i =>
    cases hreason : e.lateReason with
    | none => exact .inr (.inr (by simp [FrameEnd.events, FrameEnd.lateItems, hreason, endFrame]))
    | some reason => exact .inr (.inl ⟨i, reason, rfl, rfl, by simp [endFrame, hreason]⟩)
  | cancelExpiry clerk =>
    refine .inr (.inr ⟨rfl, rfl, ?_⟩)
    simp only [endFrame]
    split
    · unfold restartExpiry
      split <;> rfl
    · rfl
  | daysum | censusAsk | censusReply | censusTx | beacon => exact .inr (.inr ⟨rfl, rfl, rfl⟩)
  | _ => exact .inl ⟨_, rfl⟩

/-- The end of a frame frees its reservation, and nothing else of the labels (R130). -/
theorem endFrame_lbl (f : TxFrame) (e : FrameEnd) (s : State) : (endFrame f e s).lbl
    = { s.lbl with reservations := s.lbl.reservations - if f.reserves then 1 else 0 } := by
  cases f with
  | cancelExpiry clerk =>
    simp only [endFrame]
    split <;> simp [TxFrame.reserves, TxFrame.cls]
  | item i =>
    simp only [endFrame]
    split <;> simp [TxFrame.reserves, TxFrame.cls]
  | _ => simp [endFrame, TxFrame.reserves, TxFrame.cls, freeReservation]

/-- With room the end of a frame queues its event, and nothing else (R84, R105, R108). -/
theorem endFrame_hpt {s : State} (hroom : s.hpt.events.length < 32) (f : TxFrame) (e : FrameEnd) :
    (endFrame f e s).hpt = { s.hpt with events := s.hpt.events ++ (e.events f).map s.record } := by
  obtain ⟨tag, htag⟩ | ⟨i, reason, rfl, hreason, hlate⟩ | ⟨hevents, -, hquiet⟩ := endFrame_cases f e s
  · rw [endFrame_request_room htag hroom, e.events_of_tag htag]
    rfl
  · obtain ⟨hhpt, -, -⟩ := lateItem_room_keeps hroom i reason
    rw [hlate, hhpt]
    simp [FrameEnd.events, hreason]
  · rw [hquiet, hevents]
    simp

/-- A frame that ends as no late item leaves the health monitor (R181). -/
theorem endFrame_hlm_quiet {s : State} (hroom : s.hpt.events.length < 32) {f : TxFrame} {e : FrameEnd}
    (h : e.lateItems f = 0) : (endFrame f e s).hlm = s.hlm := by
  obtain ⟨tag, htag⟩ | ⟨i, reason, rfl, hreason, -⟩ | ⟨-, -, hquiet⟩ := endFrame_cases f e s
  · rw [endFrame_request_room htag hroom]
  · simp [FrameEnd.lateItems, TxFrame.cls, hreason] at h
  · rw [hquiet]

/-- Each late item is one fault (R108, R181). -/
theorem endFrame_faultCount {s : State} (hroom : s.hpt.events.length < 32) (hcount : s.hlm.faultCount ≤ 65535)
    (f : TxFrame) (e : FrameEnd) :
    (endFrame f e s).hlm.faultCount = min (s.hlm.faultCount + e.lateItems f) 65535 := by
  by_cases h : e.lateItems f = 0
  · rw [endFrame_hlm_quiet hroom h, h]
    omega
  · obtain ⟨tag, htag⟩ | ⟨i, reason, rfl, hreason, hlate⟩ | ⟨-, hnone, -⟩ := endFrame_cases f e s
    · exact absurd (e.lateItems_of_tag htag) h
    · obtain ⟨-, hhlm, -⟩ := lateItem_room_keeps hroom i reason
      rw [hlate, hhlm]
      simp [FrameEnd.lateItems, TxFrame.cls, hreason]
    · exact absurd hnone h

/-- A late item is posted as unattached (R108). -/
theorem unattachedPosting_mem_endFrame {e : FrameEnd} (h : e.lateReason.isSome = true) (i : ItemFrame) (s : State) :
    unattachedPosting i.price ∈ (endFrame (.item i) e s).tst.ops := by
  obtain ⟨reason, hreason⟩ := Option.isSome_iff_exists.mp h
  have hposted : unattachedPosting i.price ∈ (postUnattached i.price s).tst.ops :=
    List.mem_append_right _ (List.mem_singleton_self _)
  have hlate : (lateItem i reason s).AddsTo (postUnattached i.price s) := by simp [lateItem]
  simp only [endFrame, hreason]
  exact hlate.2.2.2.2.2.subset hposted

/-! ### The ends of many frames -/

/-- The frames of a list end one after another, in queue order (R67, R167; assumption 21). -/
def endFrames (e : FrameEnd) (l : List TxFrame) (s : State) : State := l.foldl (fun acc f => endFrame f e acc) s

theorem endFrames_cons (e : FrameEnd) (f : TxFrame) (l : List TxFrame) (s : State) :
    endFrames e (f :: l) s = endFrames e l (endFrame f e s) := rfl

theorem endFrames_addsTo (e : FrameEnd) (l : List TxFrame) (s : State) : (endFrames e l s).AddsTo s :=
  foldl_addsTo _ (fun acc f => endFrame_addsTo f e acc) l s

/-- The ends free one reservation for each frame that holds one (R130). -/
theorem endFrames_lbl (e : FrameEnd) (l : List TxFrame) (s : State) : (endFrames e l s).lbl
    = { s.lbl with reservations := s.lbl.reservations - (l.filter TxFrame.reserves).length } := by
  induction l generalizing s with
  | nil => rfl
  | cons f l ih =>
    rw [endFrames_cons, ih, endFrame_lbl]
    cases h : f.reserves <;> simp [h, Nat.sub_sub, Nat.add_comm]

/-- With room the ends queue their events in order, and nothing else (R84, R105, R108). -/
theorem endFrames_hpt {e : FrameEnd} {l : List TxFrame} {s : State} (hroom : s.hpt.events.length + l.length ≤ 32) :
    (endFrames e l s).hpt = { s.hpt with events := s.hpt.events ++ (l.flatMap e.events).map s.record } := by
  induction l generalizing s with
  | nil => simp [endFrames]
  | cons f l ih =>
    have hlength := e.events_length f
    rw [List.length_cons] at hroom
    have hfirst := endFrame_hpt (s := s) (by omega) f e
    have hrecord : (endFrame f e s).record = s.record := by
      funext event
      simp [State.record]
    rw [endFrames_cons, ih, hfirst, hrecord]
    · simp
    · simp only [hfirst, List.length_append, List.length_map]
      omega

/-- With room the ends count one fault for each late item (R181). -/
theorem endFrames_faultCount {e : FrameEnd} {l : List TxFrame} {s : State}
    (hroom : s.hpt.events.length + l.length ≤ 32) (hcount : s.hlm.faultCount ≤ 65535) :
    (endFrames e l s).hlm.faultCount = min (s.hlm.faultCount + (l.map e.lateItems).sum) 65535 := by
  induction l generalizing s with
  | nil =>
    simp [endFrames]
    omega
  | cons f l ih =>
    have hlength := e.events_length f
    rw [List.length_cons] at hroom
    have hfirst := endFrame_faultCount (s := s) (by omega) hcount f e
    rw [endFrames_cons, ih, hfirst, List.map_cons, List.sum_cons]
    · omega
    · rw [endFrame_hpt (by omega)]
      simp only [List.length_append, List.length_map]
      omega
    · omega

/-- Each late item of the list is posted as unattached (R108). -/
theorem unattachedPosting_mem_endFrames {e : FrameEnd} (h : e.lateReason.isSome = true) {i : ItemFrame}
    {l : List TxFrame} (hi : .item i ∈ l) (s : State) : unattachedPosting i.price ∈ (endFrames e l s).tst.ops := by
  induction l generalizing s with
  | nil => exact nomatch hi
  | cons f l ih =>
    rcases List.mem_cons.mp hi with rfl | hi
    · obtain ⟨-, -, -, -, -, hops⟩ := endFrames_addsTo e l (endFrame (.item i) e s)
      exact hops.subset (unattachedPosting_mem_endFrame h i s)
    · exact ih hi _

/-! ### Reports that a later state keeps -/

/-- A report seen in a later state that has the record and the events of its own. -/
theorem State.Moves.later {s t u : State} {a : Attribute} {raw : Nat} (h : s.Moves t a raw)
    (hget : u.hlm.attributes.get a = t.hlm.attributes.get a) (hevents : ∀ r ∈ t.hpt.events, r ∈ u.hpt.events) :
    s.Moves u a raw := by
  obtain ⟨hsame, hmoved⟩ := h
  refine ⟨fun hraw => hget.trans (hsame hraw), fun hraw => ?_⟩
  obtain ⟨h1, h2, h3, h4, h5, h6⟩ := hmoved hraw
  rw [hget]
  exact ⟨h1, h2, h3, h4, h5, fun hl hn hroom => hevents _ (h6 hl hn hroom)⟩

/-- The write of a fault depends on the ring, the run state, the capture unit, the time and the day alone (R181). -/
theorem faultRecord_congr {s t : State} (hhpt : t.hpt = { s.hpt with events := t.hpt.events }) (hcap : t.cap = s.cap)
    (hday : t.day.day = s.day.day) : t.faultRecord = s.faultRecord := by
  funext kind slot count
  simp only [State.faultRecord, hcap, hday]
  rw [hhpt]

/-- With room a fault that comes with an event is that event and one record write (R181, R182). -/
theorem recordFault_queueEvent {s : State} (hroom : s.hpt.events.length < 32) (k : FaultKind) (e : Event) :
    (recordFault k (queueEvent e s)).hpt = { s.hpt with events := s.hpt.events ++ [s.record e] }
      ∧ (recordFault k (queueEvent e s)).hlm = { s.hlm with
          newestFault := ringNext 6 s.hlm.newestFault, faultCount := min (s.hlm.faultCount + 1) 65535 }
      ∧ (recordFault k (queueEvent e s)).tst.ops = s.tst.ops
          ++ [s.faultRecord k.number (ringNext 6 s.hlm.newestFault) (min (s.hlm.faultCount + 1) 65535)] := by
  rw [queueEvent_room hroom]
  exact ⟨rfl, rfl, recordFault_ops k { s with hpt.events := s.hpt.events ++ [s.record e] }⟩

/-- A counted failure has passed between two states, with the clash that it may count (R53 to R55, R177). -/
def State.Fails (s u : State) : Prop :=
  u.lnk = { s.lnk with
      attempt := none, drive := .recessive, formWaiting := false, attemptCount := s.lnk.attemptCount + 1,
      clash := u.lnk.clash }
    ∧ u.hlm.attributes.linkRetries.raw = min (s.hlm.attributes.linkRetries.raw + 1) 65535
    ∧ s.Moves u .linkRetries (s.hlm.attributes.linkRetries.raw + 1)
    ∧ (u.wch = s.wch ∧ u.cap = s.cap ∧ u.lbl = s.lbl ∧ u.tkt = s.tkt ∧ u.clt = s.clt ∧ u.day = s.day
        ∧ u.tst.mem = s.tst.mem)
    ∧ (s.hpt.events.length < 32 →
        u.hpt = { s.hpt with events := u.hpt.events } ∧ u.hpt.events.length ≤ s.hpt.events.length + 1
          ∧ u.hlm.newestFault = s.hlm.newestFault ∧ u.hlm.faultCount = s.hlm.faultCount)

theorem failAttempt_fails (n : Nat) (s : State) : s.Fails (failAttempt { s with lnk.clash := n }) := by
  refine ⟨failAttempt_lnk _ |>.trans (by rw [failAttempt_lnk]), failAttempt_raw _,
    failAttempt_moves { s with lnk.clash := n }, failAttempt_keeps _, fun hroom => ?_⟩
  obtain ⟨-, -, hhpt, -, hnewest, hcount⟩ := failAttempt_reportsOnly (s := { s with lnk.clash := n }) hroom
  refine ⟨?_, moveAttribute_length .linkRetries _ _, hnewest, hcount⟩
  rw [hhpt]

/-! ### The third clash -/

/-- The link silenced with its event and its fault, before its frames end (R67). -/
def silenced (s : State) : State :=
  recordFault .stationClash (queueEvent .stationClash
    { s with
      lnk := { s.lnk with
        state := .silent, queue := [], attempt := none, attemptCount := 0, formWaiting := false,
        backlog := .none, beaconTimer := none, drive := .recessive } })

theorem fallSilent_eq (s : State) : fallSilent s = endFrames .silent s.lnk.queue (silenced s) := rfl

theorem fallSilent_lnk (s : State) : (fallSilent s).lnk = { s.lnk with
    state := .silent, queue := [], attempt := none, attemptCount := 0, formWaiting := false,
    backlog := .none, beaconTimer := none, drive := .recessive } := by
  refine (foldl_keeps (·.lnk) (fun acc f => endFrame f .silent acc) (by simp) _ _).trans ?_
  simp

/-- A silent end leaves the orders: it is no drop (R113). -/
theorem endFrame_silent_clt (f : TxFrame) (s : State) : (endFrame f .silent s).clt = s.clt := by
  cases f <;> simp [endFrame, completeRequest, FrameEnd.lateReason]

/-- The clash is a matter of the link, the labels, the host port and the health monitor. -/
theorem fallSilent_keeps (s : State) : (fallSilent s).wch = s.wch ∧ (fallSilent s).cap = s.cap
    ∧ (fallSilent s).tkt = s.tkt ∧ (fallSilent s).clt = s.clt ∧ (fallSilent s).day = s.day
    ∧ (fallSilent s).tst.mem = s.tst.mem ∧ (fallSilent s).hlm.attributes = s.hlm.attributes := by
  have hends {β : Type} (g : State → β) (hg : ∀ f u, g (endFrame f .silent u) = g u) (hs : g (silenced s) = g s) :
      g (fallSilent s) = g s :=
    (foldl_keeps g (fun acc f => endFrame f .silent acc) (fun u f => hg f u) s.lnk.queue _).trans hs
  exact ⟨hends (·.wch) (by simp) (by simp [silenced]), hends (·.cap) (by simp) (by simp [silenced]),
    hends (·.tkt) (by simp) (by simp [silenced]), hends (·.clt) endFrame_silent_clt (by simp [silenced]),
    hends (·.day) (by simp) (by simp [silenced]), hends (·.tst.mem) (by simp) (by simp [silenced]),
    hends (·.hlm.attributes) (by simp) (by simp [silenced])⟩

theorem lateItems_silent_sum (l : List TxFrame) :
    (l.map FrameEnd.silent.lateItems).sum = (l.filter fun f => decide (f.cls = 7)).length := by
  induction l with
  | nil => rfl
  | cons f l ih =>
    cases h : decide (f.cls = 7) <;> simp [FrameEnd.lateItems, FrameEnd.lateReason, h, ih, Nat.add_comm]

/-- What a clash hands and queues, with room (R67, R105, R107, R108). -/
theorem fallSilent_reports {s : State} (hroom : s.hpt.events.length + s.lnk.queue.length < 32) :
    (fallSilent s).hpt.events
        = s.hpt.events ++ s.record .stationClash :: (s.lnk.queue.flatMap FrameEnd.silent.events).map s.record
      ∧ s.faultRecord 4 (ringNext 6 s.hlm.newestFault) (min (s.hlm.faultCount + 1) 65535) ∈ (fallSilent s).tst.ops
      ∧ (∀ i, .item i ∈ s.lnk.queue → unattachedPosting i.price ∈ (fallSilent s).tst.ops)
      ∧ (fallSilent s).hlm.faultCount
          = min (s.hlm.faultCount + 1 + (s.lnk.queue.filter fun f => decide (f.cls = 7)).length) 65535 := by
  obtain ⟨hhpt, hhlm, hops⟩ : (silenced s).hpt = { s.hpt with events := s.hpt.events ++ [s.record .stationClash] }
      ∧ (silenced s).hlm = { s.hlm with
          newestFault := ringNext 6 s.hlm.newestFault, faultCount := min (s.hlm.faultCount + 1) 65535 }
      ∧ (silenced s).tst.ops = s.tst.ops
          ++ [s.faultRecord 4 (ringNext 6 s.hlm.newestFault) (min (s.hlm.faultCount + 1) 65535)] :=
    recordFault_queueEvent (s := { s with lnk := _ }) (by exact lt_of_le_of_lt (Nat.le_add_right _ _) hroom)
      .stationClash .stationClash
  have hplaces : (silenced s).hpt.events.length + s.lnk.queue.length ≤ 32 := by
    simp only [hhpt, List.length_append, List.length_singleton]
    omega
  have hcount : (silenced s).hlm.faultCount ≤ 65535 := by
    rw [hhlm]
    exact Nat.min_le_right _ _
  have hrecord : (silenced s).record = s.record := by
    funext e
    simp [State.record, hhpt]
  rw [fallSilent_eq]
  refine ⟨?_, ?_, fun i hi => unattachedPosting_mem_endFrames rfl hi _, ?_⟩
  · rw [endFrames_hpt hplaces, hrecord, hhpt]
    simp
  · obtain ⟨-, -, -, -, -, hprefix⟩ := endFrames_addsTo .silent s.lnk.queue (silenced s)
    exact hprefix.subset (by simp [hops])
  · rw [endFrames_faultCount hplaces hcount, lateItems_silent_sum, hhlm]
    dsimp only
    omega

/-! ### The sixteenth counted failure -/

/-- The head off the queue with its event and its fault, before its unit settles it (R55). -/
def dropped (f : TxFrame) (s : State) : State := recordFault .linkDrop (queueEvent (.linkDrop f.cls) (dropHead s))

theorem dropFrame_eq {s : State} {f : TxFrame} {rest : List TxFrame} (hq : s.lnk.queue = f :: rest)
    (hb : s.lnk.backlog = Backlog.none) : dropFrame s = endFrame f .dropped (dropped f s) := by
  have hempty : (endFrame f .dropped (dropped f s)).lnk.backlog = Backlog.none := by simpa [dropped, dropHead] using hb
  rw [dropFrame, hq]
  exact moveBacklog_empty hempty

/-- A drop is a matter of the link, the labels, the orders, the host port and the health monitor. -/
theorem dropFrame_keeps {s : State} {f : TxFrame} {rest : List TxFrame} (hq : s.lnk.queue = f :: rest)
    (hb : s.lnk.backlog = Backlog.none) :
    (dropFrame s).lnk = { s.lnk with queue := rest, attemptCount := 0 }
      ∧ (dropFrame s).lbl = { s.lbl with reservations := s.lbl.reservations - if f.reserves then 1 else 0 }
      ∧ (dropFrame s).wch = s.wch ∧ (dropFrame s).cap = s.cap ∧ (dropFrame s).tkt = s.tkt ∧ (dropFrame s).day = s.day
      ∧ (dropFrame s).tst.mem = s.tst.mem ∧ (dropFrame s).hlm.attributes = s.hlm.attributes := by
  rw [dropFrame_eq hq hb, endFrame_lbl]
  simp [dropped, dropHead, hq]

/-- The duration of an order's expiry depends on the settings and the straps alone (R111). -/
theorem expiryDuration_congr {s t : State} (hminutes : t.clt.expiryMinutes = s.clt.expiryMinutes)
    (hstraps : t.hpt.straps = s.hpt.straps) : t.expiryDuration = s.expiryDuration := by
  funext holder
  rw [State.expiryDuration, State.expiryDuration, State.station, State.station, hminutes, hstraps]

/-- A dropped TXCANCEL(EXPIRY) clears the mark of its order and restarts its timer (R113). -/
theorem dropFrame_cancelExpiry {s : State} {clerk : Nat} {o : Order} {rest : List TxFrame}
    (hq : s.lnk.queue = .cancelExpiry clerk :: rest) (hb : s.lnk.backlog = Backlog.none) (ho : s.order clerk = some o) :
    (dropFrame s).order clerk = some { o with expiryMark := false, timer := some (s.expiryDuration o.holder) }
      ∧ ∀ c, c ≠ clerk → (dropFrame s).order c = s.order c := by
  have hheld : (dropped (.cancelExpiry clerk) s).order clerk = some o := by
    simpa [State.order, dropped, dropHead] using ho
  have hduration : (dropped (.cancelExpiry clerk) s).expiryDuration = s.expiryDuration :=
    expiryDuration_congr (by simp [dropped, dropHead]) (by simp [dropped, dropHead])
  have hend : dropFrame s = putOrder clerk
      { o with expiryMark := false, timer := some (s.expiryDuration o.holder) } (dropped (.cancelExpiry clerk) s) := by
    simp [dropFrame_eq hq hb, endFrame, restartExpiry, hheld, hduration]
  rw [hend]
  refine ⟨?_, fun c hc => ?_⟩
  · simp [State.order, putOrder]
  · simp [State.order, putOrder, Table.get_put_other hc, dropped, dropHead]

/-- Every other frame leaves the orders as it is dropped. -/
theorem dropFrame_clt {s : State} {f : TxFrame} {rest : List TxFrame} (hq : s.lnk.queue = f :: rest)
    (hb : s.lnk.backlog = Backlog.none) (hf : ∀ clerk, f ≠ .cancelExpiry clerk) : (dropFrame s).clt = s.clt := by
  rw [dropFrame_eq hq hb]
  cases f with
  | cancelExpiry clerk => exact absurd rfl (hf clerk)
  | _ => simp [endFrame, completeRequest, FrameEnd.lateReason, dropped, dropHead]

/-- What a drop hands and queues, with room (R55, R105, R108). -/
theorem dropFrame_reports {s : State} {f : TxFrame} {rest : List TxFrame} (hq : s.lnk.queue = f :: rest)
    (hb : s.lnk.backlog = Backlog.none) (hroom : s.hpt.events.length < 31) :
    (dropFrame s).hpt.events
        = s.hpt.events ++ s.record (.linkDrop f.cls) :: (FrameEnd.dropped.events f).map s.record
      ∧ s.faultRecord 3 (ringNext 6 s.hlm.newestFault) (min (s.hlm.faultCount + 1) 65535) ∈ (dropFrame s).tst.ops
      ∧ (∀ i, f = .item i → unattachedPosting i.price ∈ (dropFrame s).tst.ops)
      ∧ (dropFrame s).hlm.faultCount = min (s.hlm.faultCount + 1 + if f.cls = 7 then 1 else 0) 65535 := by
  obtain ⟨hhpt, hhlm, hops⟩ : (dropped f s).hpt = { s.hpt with events := s.hpt.events ++ [s.record (.linkDrop f.cls)] }
      ∧ (dropped f s).hlm = { s.hlm with
          newestFault := ringNext 6 s.hlm.newestFault, faultCount := min (s.hlm.faultCount + 1) 65535 }
      ∧ (dropped f s).tst.ops = s.tst.ops
          ++ [s.faultRecord 3 (ringNext 6 s.hlm.newestFault) (min (s.hlm.faultCount + 1) 65535)] :=
    recordFault_queueEvent (s := dropHead s) (by exact Nat.lt_succ_of_lt hroom) .linkDrop (.linkDrop f.cls)
  have hplace : (dropped f s).hpt.events.length < 32 := by
    simp only [hhpt, List.length_append, List.length_singleton]
    omega
  have hcount : (dropped f s).hlm.faultCount ≤ 65535 := by
    rw [hhlm]
    exact Nat.min_le_right _ _
  have hrecord : (dropped f s).record = s.record := by
    funext e
    simp [State.record, hhpt]
  have hlate : FrameEnd.dropped.lateItems f = if f.cls = 7 then 1 else 0 := by
    simp [FrameEnd.lateItems, FrameEnd.lateReason]
  rw [dropFrame_eq hq hb]
  refine ⟨?_, ?_, ?_, ?_⟩
  · rw [endFrame_hpt hplace, hrecord, hhpt]
    simp
  · obtain ⟨-, -, -, -, -, hprefix⟩ := endFrame_addsTo f .dropped (dropped f s)
    exact hprefix.subset (by simp [hops])
  · rintro i rfl
    exact unattachedPosting_mem_endFrame rfl i _
  · rw [endFrame_faultCount hplace hcount, hhlm, hlate]
    dsimp only
    omega

/-- An attempt that is objected to for the sixteenth time, or fails so by a bit error, has its frame dropped (R55). -/
theorem exec_sixteenthFailure {s : State} {i : Instr} (hi : i = .attemptObjected ∨ (i = .attemptBitError ∧ s.lnk.clash < 2))
    (hattempt : s.lnk.attempt.isSome = true) (hcount : s.lnk.attemptCount = 15) :
    ∃ u, s.Fails u ∧ exec i s = .next (dropFrame u) := by
  rcases hi with rfl | ⟨rfl, hclash⟩
  · exact ⟨_, failAttempt_fails s.lnk.clash s, by rw [exec_attemptObjected hattempt, if_pos (by omega)]⟩
  · refine ⟨_, failAttempt_fails (s.lnk.clash + 1) s, ?_⟩
    rw [exec_attemptBitError hattempt, if_neg (by omega), if_pos (by omega)]

/-- A dropped head with all that the failure and the drop leave (R53 to R55). -/
theorem dropFrame_of_fails {s u : State} {f : TxFrame} {rest : List TxFrame} (hfails : s.Fails u)
    (hq : s.lnk.queue = f :: rest) (hb : s.lnk.backlog = Backlog.none) (hroom : s.hpt.events.length < 29) :
    (dropFrame u).lnk = { s.lnk with
        queue := rest, attempt := none, attemptCount := 0, formWaiting := false, drive := .recessive,
        clash := u.lnk.clash }
      ∧ (dropFrame u).lbl = { s.lbl with reservations := s.lbl.reservations - if f.reserves then 1 else 0 }
      ∧ (dropFrame u).hlm.attributes.linkRetries.raw = min (s.hlm.attributes.linkRetries.raw + 1) 65535
      ∧ s.Moves (dropFrame u) .linkRetries (s.hlm.attributes.linkRetries.raw + 1)
      ∧ (∃ before, (dropFrame u).hpt.events
          = before ++ s.record (.linkDrop f.cls) :: (FrameEnd.dropped.events f).map s.record)
      ∧ s.faultRecord 3 (ringNext 6 s.hlm.newestFault) (min (s.hlm.faultCount + 1) 65535) ∈ (dropFrame u).tst.ops
      ∧ (dropFrame u).hlm.faultCount = min (s.hlm.faultCount + 1 + if f.cls = 7 then 1 else 0) 65535
      ∧ (∀ i, f = .item i → unattachedPosting i.price ∈ (dropFrame u).tst.ops)
      ∧ (dropFrame u).wch = s.wch ∧ (dropFrame u).cap = s.cap ∧ (dropFrame u).tkt = s.tkt ∧ (dropFrame u).day = s.day
      ∧ (dropFrame u).tst.mem = s.tst.mem := by
  obtain ⟨hlnk, hraw, hmoves, ⟨hwch, hcap, hlbl, htkt, hclt, hday, hmem⟩, hport⟩ := hfails
  obtain ⟨hhpt, hlength, hnewest, hfaults⟩ := hport (by omega)
  have huq : u.lnk.queue = f :: rest := by rw [hlnk, ← hq]
  have hub : u.lnk.backlog = Backlog.none := by rw [hlnk, ← hb]
  obtain ⟨hlnk', hlbl', hwch', hcap', htkt', hday', hmem', hattr⟩ := dropFrame_keeps huq hub
  obtain ⟨hevents, hfault, hposted, hcount⟩ := dropFrame_reports huq hub (by omega)
  have hrecord : u.record = s.record := by
    funext e
    simp only [State.record]
    rw [hhpt]
  rw [hrecord] at hevents
  rw [faultRecord_congr hhpt hcap (by rw [hday]), hnewest, hfaults] at hfault
  rw [hfaults] at hcount
  refine ⟨by rw [hlnk', hlnk], by rw [hlbl', hlbl], by rw [hattr, hraw], hmoves.later (by rw [hattr]) ?_, ⟨_, hevents⟩,
    hfault, hcount, hposted, hwch'.trans hwch, hcap'.trans hcap, htkt'.trans htkt, hday'.trans hday, hmem'.trans hmem⟩
  rw [hevents]
  exact fun r hr => List.mem_append_left _ hr

/-- Settles O45: the silenced link with the ends of its frames, and the dropped head with its own. -/
theorem clashSilencesAndFailuresDrop : Obligations.ClashSilencesAndFailuresDrop := by
  refine ⟨fun s hattempt hclash => ?_, fun s i f rest hi hattempt hcount hq hb hroom => ?_,
    fun s tag clerk rest hattempt hcount hq hb hroom => ?_⟩
  · have hfails := failAttempt_fails (s.lnk.clash + 1) s
    have hexec : exec .attemptBitError s = .next (fallSilent (failAttempt { s with lnk.clash := s.lnk.clash + 1 })) := by
      rw [exec_attemptBitError hattempt, if_pos (by omega)]
    have hthird : (failAttempt { s with lnk.clash := s.lnk.clash + 1 }).lnk.clash = 3 := by
      rw [failAttempt_lnk]
      exact congrArg (· + 1) hclash
    generalize failAttempt { s with lnk.clash := s.lnk.clash + 1 } = u at hfails hexec hthird
    obtain ⟨hlnk, hraw, hmoves, ⟨hwch, hcap, hlbl, htkt, hclt, hday, hmem⟩, hport⟩ := hfails
    obtain ⟨hwch', hcap', htkt', hclt', hday', hmem', hattr⟩ := fallSilent_keeps u
    have hqueue : u.lnk.queue = s.lnk.queue := by rw [hlnk]
    have hadds : (fallSilent u).AddsTo u :=
      State.AddsTo.trans (t := silenced u) (by simp [silenced]) (endFrames_addsTo .silent u.lnk.queue (silenced u))
    refine ⟨_, hexec, by rw [fallSilent_lnk], by rw [fallSilent_lnk], by rw [fallSilent_lnk],
      by rw [fallSilent_lnk]; exact hthird, by rw [fallSilent_lnk]; rfl, ?_, by rw [hattr, hraw],
      hmoves.later (by rw [hattr]) hadds.2.2.2.2.1.subset, fun hroom => ?_, hwch'.trans hwch, hcap'.trans hcap,
      htkt'.trans htkt, hclt'.trans hclt, hday'.trans hday, hmem'.trans hmem⟩
    · rw [fallSilent_eq, endFrames_lbl, hqueue]
      simp [silenced, hlbl]
    · obtain ⟨hhpt, hlength, hnewest, hfaults⟩ := hport (by omega)
      obtain ⟨hevents, hfault, hposted, hcount⟩ := fallSilent_reports (s := u) (by rw [hqueue]; omega)
      have hrecord : u.record = s.record := by
        funext e
        simp only [State.record]
        rw [hhpt]
      rw [hqueue] at hevents hposted hcount
      rw [hrecord] at hevents
      rw [faultRecord_congr hhpt hcap (by rw [hday]), hnewest, hfaults] at hfault
      rw [hfaults] at hcount
      have hmem {f : TxFrame} {e : Event} (hf : f ∈ s.lnk.queue) (he : e ∈ FrameEnd.silent.events f) :
          s.record e ∈ (fallSilent u).hpt.events := by
        rw [hevents]
        exact List.mem_append_right _ (List.mem_cons_of_mem _ (List.mem_map_of_mem (List.mem_flatMap.mpr ⟨f, hf, he⟩)))
      refine ⟨by simp [hevents], hfault, fun f hf tag htag => hmem hf ?_, fun i hi => ⟨hmem hi ?_, hposted i hi⟩, hcount⟩
      · simp [FrameEnd.events_of_tag _ htag, FrameEnd.code]
      · simp [FrameEnd.events, FrameEnd.lateReason]
  · obtain ⟨u, hfails, hexec⟩ := exec_sixteenthFailure hi hattempt hcount
    obtain ⟨hlnk, hlbl, hraw, hmoves, ⟨before, hevents⟩, hfault, hfaults, hposted, hwch, hcap, htkt, hday, hmem⟩ :=
      dropFrame_of_fails hfails hq hb hroom
    obtain ⟨hulnk, -, -, ⟨-, -, -, -, hclt, -⟩, hport⟩ := hfails
    obtain ⟨hhpt, -⟩ := hport (by omega)
    have huq : u.lnk.queue = f :: rest := by rw [hulnk, ← hq]
    have hub : u.lnk.backlog = Backlog.none := by rw [hulnk]; exact hb
    have hends {e : Event} (he : e ∈ FrameEnd.dropped.events f) : s.record e ∈ (dropFrame u).hpt.events := by
      rw [hevents]
      exact List.mem_append_right _ (List.mem_cons_of_mem _ (List.mem_map_of_mem he))
    refine ⟨_, hexec, by rw [hlnk], by rw [hlnk], by rw [hlnk], by rw [hlnk], hlbl, hraw, hmoves, by simp [hevents], hfault,
      hfaults, fun tag htag => hends ?_, fun item hitem => ⟨hends ?_, hposted item hitem⟩, ?_, fun hf => ?_, hwch, hcap,
      htkt, hday, hmem⟩
    · simp [FrameEnd.events_of_tag _ htag, FrameEnd.code]
    · simp [hitem, FrameEnd.events, FrameEnd.lateReason]
    · rintro clerk o rfl ho
      have ho' : u.order clerk = some o := by simpa [State.order, hclt] using ho
      have hduration : u.expiryDuration = s.expiryDuration := expiryDuration_congr (by rw [hclt]) (by rw [hhpt])
      obtain ⟨hmarked, hothers⟩ := dropFrame_cancelExpiry huq hub ho'
      refine ⟨by rw [hmarked, hduration], fun c hc => (hothers c hc).trans ?_⟩
      simp [State.order, hclt]
    · rw [dropFrame_clt huq hub hf, hclt]
  · obtain ⟨u, hfails, hexec⟩ := exec_sixteenthFailure (.inl rfl) hattempt hcount
    obtain ⟨hlnk, hlbl, -, -, ⟨before, hevents⟩, -, hfaults, -, hwch, hcap, htkt, hday, hmem⟩ :=
      dropFrame_of_fails hfails hq hb hroom
    obtain ⟨hulnk, -, -, ⟨-, -, -, -, hclt, -⟩, -⟩ := hfails
    have huq : u.lnk.queue = .txClose tag clerk :: rest := by rw [hulnk, ← hq]
    have hub : u.lnk.backlog = Backlog.none := by rw [hulnk]; exact hb
    have hdone : FrameEnd.dropped.events (.txClose tag clerk) = [.requestDone tag .dropped none] := rfl
    rw [hdone] at hevents
    refine ⟨_, hexec, by rw [hlnk], by rw [hlnk], by rw [hlnk], hlbl, ?_, ?_, hfaults, hwch, hcap, htkt,
      (dropFrame_clt huq hub (by simp)).trans hclt, hday, hmem⟩
    · rw [hevents]
      exact List.mem_append_right _ (List.mem_cons_self ..)
    · rw [hevents, List.getLast?_append]
      rfl

end Sys2Proof.Machine
end

section
/-! SUPPORT. What a frame of the present day reports: the events that it queues and the mismatches that it raises, one after
another (R77, R178, R189). -/

namespace Sys2Proof.Machine

/-! ### Frames of the present day -/

/-- A frame of classes 1..7 of the present day is applied at once (R59, R161). -/
theorem acceptDayFrame_today {f : Frame} {s : State} (h : s.hearsToday f.payload) :
    acceptDayFrame f s = applyDayFrame f (s.ownFrame f) (s.heard f) := by
  obtain ⟨hreceives, hrange, htag⟩ := h
  rw [acceptDayFrame, acceptFrame_heard hreceives hrange, receiveDayFrame]
  simp [judgeTag, htag]

/-- What a frame of the present day leaves is the link of the station that has heard it. -/
theorem linkAfter_applyDayFrame (f : Frame) (own : Option TxFrame) (s : State) :
    s.LinkAfter (applyDayFrame f own (s.heard f)) f := by
  obtain ⟨hlnk, -⟩ := applyDayFrame_keepsLink f own (s.heard f)
  exact linkAfter_of_heard (by rw [hlnk])

section
variable (f : Frame) (s : State)

@[simp] theorem heard_order : (s.heard f).order = s.order := by
  funext c
  simp [State.order]

@[simp] theorem heard_waits : (s.heard f).waits = s.waits := by
  funext n
  simp [State.waits]

@[simp] theorem heard_bound : (s.heard f).bound = s.bound := by
  funext n
  simp [State.bound]

@[simp] theorem heard_ticketConfig : (s.heard f).ticketConfig = s.ticketConfig := by
  simp [State.ticketConfig]

@[simp] theorem heard_expiryDuration : (s.heard f).expiryDuration = s.expiryDuration :=
  expiryDuration_congr (by simp) (by simp)

@[simp] theorem heard_record : (s.heard f).record = s.record := by
  funext e
  simp [State.record]

end

/-! ### Reports -/

/-- A report made with room, seen from an earlier state with the same record (R176, R178). -/
theorem moveAttribute_moves_from {s t : State} {a : Attribute} {raw : Nat} (hroom : t.hpt.events.length < 32)
    (hget : t.hlm.attributes.get a = s.hlm.attributes.get a) (hfigures : t.figures = s.figures)
    (hrecord : t.record = s.record) : s.Moves (moveAttribute a raw t) a raw := by
  obtain ⟨hsame, hmoved⟩ := moveAttribute_moves a raw t
  have hevents := moveAttribute_events hroom a raw
  rw [hget] at hsame hmoved
  rw [hget, hfigures, hrecord] at hevents
  rw [hfigures] at hmoved
  refine ⟨hsame, fun hraw => ?_⟩
  obtain ⟨h1, h2, h3, h4, h5, -⟩ := hmoved hraw
  refine ⟨h1, h2, h3, h4, h5, fun hlow hwas _ => ?_⟩
  have hget' := moveAttribute_get (s := t) (by rwa [hget])
  rw [hget, hfigures] at hget'
  rw [hget'] at hlow ⊢
  rw [hevents]
  simp [hraw, hlow, hwas]

/-- The event with which the request of an accepted frame completes at its sender, if it has one (R84, R105). -/
def completions (own : Option TxFrame) (code : ResultCode) (ticket : Option Nat) : List Event :=
  ((own.bind TxFrame.tag).map fun tag => Event.requestDone tag code ticket).toList

theorem completions_length (own : Option TxFrame) (code : ResultCode) (ticket : Option Nat) :
    (completions own code ticket).length ≤ 1 := by
  unfold completions
  cases own.bind TxFrame.tag <;> simp

/-- A completion with room is one event at the tail (R84, R105). -/
theorem completeOwn_room {own : Option TxFrame} {tag : Nat} {s : State} (htag : own.bind TxFrame.tag = some tag)
    (hroom : s.hpt.events.length < 32) (code : ResultCode) (ticket : Option Nat) :
    completeOwn own code ticket s
      = { s with hpt.events := s.hpt.events ++ [s.record (.requestDone tag code ticket)] } := by
  simp [completeOwn, htag, completeRequest, queueEvent_room hroom, State.record]

/-- Between two states events have been queued with room, and mismatches have been reported, each with its event among
them; the host port and the health monitor are otherwise as they were. -/
structure State.Reports (s t : State) (events : List Event) (mismatches : Nat) : Prop where
  hpt : t.hpt = { s.hpt with events := t.hpt.events }
  held : s.hpt.events <+: t.hpt.events
  queued : ∀ e ∈ events, s.record e ∈ t.hpt.events
  length : t.hpt.events.length ≤ s.hpt.events.length + events.length + mismatches
  quiet : mismatches = 0 → t.hlm = s.hlm ∧ t.hpt.events = s.hpt.events ++ events.map s.record
  raw : mismatches ≠ 0 →
    t.hlm.attributes.viewMismatch.raw = min (s.hlm.attributes.viewMismatch.raw + mismatches) 65535
  moves : mismatches = 1 → s.Moves t .viewMismatch (s.hlm.attributes.viewMismatch.raw + 1)

namespace State.Reports

variable {s t u : State} {l : List Event} {n : Nat}

theorem record (h : s.Reports t l n) : t.record = s.record := by
  funext e
  rw [State.record, h.hpt]
  rfl

theorem figures (h : s.Reports t l n) : t.figures = s.figures := by
  rw [State.figures, h.hpt]
  rfl

/-- A step that leaves the host port and the health monitor reports nothing. -/
theorem of_same (hhpt : t.hpt = s.hpt) (hhlm : t.hlm = s.hlm) : s.Reports t [] 0 where
  hpt := by rw [hhpt]
  held := by rw [hhpt]
  queued := by simp
  length := by rw [hhpt]; exact Nat.le_refl _
  quiet := fun _ => ⟨hhlm, by simp [hhpt]⟩
  raw := fun h => absurd rfl h
  moves := fun h => nomatch h

theorem thenSame (h : s.Reports t l n) (hhpt : u.hpt = t.hpt) (hhlm : u.hlm = t.hlm) : s.Reports u l n where
  hpt := by rw [hhpt, h.hpt]
  held := by rw [hhpt]; exact h.held
  queued := by rw [hhpt]; exact h.queued
  length := by rw [hhpt]; exact h.length
  quiet := by rw [hhpt, hhlm]; exact h.quiet
  raw := by rw [hhlm]; exact h.raw
  moves := fun hn => (h.moves hn).later (by rw [hhlm]) (by rw [hhpt]; exact fun _ => id)

/-- The same step seen from a state with the same host port and health monitor. -/
theorem fromSame (h : t.Reports u l n) (hhpt : t.hpt = s.hpt) (hhlm : t.hlm = s.hlm) : s.Reports u l n := by
  have hrecord : t.record = s.record := by
    funext e
    simp [State.record, hhpt]
  have hfigures : t.figures = s.figures := by simp [State.figures, hhpt]
  constructor
  · rw [← hhpt, ← h.hpt]
  · rw [← hhpt]; exact h.held
  · rw [← hrecord]; exact h.queued
  · rw [← hhpt]; exact h.length
  · rw [← hhlm, ← hhpt, ← hrecord]; exact h.quiet
  · rw [← hhlm]; exact h.raw
  · intro hn
    have hmoves := h.moves hn
    rwa [State.Moves, hhlm, hhpt, hfigures, hrecord] at hmoves

/-- One more event (R189). -/
theorem thenEvent (h : s.Reports t l n) (hroom : s.hpt.events.length + l.length + n < 32) (e : Event) :
    s.Reports (queueEvent e t) (l ++ [e]) n := by
  have hlength := h.length
  have hqueued : queueEvent e t = { t with hpt.events := t.hpt.events ++ [s.record e] } := by
    rw [queueEvent_room (by omega), ← h.record]
    rfl
  constructor
  · rw [hqueued, h.hpt]
  · rw [hqueued]
    exact h.held.trans (List.prefix_append ..)
  · intro e' he'
    rw [hqueued]
    rcases List.mem_append.mp he' with he' | he'
    · exact List.mem_append_left _ (h.queued e' he')
    · rw [List.mem_singleton.mp he']
      simp
  · simp only [hqueued, List.length_append, List.length_singleton]
    omega
  · intro hn
    obtain ⟨hhlm, hevents⟩ := h.quiet hn
    rw [hqueued]
    simp [hhlm, hevents]
  · rw [hqueued]
    exact h.raw
  · intro hn
    rw [hqueued]
    exact (h.moves hn).later rfl fun _ hr => List.mem_append_left _ hr

/-- One more mismatch, with its event and its report (R77). -/
theorem thenMismatch (h : s.Reports t l n) (hroom : s.hpt.events.length + l.length + n < 31) (k : MismatchKind)
    (clerk ticket : Option Nat) :
    s.Reports (raiseMismatch k clerk ticket t) (l ++ [.viewMismatch k clerk ticket]) (n + 1) := by
  have hevent := h.thenEvent (by omega) (.viewMismatch k clerk ticket)
  have hlength := h.length
  have hraise := raiseMismatch_hpt (s := t) (by omega) k clerk ticket
  have hplaces : (queueEvent (.viewMismatch k clerk ticket) t).hpt.events.length < 32 :=
    lt_of_le_of_lt (queueEvent_length ..) (by omega)
  have hkept : (queueEvent (.viewMismatch k clerk ticket) t).hpt.events
      <+: (raiseMismatch k clerk ticket t).hpt.events := by
    rw [raiseMismatch, raiseAttribute, moveAttribute_events hplaces]
    exact List.prefix_append ..
  constructor
  · rw [hraise, h.hpt]
  · exact hevent.held.trans hkept
  · exact fun e he => hkept.subset (hevent.queued e he)
  · refine (moveAttribute_length ..).trans ?_
    have := hevent.length
    omega
  · exact fun hn => absurd hn (Nat.succ_ne_zero n)
  · intro _
    have hraw : (raiseMismatch k clerk ticket t).hlm.attributes.viewMismatch.raw
        = min (t.hlm.attributes.viewMismatch.raw + 1) 65535 := by
      refine (moveAttribute_raw .viewMismatch _ _).trans ?_
      rw [queueEvent_attributes]
      rfl
    rw [hraw]
    by_cases hn : n = 0
    · obtain ⟨hhlm, -⟩ := h.quiet hn
      simp [hhlm, hn]
    · rw [h.raw hn]
      omega
  · intro hn
    obtain ⟨hhlm, hevents⟩ := h.quiet (Nat.succ.inj hn)
    have hmoves := moveAttribute_moves_from (s := s) (a := .viewMismatch)
      (raw := s.hlm.attributes.viewMismatch.raw + 1) hplaces (by rw [queueEvent_attributes, hhlm])
      hevent.figures hevent.record
    rwa [raiseMismatch, raiseAttribute, queueEvent_attributes, hhlm]

/-- A request that completes at its sender queues its event (R84, R105). -/
theorem thenComplete (h : s.Reports t l n) (hroom : s.hpt.events.length + l.length + n < 32) (own : Option TxFrame)
    (code : ResultCode) (ticket : Option Nat) :
    s.Reports (completeOwn own code ticket t) (l ++ completions own code ticket) n := by
  unfold completeOwn completions
  cases own.bind TxFrame.tag with
  | none => simpa using h
  | some tag => exact h.thenEvent hroom _

/-- One mismatch alone. -/
theorem mismatches (h : s.Reports t l 1) {k : MismatchKind} {clerk ticket : Option Nat}
    (he : .viewMismatch k clerk ticket ∈ l) : s.Mismatches t k clerk ticket :=
  ⟨h.queued _ he, h.moves rfl⟩

end State.Reports

/-! ### Operations handed with a report -/

/-- Nothing has been handed between two states but writes of records. -/
def State.WritesRecords (s t : State) : Prop := ∀ op ∈ t.tst.ops, op ∈ s.tst.ops ∨ ∃ words, op = .recordWrite words

namespace State.WritesRecords

variable {s t u : State}

theorem of_same (h : t.tst.ops = s.tst.ops) : s.WritesRecords t := by
  rw [State.WritesRecords, h]
  exact fun _ => .inl

theorem trans (h : s.WritesRecords t) (g : t.WritesRecords u) : s.WritesRecords u :=
  fun op hop => (g op hop).elim (h op) .inr

theorem of_handed {words : List (Nat × Word)} (h : t.tst.ops = s.tst.ops ++ [.recordWrite words]) :
    s.WritesRecords t := by
  rw [State.WritesRecords, h]
  simp +contextual [or_imp]

end State.WritesRecords

theorem queueEvent_writesRecords (e : Event) (s : State) : s.WritesRecords (queueEvent e s) := by
  unfold queueEvent
  split
  · exact .of_same rfl
  · exact .of_handed rfl

theorem moveAttribute_writesRecords (a : Attribute) (raw : Nat) (s : State) :
    s.WritesRecords (moveAttribute a raw s) := by
  unfold moveAttribute
  dsimp only
  split
  · exact .of_same rfl
  · split
    · exact State.WritesRecords.trans (.of_handed rfl) (queueEvent_writesRecords _ _)
    · exact .of_handed rfl

theorem raiseMismatch_writesRecords (k : MismatchKind) (clerk ticket : Option Nat) (s : State) :
    s.WritesRecords (raiseMismatch k clerk ticket s) :=
  State.WritesRecords.trans (queueEvent_writesRecords _ _) (moveAttribute_writesRecords _ _ _)

theorem completeOwn_writesRecords (own : Option TxFrame) (code : ResultCode) (ticket : Option Nat) (s : State) :
    s.WritesRecords (completeOwn own code ticket s) := by
  unfold completeOwn
  split
  · exact .of_same rfl
  · exact queueEvent_writesRecords _ s

end Sys2Proof.Machine
end

section
/-! SUPPORT and the proof about the ticket frames: what an ISSUE, a CALL and a PASS do to the ticket view and to the order
of their clerk (R77, R80, R83, R94, R95). -/

namespace Sys2Proof.Machine

/-! ### Orders by clerk -/

@[simp] theorem putOrder_order_same (clerk : Nat) (o : Order) (s : State) : (putOrder clerk o s).order clerk = some o :=
  Table.get_put_same ..

theorem putOrder_order_other {clerk c : Nat} (h : c ≠ clerk) (o : Order) (s : State) :
    (putOrder clerk o s).order c = s.order c := Table.get_put_other h o

@[simp] theorem freeOrder_order_same (clerk : Nat) (s : State) : (freeOrder clerk s).order clerk = none :=
  Table.get_del_same ..

theorem freeOrder_order_other {clerk c : Nat} (h : c ≠ clerk) (s : State) : (freeOrder clerk s).order c = s.order c :=
  Table.get_del_other h

@[simp] theorem touchOrder_order_same (clerk holder : Nat) (o : Order) (s : State) :
    (touchOrder clerk holder o s).order clerk = some { o with
      holder := holder, lastActivity := s.hpt.timeOfDay, expiryMark := false,
      timer := some (s.expiryDuration holder) } := putOrder_order_same ..

theorem touchOrder_order_other {clerk c : Nat} (h : c ≠ clerk) (holder : Nat) (o : Order) (s : State) :
    (touchOrder clerk holder o s).order c = s.order c := putOrder_order_other h _ s

/-- The orders by clerk are those of the clerk table. -/
theorem order_congr {s t : State} (h : t.clt = s.clt) : t.order = s.order := by
  funext c
  rw [State.order, h]
  rfl

/-- What a frame makes of an order depends on the clerk table, the time and the straps alone. -/
theorem touchOrder_congr {s t : State} (hclt : t.clt = s.clt) (htime : t.hpt.timeOfDay = s.hpt.timeOfDay)
    (hstraps : t.hpt.straps = s.hpt.straps) (clerk holder : Nat) (o : Order) :
    (touchOrder clerk holder o t).clt = (touchOrder clerk holder o s).clt := by
  rw [touchOrder, touchOrder, htime, expiryDuration_congr (by rw [hclt]) hstraps]
  simp only [putOrder, hclt]

/-! ### A ticket that joins the waiting list (R77, R83) -/

/-- The kind of mismatch that keeps a ticket off the waiting list. -/
def State.listMismatch (s : State) (ticket : Nat) (duplicate bound : MismatchKind) : Option MismatchKind :=
  if s.waits ticket then some duplicate
  else if s.bound ticket then some bound
  else if 48 ≤ s.tkt.waiting.length then some .listFull
  else none

theorem listTicket_raised {e : WaitEntry} {duplicate bound k : MismatchKind} {s : State}
    (h : s.listMismatch e.ticket duplicate bound = some k) :
    listTicket e duplicate bound s = raiseMismatch k none (some e.ticket) s := by
  unfold State.listMismatch at h
  unfold listTicket
  split at h
  · cases h
    simp [*]
  · split at h
    · cases h
      simp [*]
    · split at h
      · cases h
        simp [*]
      · exact nomatch h

theorem listTicket_listed {e : WaitEntry} {duplicate bound : MismatchKind} {s : State}
    (h : s.listMismatch e.ticket duplicate bound = none) :
    listTicket e duplicate bound s = { s with tkt.waiting := s.tkt.waiting ++ [e] } := by
  unfold State.listMismatch at h
  unfold listTicket
  split at h
  · exact nomatch h
  · split at h
    · exact nomatch h
    · split at h
      · exact nomatch h
      · simp [*]

theorem listMismatch_eq_none {s : State} {ticket : Nat} {duplicate bound : MismatchKind} :
    s.listMismatch ticket duplicate bound = none
      ↔ s.waits ticket = false ∧ s.bound ticket = false ∧ s.tkt.waiting.length < 48 := by
  unfold State.listMismatch
  cases s.waits ticket <;> cases s.bound ticket <;> simp

/-- The event of a mismatch about a ticket. -/
def ticketEvents (ticket : Nat) (k : Option MismatchKind) : List Event :=
  (k.map fun k => Event.viewMismatch k none (some ticket)).toList

theorem listTicket_reports {s t : State} {l : List Event} {n : Nat} (h : s.Reports t l n)
    (hroom : s.hpt.events.length + l.length + n < 31) (e : WaitEntry) (duplicate bound : MismatchKind) :
    s.Reports (listTicket e duplicate bound t) (l ++ ticketEvents e.ticket (t.listMismatch e.ticket duplicate bound))
      (n + (ticketEvents e.ticket (t.listMismatch e.ticket duplicate bound)).length) := by
  cases hk : t.listMismatch e.ticket duplicate bound with
  | none =>
    rw [listTicket_listed hk]
    simpa [ticketEvents] using! h.thenSame (u := { t with tkt.waiting := t.tkt.waiting ++ [e] }) rfl rfl
  | some k =>
    rw [listTicket_raised hk]
    exact h.thenMismatch hroom k none (some e.ticket)

theorem listTicket_waiting (e : WaitEntry) (duplicate bound : MismatchKind) (s : State) :
    (listTicket e duplicate bound s).tkt = { s.tkt with
      waiting := if (s.listMismatch e.ticket duplicate bound).isSome then s.tkt.waiting else s.tkt.waiting ++ [e] } := by
  cases hk : s.listMismatch e.ticket duplicate bound with
  | none => rw [listTicket_listed hk]; simp
  | some k => rw [listTicket_raised hk]; simp

/-! ### ISSUE (R77) -/

/-- The mismatch of an ISSUE; an untracked station keeps no list. -/
def State.issueMismatch (s : State) (ticket : Nat) : Option MismatchKind :=
  if s.ticketConfig.untracked then none else s.listMismatch ticket .issueDuplicate .issueBound

/-- The view with highest issued raised by an ISSUE (R77). -/
def issuedView (ticket : Nat) (s : State) : State :=
  { s with tkt.issued := newest s.ticketConfig.wrap ticket s.tkt.issued }

/-- The waiting list after an ISSUE (R77). -/
def listIssued (origin ticket : Nat) (s : State) : State :=
  if s.ticketConfig.untracked then issuedView ticket s
  else
    listTicket { ticket := ticket, time := some s.hpt.timeOfDay, station := some origin, passes := 0 } .issueDuplicate
      .issueBound (issuedView ticket s)

theorem applyIssue_eq (origin : Nat) (p : IssuePayload) (own : Option TxFrame) (s : State) :
    applyIssue origin p own s = completeOwn own .ok (some p.ticket.toNat)
      (queueEvent (.ticketIssued p.ticket.toNat origin) (listIssued origin p.ticket.toNat s)) := rfl

theorem ticketEvents_length (ticket : Nat) (k : Option MismatchKind) : (ticketEvents ticket k).length ≤ 1 := by
  cases k <;> simp [ticketEvents]

theorem listIssued_reports {s : State} (hroom : s.hpt.events.length < 31) (origin ticket : Nat) :
    s.Reports (listIssued origin ticket s) (ticketEvents ticket (s.issueMismatch ticket))
      (ticketEvents ticket (s.issueMismatch ticket)).length := by
  have hview : s.Reports (issuedView ticket s) [] 0 := .of_same rfl rfl
  unfold listIssued State.issueMismatch
  split
  · exact hview
  · simpa using! listTicket_reports hview (by simpa using hroom)
      { ticket := ticket, time := some s.hpt.timeOfDay, station := some origin, passes := 0 } .issueDuplicate .issueBound

theorem applyIssue_reports {s : State} (hroom : s.hpt.events.length < 29) (origin : Nat) (p : IssuePayload)
    (own : Option TxFrame) :
    s.Reports (applyIssue origin p own s)
      (ticketEvents p.ticket.toNat (s.issueMismatch p.ticket.toNat) ++ [.ticketIssued p.ticket.toNat origin]
        ++ completions own .ok (some p.ticket.toNat))
      (ticketEvents p.ticket.toNat (s.issueMismatch p.ticket.toNat)).length := by
  have hfirst := ticketEvents_length p.ticket.toNat (s.issueMismatch p.ticket.toNat)
  have hlisted := listIssued_reports (s := s) (by omega) origin p.ticket.toNat
  rw [applyIssue_eq]
  refine (hlisted.thenEvent (by omega) _).thenComplete ?_ own .ok _
  simp only [List.length_append, List.length_singleton]
  omega

theorem listIssued_tkt (origin ticket : Nat) (s : State) : (listIssued origin ticket s).tkt = { s.tkt with
    issued := newest s.ticketConfig.wrap ticket s.tkt.issued
    waiting := if s.ticketConfig.untracked || (s.issueMismatch ticket).isSome then s.tkt.waiting
      else s.tkt.waiting
        ++ [{ ticket := ticket, time := some s.hpt.timeOfDay, station := some origin, passes := 0 }] } := by
  unfold listIssued State.issueMismatch
  by_cases h : s.ticketConfig.untracked = true
  · simp [h, issuedView]
  · have hmismatch : (issuedView ticket s).listMismatch = s.listMismatch := rfl
    rw [if_neg h, if_neg h, listTicket_waiting, hmismatch]
    simp [h, issuedView]

theorem listIssued_keeps (origin ticket : Nat) (s : State) :
    (listIssued origin ticket s).lbl = s.lbl ∧ (listIssued origin ticket s).clt = s.clt := by
  unfold listIssued
  split
  · exact ⟨rfl, rfl⟩
  · simp [issuedView]

/-! ### CALL (R80, R94) -/

/-- The waiting list without the called ticket, or the mismatch of one that is not on it (R80). -/
def unlistCalled (ticket : Nat) (s : State) : State :=
  if s.waits ticket then unlist ticket s
  else if s.ticketConfig.untracked then s
  else raiseMismatch .callAbsent none (some ticket) s

/-- The view as a CALL leaves it, before its order (R80). -/
def calledView (origin ticket clerk : Nat) (s : State) : State :=
  let s1 := unlistCalled ticket s
  { s1 with
    tkt := { s1.tkt with
      called := newest s1.ticketConfig.wrap ticket s1.tkt.called
      passes := Table.put s1.tkt.passes clerk { ticket := ticket, passes := listedPasses ticket s.tkt.waiting }
      nowServing := some { ticket := ticket, clerk := clerk, station := origin } } }

theorem applyCall_eq (origin : Nat) (p : TicketPayload) (own : Option TxFrame) (s : State) :
    applyCall origin p own s = completeOwn own .ok (some p.ticket.toNat)
      (bindCall origin p.ticket.toNat p.clerk.toNat own.isSome
        (queueEvent (.nowServing p.ticket.toNat p.clerk.toNat origin)
          (calledView origin p.ticket.toNat p.clerk.toNat s))) := rfl

/-- A ticket that is not on the list is not taken off it. -/
theorem filter_waiting {s : State} {ticket : Nat} (h : s.waits ticket = false) :
    (s.tkt.waiting.filter fun e => decide (e.ticket ≠ ticket)) = s.tkt.waiting := by
  rw [List.filter_eq_self]
  simpa [State.waits] using h

theorem unlistCalled_tkt (ticket : Nat) (s : State) : (unlistCalled ticket s).tkt
    = { s.tkt with waiting := s.tkt.waiting.filter fun e => decide (e.ticket ≠ ticket) } := by
  unfold unlistCalled
  split
  · rfl
  · next h =>
    rw [filter_waiting (by simpa using h)]
    split <;> simp

theorem calledView_tkt (origin ticket clerk : Nat) (s : State) : (calledView origin ticket clerk s).tkt = { s.tkt with
    waiting := s.tkt.waiting.filter fun e => decide (e.ticket ≠ ticket)
    called := newest s.ticketConfig.wrap ticket s.tkt.called
    passes := Table.put s.tkt.passes clerk { ticket := ticket, passes := listedPasses ticket s.tkt.waiting }
    nowServing := some { ticket := ticket, clerk := clerk, station := origin } } := by
  simp [calledView, State.ticketConfig, unlistCalled_tkt]

@[simp] theorem calledView_keeps (origin ticket clerk : Nat) (s : State) :
    (calledView origin ticket clerk s).lbl = s.lbl ∧ (calledView origin ticket clerk s).clt = s.clt
      ∧ (calledView origin ticket clerk s).hpt.timeOfDay = s.hpt.timeOfDay
      ∧ (calledView origin ticket clerk s).hpt.straps = s.hpt.straps := by
  unfold calledView unlistCalled
  dsimp only
  split
  · simp [unlist]
  · split <;> simp

/-- The mismatch of a CALL of a ticket that is not on the list (R80). -/
def State.callAbsent (s : State) (ticket : Nat) : List Event :=
  if s.ticketConfig.untracked || s.waits ticket then [] else [.viewMismatch .callAbsent none (some ticket)]

/-- The mismatch of a CALL to a clerk whose order holds lines (R94). -/
def State.callBusy (s : State) (clerk : Nat) : List Event :=
  if holdsLines (s.order clerk) then [.viewMismatch .callBusy (some clerk) none] else []

theorem callAbsent_length (s : State) (ticket : Nat) : (s.callAbsent ticket).length ≤ 1 := by
  unfold State.callAbsent
  split <;> simp

theorem callBusy_length (s : State) (clerk : Nat) : (s.callBusy clerk).length ≤ 1 := by
  unfold State.callBusy
  split <;> simp

theorem calledView_reports {s : State} (hroom : s.hpt.events.length < 31) (origin ticket clerk : Nat) :
    s.Reports (calledView origin ticket clerk s) (s.callAbsent ticket) (s.callAbsent ticket).length := by
  have hunlisted : s.Reports (unlistCalled ticket s) (s.callAbsent ticket) (s.callAbsent ticket).length := by
    unfold unlistCalled State.callAbsent
    cases hwaits : s.waits ticket with
    | true => simpa using! State.Reports.of_same (s := s) (t := unlist ticket s) rfl rfl
    | false =>
      cases huntracked : s.ticketConfig.untracked with
      | true => simpa using! State.Reports.of_same (s := s) rfl rfl
      | false =>
        simpa using! (State.Reports.of_same (s := s) rfl rfl).thenMismatch (by simpa using hroom) .callAbsent none
          (some ticket)
  exact hunlisted.thenSame rfl rfl

/-- The order to which a CALL binds its ticket (R94). -/
def State.calledOrder (s : State) (ticket clerk : Nat) : Order :=
  match s.order clerk with
  | none => Order.opening (some ticket) (some s.hpt.timeOfDay)
  | some o => { o with ticket := some ticket }

/-- The clerk's order held another ticket (R94). -/
def State.losesTicket (s : State) (ticket clerk : Nat) : Bool :=
  (s.order clerk).any fun o => o.ticket.isSome && decide (o.ticket ≠ some ticket)

/-- The order is bound first; then an order with lines is a mismatch, and a ticket lost by one without lines a no-sale of the
sender (R94). -/
theorem bindCall_eq (origin ticket clerk : Nat) (atSender : Bool) (s : State) :
    bindCall origin ticket clerk atSender s =
      if holdsLines (s.order clerk) then
        raiseMismatch .callBusy (some clerk) none (touchOrder clerk origin (s.calledOrder ticket clerk) s)
      else if atSender && s.losesTicket ticket clerk then
        postNoSale (touchOrder clerk origin (s.calledOrder ticket clerk) s)
      else touchOrder clerk origin (s.calledOrder ticket clerk) s := by
  unfold bindCall State.calledOrder State.losesTicket
  cases s.order clerk with
  | none => simp [holdsLines]
  | some o => simp [holdsLines, and_assoc]

theorem bindCall_clt (origin ticket clerk : Nat) (atSender : Bool) (s : State) :
    (bindCall origin ticket clerk atSender s).clt
      = (touchOrder clerk origin (s.calledOrder ticket clerk) s).clt := by
  rw [bindCall_eq]
  split
  · simp
  · split <;> simp

theorem bindCall_reports {s t : State} {l : List Event} {n : Nat} (h : s.Reports t l n)
    (hroom : s.hpt.events.length + l.length + n < 31) (origin ticket clerk : Nat) (atSender : Bool) :
    s.Reports (bindCall origin ticket clerk atSender t) (l ++ t.callBusy clerk) (n + (t.callBusy clerk).length) := by
  have htouched := h.thenSame (u := touchOrder clerk origin (t.calledOrder ticket clerk) t) rfl rfl
  rw [bindCall_eq]
  unfold State.callBusy
  split
  · exact htouched.thenMismatch hroom .callBusy (some clerk) none
  · rw [List.append_nil]
    split
    · exact htouched.thenSame rfl rfl
    · exact htouched

theorem applyCall_reports {s : State} (hroom : s.hpt.events.length < 26) (origin : Nat) (p : TicketPayload)
    (own : Option TxFrame) :
    s.Reports (applyCall origin p own s)
      (s.callAbsent p.ticket.toNat ++ [.nowServing p.ticket.toNat p.clerk.toNat origin] ++ s.callBusy p.clerk.toNat
        ++ completions own .ok (some p.ticket.toNat))
      ((s.callAbsent p.ticket.toNat).length + (s.callBusy p.clerk.toNat).length) := by
  have habsent := callAbsent_length s p.ticket.toNat
  have hbusy := callBusy_length s p.clerk.toNat
  have hserving := (calledView_reports (s := s) (by omega) origin p.ticket.toNat p.clerk.toNat).thenEvent (by omega)
    (.nowServing p.ticket.toNat p.clerk.toNat origin)
  have hbound := bindCall_reports hserving
    (by simp only [List.length_append, List.length_singleton]; omega) origin p.ticket.toNat p.clerk.toNat own.isSome
  have hsame : (queueEvent (.nowServing p.ticket.toNat p.clerk.toNat origin)
      (calledView origin p.ticket.toNat p.clerk.toNat s)).callBusy = s.callBusy := by
    funext c
    rw [State.callBusy, State.callBusy, order_congr (by simp : _ = s.clt)]
  rw [hsame] at hbound
  rw [applyCall_eq]
  refine hbound.thenComplete ?_ own .ok _
  simp only [List.length_append, List.length_singleton]
  omega

/-! ### PASS (R83, R95) -/

/-- A mismatch about a clerk, if there is one. -/
def raiseAt (clerk : Nat) (k : Option MismatchKind) (s : State) : State :=
  match k with
  | none => s
  | some k => raiseMismatch k (some clerk) none s

/-- The event of a mismatch about a clerk. -/
def clerkEvents (clerk : Nat) (k : Option MismatchKind) : List Event :=
  (k.map fun k => Event.viewMismatch k (some clerk) none).toList

theorem clerkEvents_length (clerk : Nat) (k : Option MismatchKind) : (clerkEvents clerk k).length ≤ 1 := by
  cases k <;> simp [clerkEvents]

theorem raiseAt_reports {s t : State} {l : List Event} {n : Nat} (h : s.Reports t l n)
    (hroom : s.hpt.events.length + l.length + n < 31) (clerk : Nat) (k : Option MismatchKind) :
    s.Reports (raiseAt clerk k t) (l ++ clerkEvents clerk k) (n + (clerkEvents clerk k).length) := by
  cases k with
  | none => simpa [raiseAt, clerkEvents] using h
  | some k => exact h.thenMismatch hroom k (some clerk) none

theorem raiseAt_writesRecords (clerk : Nat) (k : Option MismatchKind) (s : State) :
    s.WritesRecords (raiseAt clerk k s) := by
  cases k with
  | none => exact .of_same rfl
  | some k => exact raiseMismatch_writesRecords k (some clerk) none s

@[simp] theorem raiseAt_keeps (clerk : Nat) (k : Option MismatchKind) (s : State) :
    (raiseAt clerk k s).lbl = s.lbl ∧ (raiseAt clerk k s).tkt = s.tkt ∧ (raiseAt clerk k s).clt = s.clt
      ∧ (raiseAt clerk k s).day = s.day ∧ (raiseAt clerk k s).hpt.timeOfDay = s.hpt.timeOfDay
      ∧ (raiseAt clerk k s).hpt.straps = s.hpt.straps := by
  cases k <;> simp [raiseAt]

/-- The mismatch of a PASS at its order (R95). -/
def State.passMismatch (s : State) (ticket clerk : Nat) : Option MismatchKind :=
  match s.order clerk with
  | none => some .orderUnknown
  | some o => if 0 < o.itemCount then some .passBusy else if o.ticket = some ticket then none else some .ticketDiffers

/-- The order after a PASS (R95). -/
def passedOrder (origin clerk : Nat) (s : State) : State :=
  match s.order clerk with
  | none => s
  | some o =>
    if 0 < o.itemCount then
      putOrder clerk
        { o with
          ticket := none
          holder := origin
          lastActivity := s.hpt.timeOfDay
          timer := some (s.expiryDuration origin) } s
    else freeOrder clerk s

theorem passOrder_eq (origin ticket clerk : Nat) (s : State) :
    passOrder origin ticket clerk s = raiseAt clerk (s.passMismatch ticket clerk) (passedOrder origin clerk s) := by
  unfold passOrder passedOrder State.passMismatch
  cases s.order clerk with
  | none => rfl
  | some o =>
    dsimp only
    by_cases hlines : 0 < o.itemCount
    · simp [hlines, raiseAt]
    · by_cases hticket : o.ticket = some ticket <;> simp [hlines, hticket, raiseAt]

@[simp] theorem passedOrder_keeps (origin clerk : Nat) (s : State) :
    (passedOrder origin clerk s).hpt = s.hpt ∧ (passedOrder origin clerk s).hlm = s.hlm
      ∧ (passedOrder origin clerk s).tst = s.tst ∧ (passedOrder origin clerk s).lbl = s.lbl
      ∧ (passedOrder origin clerk s).tkt = s.tkt := by
  unfold passedOrder
  split
  · simp
  · split <;> simp

theorem passedOrder_order_other {clerk c : Nat} (h : c ≠ clerk) (origin : Nat) (s : State) :
    (passedOrder origin clerk s).order c = s.order c := by
  unfold passedOrder
  split
  · rfl
  · split
    · exact putOrder_order_other h _ s
    · exact freeOrder_order_other h s

/-- The order and the pass record after a PASS (R74, R95). -/
def passedView (origin ticket clerk : Nat) (s : State) : State :=
  let s1 := passOrder origin ticket clerk s
  { s1 with tkt.passes := Table.del s1.tkt.passes clerk }

/-- The mismatch of a PASS at the waiting list (R83). -/
def State.requeueMismatch (s : State) (ticket passes : Nat) : Option MismatchKind :=
  if s.ticketConfig.untracked = true ∨ 2 < passes then none else s.listMismatch ticket .passDuplicate .passBound

/-- The ticket of a PASS ends, by the pass limit or a full list (R83). -/
def State.endsTicket (s : State) (ticket passes : Nat) : Prop :=
  (s.ticketConfig.untracked = false ∧ 2 < passes) ∨ s.requeueMismatch ticket passes = some .listFull

/-- The passed ticket back at the waiting list, at a station that keeps one (R83). -/
def requeuePassed (ticket passes : Nat) (own : Option TxFrame) (s : State) : State :=
  if s.ticketConfig.untracked then s else requeue ticket passes own s

theorem endTicket_same (own : Option TxFrame) (s : State) :
    (endTicket own s).hpt = s.hpt ∧ (endTicket own s).hlm = s.hlm ∧ (endTicket own s).tkt = s.tkt
      ∧ (endTicket own s).clt = s.clt ∧ (endTicket own s).lbl = s.lbl := by
  unfold endTicket
  split <;> simp

/-- A station that keeps no list leaves the ticket; the third pass ends it; otherwise it is listed, and ends where the list is
full (R83). -/
theorem requeuePassed_cases (ticket passes : Nat) (own : Option TxFrame) (s : State) :
    (s.ticketConfig.untracked = true ∧ requeuePassed ticket passes own s = s)
      ∨ (s.ticketConfig.untracked = false ∧ 2 < passes ∧ requeuePassed ticket passes own s = endTicket own s)
      ∨ (s.ticketConfig.untracked = false ∧ ¬2 < passes
          ∧ requeuePassed ticket passes own s =
            let listed := listTicket { ticket := ticket, time := none, station := none, passes := passes } .passDuplicate
              .passBound s
            if s.listMismatch ticket .passDuplicate .passBound = some .listFull then endTicket own listed
            else listed) := by
  unfold requeuePassed requeue
  cases s.ticketConfig.untracked with
  | true => simp
  | false =>
    by_cases hlimit : 2 < passes
    · simp [hlimit]
    · refine .inr (.inr ⟨rfl, hlimit, ?_⟩)
      simp only [hlimit, if_false, Bool.false_eq_true]
      unfold State.listMismatch
      cases s.waits ticket with
      | true => simp
      | false => cases s.bound ticket <;> simp

theorem requeuePassed_reports {s t : State} {l : List Event} {n : Nat} (h : s.Reports t l n)
    (hroom : s.hpt.events.length + l.length + n < 31) (ticket passes : Nat) (own : Option TxFrame) :
    s.Reports (requeuePassed ticket passes own t) (l ++ ticketEvents ticket (t.requeueMismatch ticket passes))
      (n + (ticketEvents ticket (t.requeueMismatch ticket passes)).length) := by
  obtain ⟨huntracked, heq⟩ | ⟨huntracked, hlimit, heq⟩ | ⟨huntracked, hlimit, heq⟩ :=
    requeuePassed_cases ticket passes own t
  · simpa [heq, State.requeueMismatch, huntracked, ticketEvents] using h
  · obtain ⟨hhpt, hhlm, -⟩ := endTicket_same own t
    simpa [heq, State.requeueMismatch, huntracked, hlimit, ticketEvents] using h.thenSame hhpt hhlm
  · have hlisted := listTicket_reports h hroom { ticket := ticket, time := none, station := none, passes := passes }
      .passDuplicate .passBound
    have hmismatch : t.requeueMismatch ticket passes = t.listMismatch ticket .passDuplicate .passBound := by
      simp [State.requeueMismatch, huntracked, hlimit]
    rw [heq, hmismatch]
    dsimp only
    split
    · obtain ⟨hhpt, hhlm, -⟩ := endTicket_same own
        (listTicket { ticket := ticket, time := none, station := none, passes := passes } .passDuplicate .passBound t)
      exact hlisted.thenSame hhpt hhlm
    · exact hlisted

theorem requeuePassed_tkt (ticket passes : Nat) (own : Option TxFrame) (s : State) :
    (requeuePassed ticket passes own s).tkt = { s.tkt with
      waiting := if s.ticketConfig.untracked = true ∨ 2 < passes ∨ (s.requeueMismatch ticket passes).isSome = true then
          s.tkt.waiting
        else s.tkt.waiting ++ [{ ticket := ticket, time := none, station := none, passes := passes }] } := by
  obtain ⟨huntracked, heq⟩ | ⟨huntracked, hlimit, heq⟩ | ⟨huntracked, hlimit, heq⟩ :=
    requeuePassed_cases ticket passes own s
  · simp [heq, huntracked]
  · obtain ⟨-, -, htkt, -⟩ := endTicket_same own s
    simp [heq, hlimit, htkt]
  · have hlisted := listTicket_waiting { ticket := ticket, time := none, station := none, passes := passes }
      .passDuplicate .passBound s
    have hmismatch : s.requeueMismatch ticket passes = s.listMismatch ticket .passDuplicate .passBound := by
      simp [State.requeueMismatch, huntracked, hlimit]
    rw [heq, hmismatch]
    simp only [huntracked, hlimit, Bool.false_eq_true, false_or]
    split
    · obtain ⟨-, -, htkt, -⟩ := endTicket_same own
        (listTicket { ticket := ticket, time := none, station := none, passes := passes } .passDuplicate .passBound s)
      rw [htkt, hlisted]
    · exact hlisted

theorem requeuePassed_keeps (ticket passes : Nat) (own : Option TxFrame) (s : State) :
    (requeuePassed ticket passes own s).lbl = s.lbl ∧ (requeuePassed ticket passes own s).clt = s.clt := by
  obtain ⟨-, heq⟩ | ⟨-, -, heq⟩ | ⟨-, -, heq⟩ := requeuePassed_cases ticket passes own s
  · rw [heq]
    exact ⟨rfl, rfl⟩
  · obtain ⟨-, -, -, hclt, hlbl⟩ := endTicket_same own s
    rw [heq]
    exact ⟨hlbl, hclt⟩
  · rw [heq]
    dsimp only
    split
    · simp [endTicket_same]
    · simp

/-- The ticket that ends at its sender is one no-sale (R83). -/
theorem requeuePassed_noSale {ticket passes : Nat} {own : Option TxFrame} {s : State} (h : s.endsTicket ticket passes)
    (hown : own.isSome = true) :
    .update [(addrRunning offNoSale, 1)] ∈ (requeuePassed ticket passes own s).tst.ops := by
  have hended (t : State) : .update [(addrRunning offNoSale, 1)] ∈ (endTicket own t).tst.ops := by
    rw [endTicket, if_pos hown]
    exact List.mem_append_right _ (List.mem_singleton_self _)
  obtain ⟨huntracked, -⟩ | ⟨-, -, heq⟩ | ⟨huntracked, hlimit, heq⟩ := requeuePassed_cases ticket passes own s
  · simp [State.endsTicket, State.requeueMismatch, huntracked] at h
  · rw [heq]
    exact hended s
  · simp only [State.endsTicket, State.requeueMismatch, huntracked, hlimit] at h
    rw [heq]
    dsimp only
    rw [if_pos (by simpa using h)]
    exact hended _

/-- At a receiver a PASS hands writes of records alone (R83). -/
theorem requeuePassed_writesRecords (ticket passes : Nat) (s : State) :
    s.WritesRecords (requeuePassed ticket passes none s) := by
  have hlisted : s.WritesRecords (listTicket { ticket := ticket, time := none, station := none, passes := passes }
      .passDuplicate .passBound s) := by
    cases hk : s.listMismatch ticket .passDuplicate .passBound with
    | none => rw [listTicket_listed hk]; exact .of_same rfl
    | some k => rw [listTicket_raised hk]; exact raiseMismatch_writesRecords _ _ _ s
  obtain ⟨-, heq⟩ | ⟨-, -, heq⟩ | ⟨-, -, heq⟩ := requeuePassed_cases ticket passes none s
  · rw [heq]; exact .of_same rfl
  · rw [heq]; exact .of_same rfl
  · rw [heq]
    dsimp only
    split
    · exact hlisted
    · exact hlisted

theorem applyPass_eq (origin : Nat) (p : TicketPayload) (own : Option TxFrame) (s : State) :
    applyPass origin p own s = completeOwn own .ok none
      (requeuePassed p.ticket.toNat (readPasses p.ticket.toNat (Table.get s.tkt.passes p.clerk.toNat) + 1) own
        (passedView origin p.ticket.toNat p.clerk.toNat s)) := by
  have hpasses : (passOrder origin p.ticket.toNat p.clerk.toNat s).tkt = s.tkt := by simp [passOrder_eq]
  unfold applyPass
  rw [← hpasses]
  rfl

@[simp] theorem passedView_keeps (origin ticket clerk : Nat) (s : State) :
    (passedView origin ticket clerk s).lbl = s.lbl
      ∧ (passedView origin ticket clerk s).tkt = { s.tkt with passes := Table.del s.tkt.passes clerk }
      ∧ (passedView origin ticket clerk s).clt = (passedOrder origin clerk s).clt := by
  simp [passedView, passOrder_eq]

theorem passedView_reports {s : State} (hroom : s.hpt.events.length < 31) (origin ticket clerk : Nat) :
    s.Reports (passedView origin ticket clerk s) (clerkEvents clerk (s.passMismatch ticket clerk))
      (clerkEvents clerk (s.passMismatch ticket clerk)).length := by
  have hpassed : s.Reports (passedOrder origin clerk s) [] 0 := .of_same (by simp) (by simp)
  have hraised := raiseAt_reports hpassed (by simpa using hroom) clerk (s.passMismatch ticket clerk)
  rw [← passOrder_eq] at hraised
  simpa using! hraised.thenSame (u := passedView origin ticket clerk s) rfl rfl

/-! ### The ticket view after the three frames -/

theorem exec_issueAccepted {origin : BitVec 4} {p : IssuePayload} {s : State} (h : s.hearsToday (.issue p)) :
    exec (.issueAccepted origin p) s
      = .next (applyIssue origin.toNat p (s.ownFrame ⟨origin, .issue p⟩) (s.heard ⟨origin, .issue p⟩)) :=
  congrArg _ (acceptDayFrame_today (f := ⟨origin, .issue p⟩) h)

theorem exec_callAccepted {origin : BitVec 4} {p : TicketPayload} {s : State} (h : s.hearsToday (.call p)) :
    exec (.callAccepted origin p) s
      = .next (applyCall origin.toNat p (s.ownFrame ⟨origin, .call p⟩) (s.heard ⟨origin, .call p⟩)) :=
  congrArg _ (acceptDayFrame_today (f := ⟨origin, .call p⟩) h)

theorem exec_passAccepted {origin : BitVec 4} {p : TicketPayload} {s : State} (h : s.hearsToday (.pass p)) :
    exec (.passAccepted origin p) s
      = .next (applyPass origin.toNat p (s.ownFrame ⟨origin, .pass p⟩) (s.heard ⟨origin, .pass p⟩)) :=
  congrArg _ (acceptDayFrame_today (f := ⟨origin, .pass p⟩) h)

theorem heard_issueMismatch (f : Frame) (s : State) : (s.heard f).issueMismatch = s.issueMismatch := by
  funext ticket
  simp [State.issueMismatch, State.listMismatch]

/-- The mismatches of an ISSUE by their grounds (R77). -/
theorem issue_mismatches {s t : State} {ticket : Nat} {l : List Event}
    (h : s.Reports t l (ticketEvents ticket (s.issueMismatch ticket)).length)
    (hl : ∀ e ∈ ticketEvents ticket (s.issueMismatch ticket), e ∈ l) :
    (s.ticketConfig.untracked = true → t.hlm = s.hlm)
      ∧ (s.ticketConfig.untracked = false →
          (s.waits ticket = true → s.Mismatches t .issueDuplicate none (some ticket))
          ∧ (s.waits ticket = false → s.bound ticket = true → s.Mismatches t .issueBound none (some ticket))
          ∧ (s.waits ticket = false → s.bound ticket = false →
              (48 ≤ s.tkt.waiting.length → s.Mismatches t .listFull none (some ticket))
              ∧ (s.tkt.waiting.length < 48 → t.hlm = s.hlm))) := by
  have hnone (hk : s.issueMismatch ticket = none) : t.hlm = s.hlm := by
    obtain ⟨hhlm, -⟩ := h.quiet (by simp [hk, ticketEvents])
    exact hhlm
  have hsome {k : MismatchKind} (hk : s.issueMismatch ticket = some k) : s.Mismatches t k none (some ticket) := by
    rw [hk] at h hl
    exact h.mismatches (hl _ (by simp [ticketEvents]))
  refine ⟨fun hu => hnone (by simp [State.issueMismatch, hu]), fun hu => ⟨fun hw => hsome ?_, fun hw hb => hsome ?_,
    fun hw hb => ⟨fun hfull => hsome ?_, fun hfree => hnone ?_⟩⟩⟩
  · simp [State.issueMismatch, State.listMismatch, hu, hw]
  · simp [State.issueMismatch, State.listMismatch, hu, hw, hb]
  · simp [State.issueMismatch, State.listMismatch, hu, hw, hb, hfull]
  · simp [State.issueMismatch, State.listMismatch, hu, hw, hb, hfree]

theorem issue_listed_iff (s : State) (ticket : Nat) :
    (s.ticketConfig.untracked || (s.issueMismatch ticket).isSome)
      = (s.ticketConfig.untracked || s.waits ticket || s.bound ticket || decide (48 ≤ s.tkt.waiting.length)) := by
  unfold State.issueMismatch State.listMismatch
  cases s.ticketConfig.untracked <;> cases s.waits ticket <;> cases s.bound ticket <;> simp
  by_cases h : 48 ≤ s.tkt.waiting.length <;> simp [h]

theorem heard_callAbsent (f : Frame) (s : State) : (s.heard f).callAbsent = s.callAbsent := by
  funext ticket
  simp [State.callAbsent]

theorem heard_callBusy (f : Frame) (s : State) : (s.heard f).callBusy = s.callBusy := by
  funext clerk
  simp [State.callBusy]

/-- The mismatches of a CALL by their grounds (R80, R94). -/
theorem call_mismatches {s t : State} {ticket clerk : Nat} {l : List Event}
    (h : s.Reports t l ((s.callAbsent ticket).length + (s.callBusy clerk).length))
    (habsent : ∀ e ∈ s.callAbsent ticket, e ∈ l) (hbusy : ∀ e ∈ s.callBusy clerk, e ∈ l) :
    (s.ticketConfig.untracked = true ∨ s.waits ticket = true →
        (¬s.ServesLines clerk → t.hlm = s.hlm)
          ∧ (s.ServesLines clerk → s.Mismatches t .callBusy (some clerk) none))
      ∧ (s.ticketConfig.untracked = false → s.waits ticket = false →
        (¬s.ServesLines clerk → s.Mismatches t .callAbsent none (some ticket))
          ∧ (s.ServesLines clerk →
            s.record (.viewMismatch .callAbsent none (some ticket)) ∈ t.hpt.events
              ∧ s.record (.viewMismatch .callBusy (some clerk) none) ∈ t.hpt.events
              ∧ t.hlm.attributes.viewMismatch.raw = min (s.hlm.attributes.viewMismatch.raw + 2) 65535)) := by
  refine ⟨fun hlisted => ?_, fun huntracked hwaits => ?_⟩
  · have hnone : s.callAbsent ticket = [] := by
      unfold State.callAbsent
      rcases hlisted with hu | hw <;> simp [*]
    rw [hnone, State.callBusy] at h
    refine ⟨fun hlines => ?_, fun hlines => ?_⟩ <;> rw [← holdsLines_iff] at hlines
    · exact (h.quiet (by simp [hlines])).1
    · rw [if_pos hlines] at h
      exact h.mismatches (hbusy _ (by simp [State.callBusy, hlines]))
  · have hone : s.callAbsent ticket = [.viewMismatch .callAbsent none (some ticket)] := by
      simp [State.callAbsent, huntracked, hwaits]
    have hqueued : .viewMismatch .callAbsent none (some ticket) ∈ l := habsent _ (by simp [hone])
    rw [hone, State.callBusy] at h
    refine ⟨fun hlines => ?_, fun hlines => ?_⟩ <;> rw [← holdsLines_iff] at hlines
    · rw [if_neg hlines] at h
      exact h.mismatches hqueued
    · rw [if_pos hlines] at h
      exact ⟨h.queued _ hqueued, h.queued _ (hbusy _ (by simp [State.callBusy, hlines])), h.raw (by simp)⟩

/-- The order that a CALL leaves (R94). -/
theorem applyCall_clt (origin : Nat) (p : TicketPayload) (own : Option TxFrame) (s : State) :
    (applyCall origin p own s).clt
      = (touchOrder p.clerk.toNat origin (s.calledOrder p.ticket.toNat p.clerk.toNat) s).clt := by
  have hcalled (t : State) (hclt : t.clt = s.clt) (htime : t.hpt.timeOfDay = s.hpt.timeOfDay) :
      t.calledOrder = s.calledOrder := by
    funext ticket clerk
    simp [State.calledOrder, order_congr hclt, htime]
  rw [applyCall_eq]
  simp only [completeOwn_keeps, bindCall_clt]
  rw [hcalled _ (by simp) (by simp)]
  exact touchOrder_congr (by simp) (by simp) (by simp) ..

theorem applyCall_tkt (origin : Nat) (p : TicketPayload) (own : Option TxFrame) (s : State) :
    (applyCall origin p own s).tkt = (calledView origin p.ticket.toNat p.clerk.toNat s).tkt := by
  rw [applyCall_eq, bindCall_eq]
  simp only [completeOwn_keeps]
  split
  · simp
  · split <;> simp

theorem applyCall_lbl (origin : Nat) (p : TicketPayload) (own : Option TxFrame) (s : State) :
    (applyCall origin p own s).lbl = s.lbl := by
  rw [applyCall_eq, bindCall_eq]
  simp only [completeOwn_keeps]
  split
  · simp
  · split <;> simp

/-- NOW_SERVING is queued with room for it (R80). -/
theorem applyCall_nowServing {s : State} (hroom : s.hpt.events.length < 29) (origin : Nat) (p : TicketPayload)
    (own : Option TxFrame) : s.record (.nowServing p.ticket.toNat p.clerk.toNat origin)
      ∈ (applyCall origin p own s).hpt.events := by
  have habsent := callAbsent_length s p.ticket.toNat
  have hserving := (calledView_reports (s := s) (by omega) origin p.ticket.toNat p.clerk.toNat).thenEvent (by omega)
    (.nowServing p.ticket.toNat p.clerk.toNat origin)
  obtain ⟨-, -, -, -, hkept, -⟩ := bindCall_addsTo origin p.ticket.toNat p.clerk.toNat own.isSome
    (queueEvent (.nowServing p.ticket.toNat p.clerk.toNat origin) (calledView origin p.ticket.toNat p.clerk.toNat s))
  rw [applyCall_eq]
  exact mem_completeOwn (hkept.subset (hserving.queued _ (by simp))) ..

/-- At the sender an order without lines that loses another ticket is one no-sale (R94). -/
theorem applyCall_noSale {s : State} {p : TicketPayload} {own : Option TxFrame} {o : Order} {m : Nat}
    (hown : own.isSome = true) (ho : s.order p.clerk.toNat = some o) (hlines : o.itemCount = 0)
    (hticket : o.ticket = some m) (hm : m ≠ p.ticket.toNat) (origin : Nat) :
    .update [(addrRunning offNoSale, 1)] ∈ (applyCall origin p own s).tst.ops := by
  have horder : (queueEvent (.nowServing p.ticket.toNat p.clerk.toNat origin)
      (calledView origin p.ticket.toNat p.clerk.toNat s)).order = s.order := order_congr (by simp)
  have hloses : s.losesTicket p.ticket.toNat p.clerk.toNat = true := by simp [State.losesTicket, ho, hticket, hm]
  have hnone : holdsLines (s.order p.clerk.toNat) = false := by simp [holdsLines, ho, hlines]
  rw [applyCall_eq, bindCall_eq, horder, if_neg (by simp [hnone]), State.losesTicket, horder, ← State.losesTicket,
    if_pos (by simp [hown, hloses])]
  exact (isPrefix_completeOwn (List.prefix_refl _) ..).subset (List.mem_append_right _ (List.mem_singleton_self _))

/-- The clerk's order after a CALL (R94). -/
theorem applyCall_order (origin : Nat) (p : TicketPayload) (own : Option TxFrame) (s : State) :
    (applyCall origin p own s).order p.clerk.toNat = some { s.calledOrder p.ticket.toNat p.clerk.toNat with
      holder := origin, lastActivity := s.hpt.timeOfDay, expiryMark := false,
      timer := some (s.expiryDuration origin) } := by
  rw [order_congr (applyCall_clt ..)]
  exact touchOrder_order_same ..

theorem heard_calledOrder (f : Frame) (s : State) : (s.heard f).calledOrder = s.calledOrder := by
  funext ticket clerk
  simp [State.calledOrder]

theorem calledOrder_ticket (s : State) (ticket clerk : Nat) : (s.calledOrder ticket clerk).ticket = some ticket := by
  unfold State.calledOrder
  split <;> rfl

theorem calledOrder_free {s : State} {clerk : Nat} (h : s.order clerk = none) (ticket : Nat) :
    s.calledOrder ticket clerk = Order.opening (some ticket) (some s.hpt.timeOfDay) := by
  simp [State.calledOrder, h]

theorem calledOrder_open {s : State} {clerk : Nat} {o : Order} (h : s.order clerk = some o) (ticket : Nat) :
    s.calledOrder ticket clerk = { o with ticket := some ticket } := by
  simp [State.calledOrder, h]

/-! ### The order and the waiting list after a PASS -/

theorem bound_congr {s t : State} (h : t.clt = s.clt) : t.bound = s.bound := by
  funext ticket
  rw [State.bound, h]
  rfl

theorem heard_passMismatch (f : Frame) (s : State) : (s.heard f).passMismatch = s.passMismatch := by
  funext ticket clerk
  simp [State.passMismatch]

theorem passedOrder_free {s : State} {clerk : Nat} (h : s.order clerk = none) (origin : Nat) :
    passedOrder origin clerk s = s := by
  simp [passedOrder, h]

theorem passedOrder_empty {s : State} {clerk : Nat} {o : Order} (h : s.order clerk = some o) (hlines : o.itemCount = 0)
    (origin : Nat) : passedOrder origin clerk s = freeOrder clerk s := by
  simp [passedOrder, h, hlines]

theorem passedOrder_busy {s : State} {clerk : Nat} {o : Order} (h : s.order clerk = some o) (hlines : 0 < o.itemCount)
    (origin : Nat) : (passedOrder origin clerk s).order clerk = some { o with
      ticket := none, holder := origin, lastActivity := s.hpt.timeOfDay,
      timer := some (s.expiryDuration origin) } := by
  simp [passedOrder, h, hlines]

theorem applyPass_clt (origin : Nat) (p : TicketPayload) (own : Option TxFrame) (s : State) :
    (applyPass origin p own s).clt = (passedOrder origin p.clerk.toNat s).clt := by
  simp [applyPass_eq, requeuePassed_keeps]

theorem applyPass_lbl (origin : Nat) (p : TicketPayload) (own : Option TxFrame) (s : State) :
    (applyPass origin p own s).lbl = s.lbl := by
  simp [applyPass_eq, requeuePassed_keeps]

/-- The mismatch of a PASS at the waiting list, its order settled first (R83, R95). -/
def State.passListMismatch (s : State) (origin ticket clerk passes : Nat) : Option MismatchKind :=
  (passedView origin ticket clerk s).requeueMismatch ticket passes

theorem passListMismatch_eq (s : State) (origin ticket clerk passes : Nat) :
    s.passListMismatch origin ticket clerk passes =
      if s.ticketConfig.untracked = true ∨ 2 < passes then none
      else if s.waits ticket then some .passDuplicate
      else if (passedOrder origin clerk s).bound ticket then some .passBound
      else if 48 ≤ s.tkt.waiting.length then some .listFull
      else none := by
  have hbound : (passedView origin ticket clerk s).bound = (passedOrder origin clerk s).bound := bound_congr (by simp)
  simp [State.passListMismatch, State.requeueMismatch, State.listMismatch, State.ticketConfig, State.waits, hbound]

theorem applyPass_tkt (origin : Nat) (p : TicketPayload) (own : Option TxFrame) (s : State) {passes : Nat}
    (hpasses : passes = readPasses p.ticket.toNat (Table.get s.tkt.passes p.clerk.toNat) + 1) :
    (applyPass origin p own s).tkt = { s.tkt with
      passes := Table.del s.tkt.passes p.clerk.toNat
      waiting := if s.ticketConfig.untracked = true ∨ 2 < passes
            ∨ (s.passListMismatch origin p.ticket.toNat p.clerk.toNat passes).isSome = true then
          s.tkt.waiting
        else s.tkt.waiting ++ [{ ticket := p.ticket.toNat, time := none, station := none, passes := passes }] } := by
  rw [applyPass_eq, hpasses]
  simp [requeuePassed_tkt, State.ticketConfig, State.passListMismatch]

theorem applyPass_reports {s : State} (hroom : s.hpt.events.length < 26) (origin : Nat) (p : TicketPayload)
    (own : Option TxFrame) {passes : Nat}
    (hpasses : passes = readPasses p.ticket.toNat (Table.get s.tkt.passes p.clerk.toNat) + 1) :
    s.Reports (applyPass origin p own s)
      (clerkEvents p.clerk.toNat (s.passMismatch p.ticket.toNat p.clerk.toNat)
        ++ ticketEvents p.ticket.toNat (s.passListMismatch origin p.ticket.toNat p.clerk.toNat passes)
        ++ completions own .ok none)
      ((clerkEvents p.clerk.toNat (s.passMismatch p.ticket.toNat p.clerk.toNat)).length
        + (ticketEvents p.ticket.toNat (s.passListMismatch origin p.ticket.toNat p.clerk.toNat passes)).length) := by
  have hfirst := clerkEvents_length p.clerk.toNat (s.passMismatch p.ticket.toNat p.clerk.toNat)
  have hsecond := ticketEvents_length p.ticket.toNat (s.passListMismatch origin p.ticket.toNat p.clerk.toNat passes)
  have hview := passedView_reports (s := s) (by omega) origin p.ticket.toNat p.clerk.toNat
  have hlisted := requeuePassed_reports hview (by omega) p.ticket.toNat passes own
  rw [applyPass_eq, ← hpasses]
  refine hlisted.thenComplete ?_ own .ok none
  simp only [List.length_append]
  unfold State.passListMismatch at hsecond
  omega

/-- At a receiver a PASS hands writes of records alone (R83). -/
theorem applyPass_writesRecords (origin : Nat) (p : TicketPayload) (s : State) :
    s.WritesRecords (applyPass origin p none s) := by
  have hview : s.WritesRecords (passedView origin p.ticket.toNat p.clerk.toNat s) := by
    have horder : s.WritesRecords (passedOrder origin p.clerk.toNat s) := .of_same (by simp)
    have hraised := horder.trans (raiseAt_writesRecords p.clerk.toNat (s.passMismatch p.ticket.toNat p.clerk.toNat) _)
    rw [← passOrder_eq] at hraised
    exact hraised.trans (.of_same rfl)
  rw [applyPass_eq]
  exact hview.trans (requeuePassed_writesRecords _ _ _)

/-- The ticket that ends at its sender is one no-sale (R83). -/
theorem applyPass_noSale {s : State} {p : TicketPayload} {own : Option TxFrame} {origin passes : Nat}
    (hpasses : passes = readPasses p.ticket.toNat (Table.get s.tkt.passes p.clerk.toNat) + 1)
    (hown : own.isSome = true)
    (h : (s.ticketConfig.untracked = false ∧ 2 < passes)
      ∨ s.passListMismatch origin p.ticket.toNat p.clerk.toNat passes = some .listFull) :
    .update [(addrRunning offNoSale, 1)] ∈ (applyPass origin p own s).tst.ops := by
  have hends : (passedView origin p.ticket.toNat p.clerk.toNat s).endsTicket p.ticket.toNat passes := by
    simpa [State.endsTicket, State.ticketConfig, State.passListMismatch] using h
  rw [applyPass_eq, ← hpasses]
  exact (isPrefix_completeOwn (List.prefix_refl _) ..).subset (requeuePassed_noSale hends hown)

theorem Table.get_of_mem {α : Type} {t : Table α} {e : Nat × α} (hsorted : Table.sorted t = true) (h : e ∈ t) :
    Table.get t e.1 = some e.2 := by
  induction t with
  | nil => exact nomatch h
  | cons a t ih =>
    rcases List.mem_cons.mp h with rfl | h
    · simp [Table.get]
    · have hlt := Table.sorted_head_lt hsorted e h
      rw [Table.get, if_neg (Nat.ne_of_lt hlt), ih (Table.sorted_tail hsorted) h]

/-- The ticket of an order taken away is bound to no other (R73). -/
theorem bound_freeOrder {s : State} {clerk ticket : Nat} (hsorted : Table.sorted s.clt.orders = true)
    (h : ∀ c o, s.order c = some o → c ≠ clerk → o.ticket ≠ some ticket) :
    (freeOrder clerk s).bound ticket = false := by
  simp only [State.bound, freeOrder, List.any_eq_false, decide_eq_true_eq]
  intro e he
  obtain ⟨hmem, hne⟩ := Table.mem_del he
  exact h e.1 e.2 (Table.get_of_mem hsorted hmem) hne

theorem requeuePassed_quiet {s : State} {ticket passes : Nat} (h : s.requeueMismatch ticket passes = none)
    (own : Option TxFrame) : (requeuePassed ticket passes own s).hpt = s.hpt
      ∧ (own = none → (requeuePassed ticket passes own s).tst = s.tst) := by
  obtain ⟨-, heq⟩ | ⟨-, -, heq⟩ | ⟨huntracked, hlimit, heq⟩ := requeuePassed_cases ticket passes own s
  · simp [heq]
  · obtain ⟨hhpt, -⟩ := endTicket_same own s
    exact ⟨by rw [heq, hhpt], fun hown => by rw [heq, hown]; rfl⟩
  · have hnone : s.listMismatch ticket .passDuplicate .passBound = none := by
      simpa [State.requeueMismatch, huntracked, hlimit] using h
    rw [heq, listTicket_listed hnone]
    simp [hnone]

/-- A PASS that fits the order and the list queues its completion alone (R83, R95). -/
theorem applyPass_quiet {s : State} {p : TicketPayload} {origin passes : Nat}
    (hpasses : passes = readPasses p.ticket.toNat (Table.get s.tkt.passes p.clerk.toNat) + 1)
    (horder : s.passMismatch p.ticket.toNat p.clerk.toNat = none)
    (hlist : s.passListMismatch origin p.ticket.toNat p.clerk.toNat passes = none) (own : Option TxFrame) :
    ∃ t, applyPass origin p own s = completeOwn own .ok none t ∧ t.hpt = s.hpt ∧ (own = none → t.tst = s.tst) := by
  have hview : passedView origin p.ticket.toNat p.clerk.toNat s
      = { passedOrder origin p.clerk.toNat s with
          tkt := { s.tkt with passes := Table.del s.tkt.passes p.clerk.toNat } } := by
    simp [passedView, passOrder_eq, horder, raiseAt]
  obtain ⟨hhpt, htst⟩ := requeuePassed_quiet hlist own
  refine ⟨_, by rw [applyPass_eq, ← hpasses], hhpt.trans ?_, fun hown => (htst hown).trans ?_⟩
  · simp [hview]
  · simp [hview]

/-- Settles O49: each frame is applied to the station that has heard it, and its reports are counted. -/
theorem ticketFramesMoveTheTicketView : Obligations.TicketFramesMoveTheTicketView := by
  refine ⟨⟨fun origin p s n h hn => ?_, fun origin p s n clerk h hn hclerk => ?_⟩,
    fun origin p s n clerk k o h hn hclerk hsorted ho hlines hticket huntracked hwaits hlen hother hk => ?_,
    fun origin p s n clerk k h hn hclerk hroom hk => ?_⟩
  · subst hn
    have hreports (hroom : s.hpt.events.length < 29) :=
      (applyIssue_reports (s := s.heard ⟨origin, .issue p⟩) (by simpa using hroom) origin.toNat p
        (s.ownFrame ⟨origin, .issue p⟩)).fromSame (s := s) (by simp) (by simp)
    simp only [heard_issueMismatch] at hreports
    refine ⟨_, exec_issueAccepted h, ?_, fun hroom => ?_, fun tag rest hs hq hroom => ?_, fun hroom => ?_, by simp,
      by simp, ?_, ?_, by simp, by simp, linkAfter_applyDayFrame ⟨origin, .issue p⟩ _ s⟩
    · simp [applyIssue_eq, listIssued_tkt, heard_issueMismatch, issue_listed_iff, newest]
    · exact (hreports hroom).queued _ (by simp)
    · exact (hreports (by omega)).queued _ (by simp [completions, ownFrame_sender hs hq, TxFrame.tag])
    · exact issue_mismatches (hreports (by omega)) fun e he => by simp [he]
    · simp [applyIssue_eq, listIssued_keeps]
    · simp [applyIssue_eq, listIssued_keeps]
  · subst hn hclerk
    have hreports (hroom : s.hpt.events.length < 26) :=
      (applyCall_reports (s := s.heard ⟨origin, .call p⟩) (by simpa using hroom) origin.toNat p
        (s.ownFrame ⟨origin, .call p⟩)).fromSame (s := s) (by simp) (by simp)
    simp only [heard_callAbsent, heard_callBusy] at hreports
    refine ⟨_, _, exec_callAccepted h, ?_, applyCall_order .., ?_, rfl, by simp, rfl, by simp, fun ho => ?_,
      fun o ho => ?_, fun c hc => ?_, fun hroom => ?_,
      fun tag rest hs hq => ⟨fun hroom => ?_, fun o m ho hlines hticket hm => ?_⟩, fun hroom => ?_, by simp, by simp, ?_,
      by simp, by simp, linkAfter_applyDayFrame ⟨origin, .call p⟩ _ s⟩
    · simp [applyCall_tkt, calledView_tkt, listedPasses, newest]
    · exact calledOrder_ticket ..
    · simp [heard_calledOrder, calledOrder_free ho, Order.opening]
    · simp [heard_calledOrder, calledOrder_open ho]
    · rw [order_congr (applyCall_clt ..), touchOrder_order_other hc, heard_order]
    · simpa using applyCall_nowServing (s := s.heard ⟨origin, .call p⟩) (by simpa using hroom) origin.toNat p _
    · exact (hreports hroom).queued _ (by simp [completions, ownFrame_sender hs hq, TxFrame.tag])
    · exact applyCall_noSale (by simp [ownFrame_sender hs hq]) (by simpa using ho) hlines hticket hm _
    · exact call_mismatches (hreports (by omega)) (fun e he => by simp [he]) fun e he => by simp [he]
    · simp [applyCall_lbl]
  · subst hn hclerk
    have hpasses : k + 1 = readPasses p.ticket.toNat
        (Table.get (s.heard ⟨origin, .pass p⟩).tkt.passes p.clerk.toNat) + 1 := by
      simp only [hk, readPasses, heard_keeps]
      cases Table.get s.tkt.passes p.clerk.toNat <;> rfl
    have ho' : (s.heard ⟨origin, .pass p⟩).order p.clerk.toNat = some o := by simpa using ho
    have hfreed := passedOrder_empty ho' hlines origin.toNat
    have horder : (s.heard ⟨origin, .pass p⟩).passMismatch p.ticket.toNat p.clerk.toNat = none := by
      simp [State.passMismatch, ho, hlines, hticket]
    have hlist : (s.heard ⟨origin, .pass p⟩).passListMismatch origin.toNat p.ticket.toNat p.clerk.toNat (k + 1)
        = none := by
      have hbound : (freeOrder p.clerk.toNat (s.heard ⟨origin, .pass p⟩)).bound p.ticket.toNat = false :=
        bound_freeOrder (by simpa using hsorted) (by simpa using hother)
      simp [passListMismatch_eq, hfreed, hbound, hwaits, hlen]
    obtain ⟨t, heq, hhpt, htst⟩ := applyPass_quiet hpasses horder hlist (s.ownFrame ⟨origin, .pass p⟩)
    rw [(heard_keeps _ s).2.2.1] at hhpt
    refine ⟨_, exec_passAccepted h, ?_, fun c hc => ?_, ?_, fun hs => ?_,
      fun tag rest hs hq => ⟨fun hroom => ?_, fun hlimit => ?_⟩, by simp, by simp, ?_, by simp, by simp,
      linkAfter_applyDayFrame ⟨origin, .pass p⟩ _ s⟩
    · rw [order_congr (applyPass_clt ..), hfreed, freeOrder_order_same]
    · rw [order_congr (applyPass_clt ..), hfreed, freeOrder_order_other hc, heard_order]
    · rw [applyPass_tkt _ _ _ _ hpasses]
      by_cases hlimit : k + 1 ≤ 2
      · have hlimit' : ¬2 < k + 1 := by omega
        simp [hlist, huntracked, hlimit, hlimit']
      · have hlimit' : 2 < k + 1 := by omega
        simp [hlimit, hlimit']
    · rw [heq, ownFrame_receiver hs]
      exact ⟨(htst (ownFrame_receiver hs)).trans (heard_tst_receiver hs), hhpt⟩
    · rw [heq, ownFrame_sender hs hq]
      rw [completeOwn_room (tag := tag) rfl (by rwa [hhpt])]
      simp [hhpt, State.record]
    · exact applyPass_noSale hpasses (by simp [ownFrame_sender hs hq]) (.inl ⟨by simpa using huntracked, hlimit⟩)
    · simp [applyPass_lbl]
  · subst hn hclerk
    have hpasses : k + 1 = readPasses p.ticket.toNat
        (Table.get (s.heard ⟨origin, .pass p⟩).tkt.passes p.clerk.toNat) + 1 := by
      simp only [hk, readPasses, heard_keeps]
      cases Table.get s.tkt.passes p.clerk.toNat <;> rfl
    have hreports := (applyPass_reports (s := s.heard ⟨origin, .pass p⟩) (by simp; omega) origin.toNat p
      (s.ownFrame ⟨origin, .pass p⟩) hpasses).fromSame (s := s) (by simp) (by simp)
    rw [heard_passMismatch, ← List.length_append] at hreports
    have hclt := applyPass_clt origin.toNat p (s.ownFrame ⟨origin, .pass p⟩) (s.heard ⟨origin, .pass p⟩)
    have hbound := bound_congr hclt
    have htkt := applyPass_tkt origin.toNat p (s.ownFrame ⟨origin, .pass p⟩) (s.heard ⟨origin, .pass p⟩) hpasses
    simp only [heard_keeps, heard_ticketConfig] at htkt
    have hlist := passListMismatch_eq (s.heard ⟨origin, .pass p⟩) origin.toNat p.ticket.toNat p.clerk.toNat (k + 1)
    rw [← hbound] at hlist
    simp only [heard_keeps, heard_ticketConfig, heard_waits] at hlist
    refine ⟨_, (s.passMismatch p.ticket.toNat p.clerk.toNat).map fun k => .viewMismatch k (some p.clerk.toNat) none,
      ((s.heard ⟨origin, .pass p⟩).passListMismatch origin.toNat p.ticket.toNat p.clerk.toNat (k + 1)).map
        fun k => .viewMismatch k none (some p.ticket.toNat), _, exec_passAccepted h, fun ho => ⟨?_, ?_⟩,
      fun o ho hlines => ⟨?_, ?_⟩, fun o ho hlines => ⟨?_, ?_⟩, fun c hc => ?_, fun hquiet => ?_,
      fun huntracked hlimit => ⟨fun hw => ?_, fun hw hb => ?_, fun hw hb hfull => ?_, fun hw hb hfree => ?_⟩, ?_, rfl,
      ?_, ?_, ?_, ?_, fun hs => ?_, fun tag rest hs hq => ⟨?_, fun hends => ?_⟩, by simp, by simp, ?_, by simp, by simp,
      linkAfter_applyDayFrame ⟨origin, .pass p⟩ _ s⟩
    · rw [hclt, passedOrder_free (by simpa using ho)]
      simp
    · simp [State.passMismatch, ho]
    · rw [order_congr hclt, passedOrder_busy (by simpa using ho) hlines]
      simp
    · simp [State.passMismatch, ho, hlines]
    · rw [order_congr hclt, passedOrder_empty (by simpa using ho) hlines, freeOrder_order_same]
    · by_cases hticket : o.ticket = some p.ticket.toNat <;> simp [State.passMismatch, ho, hlines, hticket]
    · rw [order_congr hclt, passedOrder_order_other hc, heard_order]
    · have hnone := hlist.trans (if_pos hquiet)
      rcases hquiet with hu | hlimit
      · simp [htkt, hnone, hu]
      · simp [htkt, hnone, hlimit]
    · simp [htkt, hlist, huntracked, Nat.not_lt.mpr hlimit, hw]
    · simp [htkt, hlist, huntracked, Nat.not_lt.mpr hlimit, hw, hb]
    · simp [htkt, hlist, huntracked, Nat.not_lt.mpr hlimit, hw, hb, hfull]
    · simp [htkt, hlist, huntracked, Nat.not_lt.mpr hlimit, hw, hb, Nat.not_le.mpr hfree]
    · rw [htkt]
    · exact fun e he => hreports.queued e (List.mem_append_left _ he)
    · intro hnone
      exact (hreports.quiet (congrArg List.length hnone)).1
    · intro hsome
      exact hreports.raw fun hlength => hsome (List.length_eq_zero_iff.mp hlength)
    · exact hreports.moves
    · rw [ownFrame_receiver hs]
      exact State.WritesRecords.trans (.of_same (by rw [heard_tst_receiver hs])) (applyPass_writesRecords _ _ _)
    · exact hreports.queued _ (by simp [completions, ownFrame_sender hs hq, TxFrame.tag])
    · refine applyPass_noSale hpasses (by simp [ownFrame_sender hs hq]) ?_
      simpa using hends
    · simp [applyPass_lbl]

end Sys2Proof.Machine
end

section
/-! SUPPORT and the proof about the frames that move an order: what an ITEM and a VOID do to the clerk's order, and the label,
the posting and the completion of a VOID at its sender (R96 to R98, R105, R131, R135). -/

namespace Sys2Proof.Machine

/-! ### A reservation filled by the sender -/

/-- A reservation filled is one label record placed, its reservation freed and its journal append handed (R130, R131, R135),
seen from a state with the same labels, day and time. -/
theorem fillReservation_places {s u : State} (hlbl : u.lbl = s.lbl) (hday : u.day = s.day)
    (htime : u.hpt.timeOfDay = s.hpt.timeOfDay) (hstraps : u.hpt.straps = s.hpt.straps) (clerk : Nat)
    (body : LabelBody) :
    ∃ r, ∀ t : State, t.lbl = (fillReservation clerk body u).lbl →
      s.Places t r clerk body ∧ t.lbl.reservations = s.lbl.reservations - 1
        ∧ (fillReservation clerk body u).tst.ops = u.tst.ops ++ [r.appended t.lbl.nextSerial] := by
  refine ⟨_, fun t ht => ⟨⟨rfl, ?_, ?_, ?_⟩, ?_, ?_⟩⟩
  · rw [ht]
    simp [fillReservation, placeLabel, freeReservation, hand, State.station, hlbl, hday, htime, hstraps]
  · simp [ht, fillReservation, placeLabel, freeReservation, hand, serialAfter, hlbl]
  · simp [ht, fillReservation, placeLabel, freeReservation, hand, hlbl]
  · simp [ht, fillReservation, placeLabel, freeReservation, hand, hlbl]
  · simp [ht, fillReservation, placeLabel, freeReservation, hand, State.station, LabelRecord.appended, hlbl, hday, htime,
      hstraps]

/-! ### ITEM (R96, R97) -/

/-- The clerk's order as an ITEM makes it, but for what every frame sets (R96, R97). -/
def State.itemOrder (s : State) (origin : Nat) (p : ItemPayload) : Order :=
  match s.order p.clerk.toNat with
  | none => { Order.opening none (some s.hpt.timeOfDay) with
      lineCount := p.line.toNat
      itemCount := 1
      amount := p.price.toNat
      lines := if p.line.toNat = 1 then some [itemLine origin p] else none }
  | some o => { o with
      itemCount := o.itemCount + 1
      amount := o.amount + p.price.toNat
      lineCount := if o.lines.isSome ∧ p.line.toNat = o.lineCount + 1 then p.line.toNat else max o.lineCount p.line.toNat
      lines := if p.line.toNat = o.lineCount + 1 then o.lines.map (· ++ [itemLine origin p]) else none }

/-- The mismatch of an ITEM (R96, R97). -/
def State.itemMismatch (s : State) (p : ItemPayload) : Option MismatchKind :=
  match s.order p.clerk.toNat with
  | none => if p.line.toNat = 1 then none else some .orderUnknown
  | some o => if o.lines = none ∨ p.line.toNat = o.lineCount + 1 then none else some .lineConflict

theorem applyItem_eq (origin : Nat) (p : ItemPayload) (s : State) :
    applyItem origin p s
      = raiseAt p.clerk.toNat (s.itemMismatch p) (touchOrder p.clerk.toNat origin (s.itemOrder origin p) s) := by
  unfold applyItem State.itemMismatch State.itemOrder
  cases s.order p.clerk.toNat with
  | none =>
    by_cases hline : p.line.toNat = 1 <;> simp [openByItem, hline, raiseAt]
  | some o =>
    cases hlines : o.lines with
    | none => simp [addItem, hlines, raiseAt]
    | some lines => by_cases hline : p.line.toNat = o.lineCount + 1 <;> simp [addItem, hlines, hline, raiseAt]

theorem applyItem_clt (origin : Nat) (p : ItemPayload) (s : State) :
    (applyItem origin p s).clt = (touchOrder p.clerk.toNat origin (s.itemOrder origin p) s).clt := by
  simp [applyItem_eq]

theorem applyItem_reports {s : State} (hroom : s.hpt.events.length < 31) (origin : Nat) (p : ItemPayload) :
    s.Reports (applyItem origin p s) (clerkEvents p.clerk.toNat (s.itemMismatch p))
      (clerkEvents p.clerk.toNat (s.itemMismatch p)).length := by
  have htouched : s.Reports (touchOrder p.clerk.toNat origin (s.itemOrder origin p) s) [] 0 := .of_same rfl rfl
  rw [applyItem_eq]
  simpa using raiseAt_reports htouched (by simpa using hroom) p.clerk.toNat (s.itemMismatch p)

/-- One mismatch at most has been raised between two states: that one, or nothing has been reported. -/
theorem State.Reports.of_clerkEvents {s t : State} {clerk : Nat} {k : Option MismatchKind} {l : List Event}
    (h : s.Reports t l (clerkEvents clerk k).length) (hl : clerkEvents clerk k ⊆ l) :
    (k = none → t.hlm = s.hlm) ∧ ∀ kind, k = some kind → s.Mismatches t kind (some clerk) none := by
  refine ⟨fun hk => ?_, fun kind hk => ?_⟩ <;> subst hk
  · exact (h.quiet rfl).1
  · exact h.mismatches (hl (List.mem_singleton_self _))

/-! ### VOID (R98) -/

/-- The mismatch of a VOID (R98). -/
def State.voidMismatch (s : State) (p : VoidPayload) : Option MismatchKind :=
  match s.order p.clerk.toNat with
  | none => some .orderUnknown
  | some o => (o.voidLine p).2

/-- The clerk's order after a VOID (R98). -/
def voidedView (origin : Nat) (p : VoidPayload) (s : State) : State :=
  match s.order p.clerk.toNat with
  | none => s
  | some o => touchOrder p.clerk.toNat origin (o.voidLine p).1 s

/-- The sender's label and posting of a VOID (R98). -/
def settleVoid (p : VoidPayload) (own : Option TxFrame) (s : State) : State :=
  if own.isSome then
    postVoid p.price.toNat (fillReservation p.clerk.toNat (.void p.line.toNat p.price.toNat) s)
  else s

theorem applyVoid_eq (origin : Nat) (p : VoidPayload) (own : Option TxFrame) (s : State) :
    applyVoid origin p own s
      = completeOwn own .ok none (settleVoid p own (raiseAt p.clerk.toNat (s.voidMismatch p) (voidedView origin p s))) := by
  unfold applyVoid settleVoid State.voidMismatch voidedView
  dsimp only
  cases s.order p.clerk.toNat with
  | none => cases own <;> rfl
  | some o =>
    dsimp only
    cases (o.voidLine p).2 <;> cases own <;> rfl

@[simp] theorem settleVoid_keeps (p : VoidPayload) (own : Option TxFrame) (s : State) :
    (settleVoid p own s).hpt = s.hpt ∧ (settleVoid p own s).hlm = s.hlm ∧ (settleVoid p own s).clt = s.clt
      ∧ (settleVoid p own s).tkt = s.tkt := by
  unfold settleVoid
  split <;> simp

theorem settleVoid_places {s u : State} {own : Option TxFrame} (hown : own.isSome = true) (hlbl : u.lbl = s.lbl)
    (hday : u.day = s.day) (htime : u.hpt.timeOfDay = s.hpt.timeOfDay) (hstraps : u.hpt.straps = s.hpt.straps)
    (p : VoidPayload) :
    ∃ r, ∀ t : State, t.lbl = (settleVoid p own u).lbl →
      s.Places t r p.clerk.toNat (.void p.line.toNat p.price.toNat) ∧ t.lbl.reservations = s.lbl.reservations - 1
        ∧ (settleVoid p own u).tst.ops = u.tst.ops ++ [r.appended t.lbl.nextSerial,
            .update [(addrRunning offVoidCount, 1), (addrRunning offVoidAmount, p.price.toNat)]] := by
  obtain ⟨r, hr⟩ := fillReservation_places hlbl hday htime hstraps p.clerk.toNat (.void p.line.toNat p.price.toNat)
  refine ⟨r, fun t ht => ?_⟩
  rw [settleVoid, if_pos hown] at ht ⊢
  obtain ⟨hplaces, hreserved, hops⟩ := hr t ht
  refine ⟨hplaces, hreserved, ?_⟩
  simp [postVoid, post, hand, hops]

@[simp] theorem voidedView_keeps (origin : Nat) (p : VoidPayload) (s : State) :
    (voidedView origin p s).hpt = s.hpt ∧ (voidedView origin p s).hlm = s.hlm ∧ (voidedView origin p s).tst = s.tst
      ∧ (voidedView origin p s).lbl = s.lbl ∧ (voidedView origin p s).tkt = s.tkt
      ∧ (voidedView origin p s).day = s.day := by
  unfold voidedView
  split <;> simp

theorem voidedView_free {s : State} {p : VoidPayload} (h : s.order p.clerk.toNat = none) (origin : Nat) :
    voidedView origin p s = s := by
  simp [voidedView, h]

theorem voidedView_open {s : State} {p : VoidPayload} {o : Order} (h : s.order p.clerk.toNat = some o) (origin : Nat) :
    voidedView origin p s = touchOrder p.clerk.toNat origin (o.voidLine p).1 s := by
  simp [voidedView, h]

theorem voidedView_order_other {p : VoidPayload} {c : Nat} (h : c ≠ p.clerk.toNat) (origin : Nat) (s : State) :
    (voidedView origin p s).order c = s.order c := by
  unfold voidedView
  split
  · rfl
  · exact touchOrder_order_other h ..

theorem applyVoid_clt (origin : Nat) (p : VoidPayload) (own : Option TxFrame) (s : State) :
    (applyVoid origin p own s).clt = (voidedView origin p s).clt := by
  simp [applyVoid_eq]

theorem applyVoid_tkt (origin : Nat) (p : VoidPayload) (own : Option TxFrame) (s : State) :
    (applyVoid origin p own s).tkt = s.tkt := by
  simp [applyVoid_eq]

theorem applyVoid_lbl (origin : Nat) (p : VoidPayload) (own : Option TxFrame) (s : State) :
    (applyVoid origin p own s).lbl
      = (settleVoid p own (raiseAt p.clerk.toNat (s.voidMismatch p) (voidedView origin p s))).lbl := by
  simp [applyVoid_eq]

theorem voidRaised_reports {s : State} (hroom : s.hpt.events.length < 31) (origin : Nat) (p : VoidPayload)
    (own : Option TxFrame) :
    s.Reports (settleVoid p own (raiseAt p.clerk.toNat (s.voidMismatch p) (voidedView origin p s)))
      (clerkEvents p.clerk.toNat (s.voidMismatch p)) (clerkEvents p.clerk.toNat (s.voidMismatch p)).length := by
  have hview : s.Reports (voidedView origin p s) [] 0 := .of_same (by simp) (by simp)
  have hraised := raiseAt_reports hview (by simpa using hroom) p.clerk.toNat (s.voidMismatch p)
  simpa using hraised.thenSame (u := settleVoid p own _) (by simp) (by simp)

theorem applyVoid_reports {s : State} (hroom : s.hpt.events.length < 30) (origin : Nat) (p : VoidPayload)
    (own : Option TxFrame) :
    s.Reports (applyVoid origin p own s)
      (clerkEvents p.clerk.toNat (s.voidMismatch p) ++ completions own .ok none)
      (clerkEvents p.clerk.toNat (s.voidMismatch p)).length := by
  have hlength := clerkEvents_length p.clerk.toNat (s.voidMismatch p)
  rw [applyVoid_eq]
  exact (voidRaised_reports (by omega) origin p own).thenComplete (by omega) own .ok none

/-! ### The order after a VOID (R98) -/

/-- A VOID leaves the ticket, the time of opening and the line count. -/
theorem voidLine_keeps (o : Order) (p : VoidPayload) :
    (o.voidLine p).1.ticket = o.ticket ∧ (o.voidLine p).1.opened = o.opened
      ∧ (o.voidLine p).1.lineCount = o.lineCount := by
  unfold Order.voidLine
  split
  · simp [Order.less]
  · split
    · simp [Order.less]
    · split <;> simp [Order.less]

/-- A stub has its figures reduced. -/
theorem voidLine_stub {o : Order} (h : o.lines = none) (p : VoidPayload) :
    o.voidLine p = (o.less p.price.toNat, if o.short p.price.toNat then some .voidAbsent else none) := by
  simp [Order.voidLine, h]

/-- A line that the list does not hold loses the list. -/
theorem voidLine_absent {o : Order} {p : VoidPayload} (h : o.lines ≠ none) (hl : o.line p.line.toNat = none) :
    o.voidLine p = ({ o.less p.price.toNat with lines := none }, some .voidAbsent) := by
  cases hlines : o.lines with
  | none => exact absurd hlines h
  | some lines => simp [Order.voidLine, hlines, hl]

/-- A line held is a line of a list. -/
theorem lines_of_line {o : Order} {number : Nat} {l : Line} (h : o.line number = some l) :
    ∃ lines, o.lines = some lines := by
  cases hlines : o.lines with
  | none => simp [Order.line, hlines] at h
  | some lines => exact ⟨lines, rfl⟩

/-- A line that is void already is left. -/
theorem voidLine_repeat {o : Order} {p : VoidPayload} {l : Line} (hl : o.line p.line.toNat = some l)
    (hvoid : l.voided = true) : o.voidLine p = (o, some .voidRepeat) := by
  obtain ⟨lines, hlines⟩ := lines_of_line hl
  simp [Order.voidLine, hlines, hl, hvoid]

/-- The list with a line voided. -/
theorem voidLine_voids {o : Order} {p : VoidPayload} {l : Line} {lines : List Line} (hlines : o.lines = some lines)
    (hl : o.line p.line.toNat = some l) (hvoid : l.voided = false) :
    o.voidLine p = ({ o.less l.price with
        lines := some (lines.map fun x => if x.number = l.number then { x with voided := true } else x) },
      if p.price.toNat ≠ l.price || o.short l.price then some .voidAbsent else none) := by
  simp [Order.voidLine, hlines, hl, hvoid]

theorem heard_itemMismatch (f : Frame) (s : State) : (s.heard f).itemMismatch = s.itemMismatch := by
  funext p
  simp [State.itemMismatch]

theorem heard_itemOrder (f : Frame) (s : State) : (s.heard f).itemOrder = s.itemOrder := by
  funext origin p
  simp [State.itemOrder]

theorem heard_voidMismatch (f : Frame) (s : State) : (s.heard f).voidMismatch = s.voidMismatch := by
  funext p
  simp [State.voidMismatch]

theorem exec_itemAccepted {origin : BitVec 4} {p : ItemPayload} {s : State} (h : s.hearsToday (.item p)) :
    exec (.itemAccepted origin p) s = .next (applyItem origin.toNat p (s.heard ⟨origin, .item p⟩)) :=
  congrArg _ (acceptDayFrame_today (f := ⟨origin, .item p⟩) h)

theorem exec_voidAccepted {origin : BitVec 4} {p : VoidPayload} {s : State} (h : s.hearsToday (.voidLine p)) :
    exec (.voidAccepted origin p) s
      = .next (applyVoid origin.toNat p (s.ownFrame ⟨origin, .voidLine p⟩) (s.heard ⟨origin, .voidLine p⟩)) :=
  congrArg _ (acceptDayFrame_today (f := ⟨origin, .voidLine p⟩) h)

/-- Settles O50: the order after each frame, its mismatch, and what the sender of a VOID settles. -/
theorem itemAndVoidMoveTheOrder : Obligations.ItemAndVoidMoveTheOrder := by
  refine ⟨fun origin p s clerk l h hclerk hl => ?_,
    fun origin p s clerk o lines l h hclerk ho hlines hline hvoid hprice hcount hamount => ?_,
    fun origin p s clerk price h hclerk hprice hroom => ?_⟩
  · subst hclerk hl
    have hreports (hroom : s.hpt.events.length < 28) :=
      (applyItem_reports (s := s.heard ⟨origin, .item p⟩) (by simp; omega) origin.toNat p).fromSame (s := s) (by simp)
        (by simp)
    rw [heard_itemMismatch] at hreports
    have horder := order_congr (applyItem_clt origin.toNat p (s.heard ⟨origin, .item p⟩))
    rw [heard_itemOrder] at horder
    refine ⟨_, _, exec_itemAccepted h, by rw [horder, touchOrder_order_same], rfl, by simp, rfl, by simp, fun ho => ?_,
      fun o ho => ?_, fun hroom => ?_, fun c hc => ?_, by simp, by simp, ?_, ?_, by simp, by simp,
      linkAfter_applyDayFrame ⟨origin, .item p⟩ none s⟩
    · simp [State.itemOrder, ho, Order.opening, itemLine]
    · refine ⟨?_, ?_, ?_, ?_, fun lines hlines hline => ?_, fun hmisfit => ?_⟩
      · simp [State.itemOrder, ho]
      · simp [State.itemOrder, ho]
      · simp [State.itemOrder, ho]
      · simp [State.itemOrder, ho]
      · simp [State.itemOrder, ho, hlines, hline, itemLine]
      · rcases hmisfit with hstub | hline
        · simp [State.itemOrder, ho, hstub]
        · simp [State.itemOrder, ho, hline]
    · obtain ⟨hnone, hsome⟩ := (hreports hroom).of_clerkEvents (List.Subset.refl _)
      refine ⟨fun ho hline => hnone ?_, fun ho hline => hsome _ ?_, fun o ho hfits => hnone ?_,
        fun o lines ho hlines hline => hsome _ ?_⟩
      · simp [State.itemMismatch, ho, hline]
      · simp [State.itemMismatch, ho, hline]
      · simp [State.itemMismatch, ho, hfits]
      · simp [State.itemMismatch, ho, hlines, hline]
    · rw [horder, touchOrder_order_other hc, heard_order]
    · simp [applyItem_eq]
    · simp [applyItem_eq]
  · subst hclerk
    have ho' : (s.heard ⟨origin, .voidLine p⟩).order p.clerk.toNat = some o := by simpa using ho
    have horder := order_congr
      (applyVoid_clt origin.toNat p (s.ownFrame ⟨origin, .voidLine p⟩) (s.heard ⟨origin, .voidLine p⟩))
    have hvoided := voidLine_voids hlines hline hvoid
    have hmismatch : (s.heard ⟨origin, .voidLine p⟩).voidMismatch p = none := by
      have hshort : o.short l.price = false := by
        simp only [Order.short, decide_eq_false_iff_not]
        omega
      simp [State.voidMismatch, ho, hvoided, hprice, hshort]
    have heq := applyVoid_eq origin.toNat p (s.ownFrame ⟨origin, .voidLine p⟩) (s.heard ⟨origin, .voidLine p⟩)
    rw [hmismatch] at heq
    refine ⟨_, _, exec_voidAccepted h, by rw [horder, voidedView_open ho', touchOrder_order_same], ?_, ?_, ?_, ?_, rfl,
      rfl, ?_, fun c hc => ?_, fun hs => ?_, fun tag line rest hs hq hroom => ?_, by simp, by simp, ?_, by simp, by simp,
      linkAfter_applyDayFrame ⟨origin, .voidLine p⟩ _ s⟩
    · simp only [hvoided, Order.less]
      omega
    · simp only [hvoided, Order.less]
      omega
    · exact (voidLine_keeps o p).2.2
    · exact (voidLine_keeps o p).1
    · simp [hvoided]
    · rw [horder, voidedView_order_other hc, heard_order]
    · rw [heq, ownFrame_receiver hs]
      simp [completeOwn, settleVoid, raiseAt, heard_tst_receiver hs]
    · rw [ownFrame_sender hs hq] at heq
      obtain ⟨r, hr⟩ := settleVoid_places (s := s) (u := voidedView origin.toNat p (s.heard ⟨origin, .voidLine p⟩))
        (own := some (.voidLine tag p.clerk.toNat line)) rfl (by simp) (by simp) (by simp) (by simp) p
      obtain ⟨reads, htst, hreads, hdays⟩ := heard_tst_sender hs
      rw [ownFrame_sender hs hq, heq, completeOwn_room (tag := tag) rfl (by simpa [raiseAt] using hroom)]
      obtain ⟨hplaces, hreserved, hops⟩ := hr _ rfl
      refine ⟨r, reads, hplaces, hreads, hreserved, ?_, hdays, ?_, ?_⟩
      · simpa [raiseAt, htst] using hops
      · simp [raiseAt, State.record]
      · simp [raiseAt]
    · simp [applyVoid_tkt]
  · subst hclerk hprice
    have hreports := (applyVoid_reports (s := s.heard ⟨origin, .voidLine p⟩) (by simp; omega) origin.toNat p
      (s.ownFrame ⟨origin, .voidLine p⟩)).fromSame (s := s) (by simp) (by simp)
    rw [heard_voidMismatch] at hreports
    obtain ⟨hnone, hsome⟩ := hreports.of_clerkEvents (List.subset_append_left ..)
    have hclt := applyVoid_clt origin.toNat p (s.ownFrame ⟨origin, .voidLine p⟩) (s.heard ⟨origin, .voidLine p⟩)
    refine ⟨_, exec_voidAccepted h, fun ho => ⟨?_, hsome _ ?_⟩, fun o ho => ?_, fun c hc => ?_, fun hs => ⟨?_, ?_⟩,
      fun tag line rest hs hq => ?_, by simp, by simp, ?_, by simp, by simp,
      linkAfter_applyDayFrame ⟨origin, .voidLine p⟩ _ s⟩
    · rw [hclt, voidedView_free (by simpa using ho)]
      simp
    · simp [State.voidMismatch, ho]
    · have hmismatch : s.voidMismatch p = (o.voidLine p).2 := by simp [State.voidMismatch, ho]
      obtain ⟨hticket, hopened, hcount⟩ := voidLine_keeps o p
      rw [hmismatch] at hnone hsome
      rw [order_congr hclt, voidedView_open (by simpa using ho), touchOrder_order_same]
      refine ⟨_, rfl, hticket, hopened, hcount, rfl, by simp, rfl, by simp, fun hstub => ?_, fun hlist habsent => ?_,
        fun l hl hvoid => ?_, fun l lines hlines hl hvoid => ?_⟩
      · rw [voidLine_stub hstub p] at hnone hsome ⊢
        refine ⟨hstub, rfl, rfl, fun hshort => hsome _ ?_, fun hitems hamount => hnone ?_⟩
        · simp [Order.short, hshort]
        · simp [Order.short, hitems, hamount]
      · rw [voidLine_absent hlist habsent] at hsome ⊢
        exact ⟨rfl, rfl, rfl, hsome _ rfl⟩
      · rw [voidLine_repeat hl hvoid] at hsome ⊢
        exact ⟨rfl, rfl, rfl, hsome _ rfl⟩
      · rw [voidLine_voids hlines hl hvoid] at hnone hsome ⊢
        refine ⟨rfl, rfl, rfl, fun hmisfit => hsome _ ?_, fun hprice hitems hamount => hnone ?_⟩
        · simp [Order.short, hmisfit]
        · simp [Order.short, hprice, hitems, hamount]
    · rw [order_congr hclt, voidedView_order_other hc, heard_order]
    · rw [applyVoid_lbl, ownFrame_receiver hs]
      simp [settleVoid]
    · rw [applyVoid_eq, ownFrame_receiver hs]
      exact State.WritesRecords.trans (.of_same (by simp [heard_tst_receiver hs])) (raiseAt_writesRecords _ _ _)
    · have hraised := voidRaised_reports (s := s.heard ⟨origin, .voidLine p⟩) (by simp; omega) origin.toNat p
        (some (.voidLine tag p.clerk.toNat line))
      obtain ⟨r, hr⟩ := settleVoid_places (s := s) (u := raiseAt p.clerk.toNat
          ((s.heard ⟨origin, .voidLine p⟩).voidMismatch p) (voidedView origin.toNat p (s.heard ⟨origin, .voidLine p⟩)))
        (own := some (.voidLine tag p.clerk.toNat line)) rfl (by simp) (by simp) (by simp) (by simp) p
      have hlength := hraised.length
      have hone := clerkEvents_length p.clerk.toNat ((s.heard ⟨origin, .voidLine p⟩).voidMismatch p)
      rw [ownFrame_sender hs hq, applyVoid_eq, completeOwn_room (tag := tag) rfl (by simp at *; omega)]
      obtain ⟨hplaces, hreserved, hops⟩ := hr _ rfl
      refine ⟨r, hplaces, hreserved, ?_, ?_, ?_⟩
      · rw [hops]
        simp
      · rw [hops]
        simp
      · rw [hraised.record]
        simp
    · simp [applyVoid_tkt]

end Sys2Proof.Machine
end

section
/-! SUPPORT and the proof about the frames that free an order: what a TXCLOSE and a TXCANCEL do at every station, and what
their senders settle (R99, R100, R105, R130 to R135). -/

namespace Sys2Proof.Machine

/-! ### TXCLOSE (R99) -/

/-- The mismatch of a TXCLOSE (R99). -/
def State.closeMismatch (s : State) (p : TxClosePayload) : Option MismatchKind :=
  match s.order p.clerk.toNat with
  | none => some .orderUnknown
  | some o => if o.differs p then some .totalFigures else none

/-- The order freed by a TXCLOSE, with its sender's label and posting (R99). -/
def settleClose (p : TxClosePayload) (own : Option TxFrame) (order : Option Order) (s : State) : State :=
  match order with
  | none => if own.isSome then freeReservation s else s
  | some o =>
    freeOrder p.clerk.toNat
      (if own.isSome then
        postCustomer p.clerk.toNat p.amount.toNat
          (fillReservation p.clerk.toNat (.total o.ticket p.items.toNat p.amount.toNat o.listing) s)
      else s)

theorem applyTxClose_eq (p : TxClosePayload) (own : Option TxFrame) (s : State) :
    applyTxClose p own s = completeOwn own .ok none
      (settleClose p own (s.order p.clerk.toNat) (raiseAt p.clerk.toNat (s.closeMismatch p) s)) := by
  unfold applyTxClose settleClose State.closeMismatch
  dsimp only
  cases s.order p.clerk.toNat with
  | none => cases own <;> rfl
  | some o => cases hdiffers : o.differs p <;> cases own <;> simp [raiseAt, completeOwn, hdiffers]

@[simp] theorem settleClose_keeps (p : TxClosePayload) (own : Option TxFrame) (order : Option Order) (s : State) :
    (settleClose p own order s).hpt = s.hpt ∧ (settleClose p own order s).hlm = s.hlm
      ∧ (settleClose p own order s).tkt = s.tkt := by
  unfold settleClose
  split
  · split <;> simp
  · split <;> simp

theorem settleClose_free (p : TxClosePayload) (own : Option TxFrame) (s : State) :
    (settleClose p own none s).clt = s.clt ∧ (settleClose p own none s).lbl.records = s.lbl.records
      ∧ (settleClose p own none s).tst = s.tst
      ∧ (settleClose p own none s).lbl.reservations = s.lbl.reservations - if own.isSome then 1 else 0 := by
  unfold settleClose
  cases own <;> simp [freeReservation]

theorem settleClose_order_same (p : TxClosePayload) (own : Option TxFrame) (o : Order) (s : State) :
    (settleClose p own (some o) s).order p.clerk.toNat = none := freeOrder_order_same ..

theorem settleClose_order_other {p : TxClosePayload} {c : Nat} (h : c ≠ p.clerk.toNat) (own : Option TxFrame)
    (order : Option Order) (s : State) : (settleClose p own order s).order c = s.order c := by
  unfold settleClose
  split
  · split <;> rfl
  · rw [freeOrder_order_other h]
    split
    · exact congrFun (order_congr (by simp [postCustomer, post])) c
    · rfl

/-- A receiver of a TXCLOSE frees the order alone. -/
theorem settleClose_receiver (p : TxClosePayload) (order : Option Order) (s : State) :
    (settleClose p none order s).lbl = s.lbl ∧ (settleClose p none order s).tst = s.tst := by
  unfold settleClose
  split <;> simp

/-- The sender's TOTAL record and customer (R99, R130, R131, R135). -/
theorem settleClose_places {s u : State} {own : Option TxFrame} (hown : own.isSome = true) (hlbl : u.lbl = s.lbl)
    (hday : u.day = s.day) (htime : u.hpt.timeOfDay = s.hpt.timeOfDay) (hstraps : u.hpt.straps = s.hpt.straps)
    (p : TxClosePayload) (o : Order) :
    ∃ r, ∀ t : State, t.lbl = (settleClose p own (some o) u).lbl →
      s.Places t r p.clerk.toNat (.total o.ticket p.items.toNat p.amount.toNat o.listing)
        ∧ t.lbl.reservations = s.lbl.reservations - 1
        ∧ (settleClose p own (some o) u).tst.ops = u.tst.ops ++ [r.appended t.lbl.nextSerial,
            .update [(addrRunning (offClerkCustomers p.clerk.toNat), 1),
              (addrRunning (offClerkAmount p.clerk.toNat), p.amount.toNat), (addrRunning offCustomers, 1)]] := by
  obtain ⟨r, hr⟩ := fillReservation_places hlbl hday htime hstraps p.clerk.toNat
    (.total o.ticket p.items.toNat p.amount.toNat o.listing)
  refine ⟨r, fun t ht => ?_⟩
  simp only [settleClose, hown, if_true] at ht ⊢
  obtain ⟨hplaces, hreserved, hops⟩ := hr t (by simpa [postCustomer, post, hand] using ht)
  refine ⟨hplaces, hreserved, ?_⟩
  simp [postCustomer, post, hand, hops]

theorem applyTxClose_clt (p : TxClosePayload) (own : Option TxFrame) (s : State) :
    (applyTxClose p own s).clt
      = (settleClose p own (s.order p.clerk.toNat) (raiseAt p.clerk.toNat (s.closeMismatch p) s)).clt := by
  simp [applyTxClose_eq]

theorem applyTxClose_tkt (p : TxClosePayload) (own : Option TxFrame) (s : State) :
    (applyTxClose p own s).tkt = s.tkt := by
  simp [applyTxClose_eq]

theorem applyTxClose_order_other {p : TxClosePayload} {c : Nat} (h : c ≠ p.clerk.toNat) (own : Option TxFrame)
    (s : State) : (applyTxClose p own s).order c = s.order c := by
  rw [order_congr (applyTxClose_clt ..), settleClose_order_other h, order_congr (by simp : _ = s.clt)]

/-- At a receiver a TXCLOSE hands writes of records alone (R99). -/
theorem applyTxClose_writesRecords (p : TxClosePayload) (s : State) : s.WritesRecords (applyTxClose p none s) := by
  obtain ⟨-, htst⟩ := settleClose_receiver p (s.order p.clerk.toNat) (raiseAt p.clerk.toNat (s.closeMismatch p) s)
  rw [applyTxClose_eq]
  exact (raiseAt_writesRecords p.clerk.toNat (s.closeMismatch p) s).trans (.of_same (congrArg Store.ops htst))

theorem closeRaised_reports {s : State} (hroom : s.hpt.events.length < 31) (p : TxClosePayload)
    (own : Option TxFrame) (order : Option Order) :
    s.Reports (settleClose p own order (raiseAt p.clerk.toNat (s.closeMismatch p) s))
      (clerkEvents p.clerk.toNat (s.closeMismatch p)) (clerkEvents p.clerk.toNat (s.closeMismatch p)).length := by
  have hraised := raiseAt_reports (.of_same (s := s) rfl rfl) (by simpa using hroom) p.clerk.toNat (s.closeMismatch p)
  simpa using hraised.thenSame (u := settleClose p own order _) (by simp) (by simp)

/-! ### TXCANCEL (R100) -/

theorem applyTxCancel_free {p : TxCancelPayload} {s : State} (h : s.order p.clerk.toNat = none)
    (own : Option TxFrame) :
    applyTxCancel p own s = completeOwn own .ok none (raiseMismatch .orderUnknown (some p.clerk.toNat) none s) := by
  simp [applyTxCancel, h]

theorem applyTxCancel_open {p : TxCancelPayload} {s : State} {o : Order} (h : s.order p.clerk.toNat = some o)
    (own : Option TxFrame) :
    applyTxCancel p own s = completeOwn own .ok none
      (freeOrder p.clerk.toNat (if own.isSome then postCancel o.amount s else s)) := by
  simp [applyTxCancel, h]

theorem exec_txCloseAccepted {origin : BitVec 4} {p : TxClosePayload} {s : State} (h : s.hearsToday (.txClose p)) :
    exec (.txCloseAccepted origin p) s
      = .next (applyTxClose p (s.ownFrame ⟨origin, .txClose p⟩) (s.heard ⟨origin, .txClose p⟩)) :=
  congrArg _ (acceptDayFrame_today (f := ⟨origin, .txClose p⟩) h)

theorem exec_txCancelAccepted {origin : BitVec 4} {p : TxCancelPayload} {s : State} (h : s.hearsToday (.txCancel p)) :
    exec (.txCancelAccepted origin p) s
      = .next (applyTxCancel p (s.ownFrame ⟨origin, .txCancel p⟩) (s.heard ⟨origin, .txCancel p⟩)) :=
  congrArg _ (acceptDayFrame_today (f := ⟨origin, .txCancel p⟩) h)

theorem heard_closeMismatch (f : Frame) (s : State) : (s.heard f).closeMismatch = s.closeMismatch := by
  funext p
  simp [State.closeMismatch]

/-- A completion with room, whether the frame has a request or not (R84, R105). -/
theorem completeOwn_events {own : Option TxFrame} {s : State} (hroom : s.hpt.events.length < 32) (code : ResultCode)
    (ticket : Option Nat) :
    completeOwn own code ticket s
      = { s with hpt.events := s.hpt.events ++ (completions own code ticket).map s.record } := by
  cases htag : own.bind TxFrame.tag with
  | none => simp [completeOwn, completions, htag]
  | some tag => simp [completeOwn_room htag hroom, completions, htag]

/-- Settles O51: the order freed by each frame, its mismatch, and what its sender settles. -/
theorem closeAndCancelFreeTheOrder : Obligations.CloseAndCancelFreeTheOrder := by
  refine ⟨fun origin p s clerk o h hclerk ho hticket hitems hamount => ?_, fun origin p s clerk o h hclerk ho => ?_,
    fun origin p s clerk h hclerk hroom => ?_, fun origin p s clerk h hclerk ho hroom => ?_⟩
  · subst hclerk
    have hmismatch : (s.heard ⟨origin, .txClose p⟩).closeMismatch p = none := by
      simp [State.closeMismatch, ho, Order.differs, hticket, hitems, hamount]
    have heq := applyTxClose_eq p (s.ownFrame ⟨origin, .txClose p⟩) (s.heard ⟨origin, .txClose p⟩)
    rw [hmismatch, heard_order, ho] at heq
    have hnone : (applyTxClose p (s.ownFrame ⟨origin, .txClose p⟩) (s.heard ⟨origin, .txClose p⟩)).order p.clerk.toNat
        = none := by
      rw [order_congr (applyTxClose_clt ..), heard_order, ho]
      exact settleClose_order_same ..
    obtain ⟨hreceiver, hsender⟩ := linkAfter_applyDayFrame ⟨origin, .txClose p⟩ (s.ownFrame ⟨origin, .txClose p⟩) s
    refine ⟨fun hs => ⟨_, exec_txCloseAccepted h, hnone, fun c hc => ?_, ?_, ?_, ?_, ?_, by simp, by simp, ?_, by simp,
      hreceiver hs⟩, fun tag rest hs hq hroom => ?_⟩
    · rw [applyTxClose_order_other hc, heard_order]
    · rw [heq, ownFrame_receiver hs]
      simp [completeOwn, raiseAt]
    · rw [heq, ownFrame_receiver hs]
      simp [completeOwn, raiseAt]
    · rw [heq, ownFrame_receiver hs]
      simp [completeOwn, raiseAt, settleClose_receiver, heard_tst_receiver hs]
    · rw [heq, ownFrame_receiver hs]
      simp [completeOwn, raiseAt, settleClose_receiver]
    · simp [applyTxClose_tkt]
    · obtain ⟨r, hr⟩ := settleClose_places (s := s) (u := s.heard ⟨origin, .txClose p⟩)
        (own := some (.txClose tag p.clerk.toNat)) rfl (by simp) (by simp) (by simp) (by simp) p o
      obtain ⟨reads, htst, hreads, hdays⟩ := heard_tst_sender hs
      have hdone := ownFrame_sender hs hq
      rw [hdone] at heq hnone
      have hlnk := hsender _ _ hs hq
      rw [hdone] at hlnk
      rw [completeOwn_room (tag := tag) rfl (by simpa [raiseAt] using hroom)] at heq
      obtain ⟨hplaces, hreserved, hops⟩ := hr (applyTxClose p (some (.txClose tag p.clerk.toNat))
        (s.heard ⟨origin, .txClose p⟩)) (by rw [heq]; rfl)
      refine ⟨_, r, reads, exec_txCloseAccepted h, ?_⟩
      rw [hdone]
      refine ⟨hnone, fun c hc => ?_, hplaces, hreserved, hreads, hdays, ?_, ?_, by simp, by simp, ?_, by simp, ?_, by simp,
        hlnk⟩
      · rw [applyTxClose_order_other hc, heard_order]
      · rw [heq]
        simpa [raiseAt, htst, heq] using hops
      · rw [heq]
        simp [raiseAt, State.record]
      · simp [applyTxClose_tkt]
      · rw [heq]
        simp [raiseAt]
  · subst hclerk
    have heq := applyTxCancel_open (p := p) (s := s.heard ⟨origin, .txCancel p⟩) (by simpa using ho)
      (s.ownFrame ⟨origin, .txCancel p⟩)
    have hclt : (applyTxCancel p (s.ownFrame ⟨origin, .txCancel p⟩) (s.heard ⟨origin, .txCancel p⟩)).clt
        = (freeOrder p.clerk.toNat s).clt := by
      rw [heq]
      cases s.ownFrame ⟨origin, .txCancel p⟩ <;> simp [freeOrder, postCancel, post]
    refine ⟨_, exec_txCancelAccepted h, ?_, fun c hc => ?_, ?_, fun hs => ?_, fun f rest hs hq hroom => ?_, by simp,
      by simp, ?_, by simp, by simp, linkAfter_applyDayFrame ⟨origin, .txCancel p⟩ _ s⟩
    · rw [order_congr hclt, freeOrder_order_same]
    · rw [order_congr hclt, freeOrder_order_other hc]
    · rw [heq]
      cases s.ownFrame ⟨origin, .txCancel p⟩ <;> simp [postCancel, post]
    · rw [heq, ownFrame_receiver hs]
      simp [completeOwn, heard_tst_receiver hs]
    · obtain ⟨reads, htst, hreads, hdays⟩ := heard_tst_sender hs
      rw [heq, ownFrame_sender hs hq, completeOwn_events (by simpa [postCancel, post] using hroom)]
      refine ⟨reads, hreads, hdays, ?_, ?_, ?_⟩
      · simp [postCancel, post, hand, htst]
      · cases htag : f.tag <;> simp [postCancel, post, completions, htag, State.record]
      · simp [postCancel, post]
    · rw [heq]
      cases s.ownFrame ⟨origin, .txCancel p⟩ <;> simp [postCancel, post]
  · subst hclerk
    have hone := clerkEvents_length p.clerk.toNat ((s.heard ⟨origin, .txClose p⟩).closeMismatch p)
    have hraised := closeRaised_reports (s := s.heard ⟨origin, .txClose p⟩) (by simp; omega) p
      (s.ownFrame ⟨origin, .txClose p⟩) (s.order p.clerk.toNat)
    have heq := applyTxClose_eq p (s.ownFrame ⟨origin, .txClose p⟩) (s.heard ⟨origin, .txClose p⟩)
    rw [heard_order] at heq
    have hreports := (hraised.thenComplete (by simp; omega) (s.ownFrame ⟨origin, .txClose p⟩) .ok none).fromSame
      (s := s) (by simp) (by simp)
    rw [← heq, heard_closeMismatch] at hreports
    obtain ⟨-, hsome⟩ := hreports.of_clerkEvents (List.subset_append_left ..)
    have hclt := applyTxClose_clt p (s.ownFrame ⟨origin, .txClose p⟩) (s.heard ⟨origin, .txClose p⟩)
    rw [heard_order] at hclt
    have hlast {tag : Nat} {rest : List TxFrame} (hs : s.sends ⟨origin, .txClose p⟩ = true)
        (hq : s.lnk.queue = .txClose tag p.clerk.toNat :: rest) :
        (applyTxClose p (s.ownFrame ⟨origin, .txClose p⟩) (s.heard ⟨origin, .txClose p⟩)).hpt.events.getLast?
          = some (s.record (.requestDone tag .ok none)) := by
      have hlength := hraised.length
      rw [heq, completeOwn_room (tag := tag) (by rw [ownFrame_sender hs hq]; rfl) (by simp at *; omega), hraised.record]
      simp
    refine ⟨_, exec_txCloseAccepted h, fun ho => ⟨?_, hsome _ ?_, ?_, fun tag rest hs hq => ⟨?_, hlast hs hq⟩⟩,
      fun o ho => ⟨?_, fun hmisfit => hsome _ ?_, fun tag rest hs hq => ?_⟩, fun hs => ⟨?_, ?_⟩, fun c hc => ?_, by simp,
      by simp, ?_, by simp, by simp, linkAfter_applyDayFrame ⟨origin, .txClose p⟩ _ s⟩
    · simp [hclt, ho, settleClose_free]
    · simp [State.closeMismatch, ho]
    · simp [heq, ho, settleClose_free]
    · rw [heq, ho, ownFrame_sender hs hq]
      simp [settleClose_free]
    · rw [order_congr hclt, ho]
      exact settleClose_order_same ..
    · simp [State.closeMismatch, ho, Order.differs, hmisfit]
    · obtain ⟨r, hr⟩ := settleClose_places (s := s) (u := raiseAt p.clerk.toNat
          ((s.heard ⟨origin, .txClose p⟩).closeMismatch p) (s.heard ⟨origin, .txClose p⟩))
        (own := s.ownFrame ⟨origin, .txClose p⟩) (by simp [ownFrame_sender hs hq]) (by simp) (by simp) (by simp)
        (by simp) p o
      obtain ⟨hplaces, hreserved, hops⟩ := hr
        (applyTxClose p (s.ownFrame ⟨origin, .txClose p⟩) (s.heard ⟨origin, .txClose p⟩)) (by rw [heq, ho]; simp)
      have hhanded := (isPrefix_completeOwn (List.prefix_refl (settleClose p (s.ownFrame ⟨origin, .txClose p⟩)
        (s.order p.clerk.toNat) (raiseAt p.clerk.toNat ((s.heard ⟨origin, .txClose p⟩).closeMismatch p)
          (s.heard ⟨origin, .txClose p⟩))).tst.ops) (s.ownFrame ⟨origin, .txClose p⟩) .ok none).subset
      rw [← heq, ho, hops] at hhanded
      exact ⟨r, hplaces, hreserved, hhanded (by simp), hhanded (by simp), hlast hs hq⟩
    · rw [heq, ownFrame_receiver hs]
      simp [settleClose_receiver]
    · rw [ownFrame_receiver hs]
      exact State.WritesRecords.trans (.of_same (by rw [heard_tst_receiver hs])) (applyTxClose_writesRecords p _)
    · rw [applyTxClose_order_other hc, heard_order]
    · simp [applyTxClose_tkt]
  · subst hclerk
    have heq := applyTxCancel_free (p := p) (s := s.heard ⟨origin, .txCancel p⟩) (by simpa using ho)
      (s.ownFrame ⟨origin, .txCancel p⟩)
    have hraised := (State.Reports.of_same (s := s.heard ⟨origin, .txCancel p⟩) rfl rfl).thenMismatch (by simp; omega)
      .orderUnknown (some p.clerk.toNat) none
    have hreports := (hraised.thenComplete (by simp; omega) (s.ownFrame ⟨origin, .txCancel p⟩) .ok none).fromSame
      (s := s) (by simp) (by simp)
    rw [← heq] at hreports
    refine ⟨_, exec_txCancelAccepted h, ?_, hreports.mismatches (by simp), fun op hop => ?_,
      fun f tag rest hs hq htag => ?_, by simp, by simp, ?_, ?_, by simp, by simp,
      linkAfter_applyDayFrame ⟨origin, .txCancel p⟩ _ s⟩
    · simp [heq]
    · have hwrites : (s.heard ⟨origin, .txCancel p⟩).WritesRecords
          (applyTxCancel p (s.ownFrame ⟨origin, .txCancel p⟩) (s.heard ⟨origin, .txCancel p⟩)) := by
        rw [heq]
        exact (raiseMismatch_writesRecords _ _ _ _).trans (completeOwn_writesRecords _ _ _ _)
      rcases hwrites op hop with hheard | hwrite
      · cases hs : s.sends ⟨origin, .txCancel p⟩ with
        | false => exact .inl (by rwa [heard_tst_receiver hs] at hheard)
        | true =>
          obtain ⟨reads, htst, hreads, -⟩ := heard_tst_sender hs
          rw [htst] at hheard
          rcases List.mem_append.mp hheard with hheld | hread
          · exact .inl hheld
          · exact .inr (.inr (by simpa [DaysumReads] using hreads op hread))
      · exact .inr (.inl hwrite)
    · have hlength := hraised.length
      rw [heq, completeOwn_room (tag := tag) (by simp [ownFrame_sender hs hq, htag]) (by simp at *; omega),
        hraised.record]
      simp
    · simp [heq]
    · simp [heq]

end Sys2Proof.Machine
end

section
/-! SUPPORT and the proof about the station frames: a DAYSUM applied, a DAYSUM or a census made due, and the backlog that fills
the free station places (R50, R65, R172 to R174). -/

namespace Sys2Proof.Machine

/-! ### The backlog fills the free places (R50) -/

/-- With no station place free nothing moves. -/
theorem fillStationPlaces_full {s : State} (h : 4 ≤ s.lnk.stationFrames) (n : Nat) : fillStationPlaces n s = s := by
  cases n with
  | zero => rfl
  | succ n => simp [fillStationPlaces, Nat.not_lt.mpr h]

/-- With an empty backlog nothing moves. -/
theorem fillStationPlaces_empty {s : State} (h : s.lnk.backlog = Backlog.none) (n : Nat) :
    fillStationPlaces n s = s := by
  cases n with
  | zero => rfl
  | succ n => simp [fillStationPlaces, h, Backlog.size, Backlog.none]

theorem fillStationPlaces_succ {s : State} (hfree : s.lnk.stationFrames < 4) (hsize : 0 < s.lnk.backlog.size) (n : Nat) :
    fillStationPlaces (n + 1) s = fillStationPlaces n (moveBacklogItem s) := by
  simp [fillStationPlaces, hfree, hsize]

@[simp] theorem enqueue_stationFrames_station {f : TxFrame} (h : f.isRequest = false) (s : State) :
    (enqueue f s).lnk.stationFrames = s.lnk.stationFrames + 1 := by
  simp [enqueue, Link.stationFrames, h]

/-! ### A DAYSUM made due (R50, R172) -/

/-- The frame is a DAYSUM of the day. -/
def TxFrame.isDaysum (day : Nat) (f : TxFrame) : Bool :=
  match f with
  | .daysum d _ _ => decide (d = day)
  | _ => false

theorem any_isDaysum_iff {queue : List TxFrame} {day : Nat} :
    queue.any (TxFrame.isDaysum day) = true ↔ ∃ n figures, .daysum day n figures ∈ queue := by
  simp only [List.any_eq_true]
  constructor
  · rintro ⟨f, hf, hd⟩
    cases f with
    | daysum d n figures =>
      obtain rfl : d = day := by simpa [TxFrame.isDaysum] using hd
      exact ⟨n, figures, hf⟩
    | _ => exact nomatch hd
  · rintro ⟨n, figures, hf⟩
    exact ⟨_, hf, by simp [TxFrame.isDaysum]⟩

theorem makeDaysumDue_eq (day : Nat) (s : State) : makeDaysumDue day s =
    if s.lnk.state = .silent ∨ s.lnk.state = .off then s
    else if s.lnk.queue.any (TxFrame.isDaysum day) || s.lnk.backlog.days.any (fun d => decide (d = day)) then s
    else moveBacklog { s with lnk.backlog.days :=
      (if 8 ≤ s.lnk.backlog.days.length then s.lnk.backlog.days.drop 1 else s.lnk.backlog.days) ++ [day] } := rfl

/-- No second DAYSUM of a day is made due, and none while the link is SILENT (R50, R172). -/
theorem makeDaysumDue_quiet {s : State} {day : Nat}
    (h : s.lnk.state = .silent ∨ (∃ n figures, .daysum day n figures ∈ s.lnk.queue) ∨ day ∈ s.lnk.backlog.days) :
    makeDaysumDue day s = s := by
  rw [makeDaysumDue_eq]
  split
  · rfl
  · next hlink =>
    rw [if_pos]
    rw [Bool.or_eq_true, any_isDaysum_iff]
    rcases h with hsilent | hqueued | hlisted
    · exact absurd (.inl hsilent) hlink
    · exact .inl hqueued
    · exact .inr (by simpa using hlisted)

/-- A DAYSUM made due joins the backlog, which fills the free places (R50). -/
theorem makeDaysumDue_due {s : State} {day : Nat} (hlink : s.lnk.state = .live ∨ s.lnk.state = .joining)
    (hqueue : ∀ n figures, .daysum day n figures ∉ s.lnk.queue) (hdays : day ∉ s.lnk.backlog.days) :
    makeDaysumDue day s = moveBacklog { s with lnk.backlog.days :=
      (if 8 ≤ s.lnk.backlog.days.length then s.lnk.backlog.days.drop 1 else s.lnk.backlog.days) ++ [day] } := by
  have hstate : ¬(s.lnk.state = .silent ∨ s.lnk.state = .off) := by
    rcases hlink with h | h <;> simp [h]
  rw [makeDaysumDue_eq, if_neg hstate, if_neg]
  rw [Bool.or_eq_true, any_isDaysum_iff]
  simpa [hqueue] using hdays

/-- The first day of a backlog that holds days alone takes a free place (R50, R172). -/
theorem moveBacklogItem_day {s : State} {day slot : Nat} {later : List Nat}
    (hb : s.lnk.backlog = { replyDue := false, clerks := [], days := day :: later })
    (hslot : s.recordSlot day = some slot) :
    moveBacklogItem s = { s with
      lnk := { s.lnk with
        queue := s.lnk.queue ++ [.daysum day s.nextDaysumRead none]
        backlog := { replyDue := false, clerks := [], days := later } }
      tst.ops := s.tst.ops ++ [.read (figureAddresses slot) (.daysum s.nextDaysumRead)] } := by
  have hplaced := placeDaysum_held (s := { s with lnk.backlog := { replyDue := false, clerks := [], days := later } })
    (by exact hslot)
  simpa [moveBacklogItem, hb] using! hplaced

/-- A DAYSUM made due for a held day takes a free place of an empty backlog, with its read (R50, R172). -/
theorem makeDaysumDue_placed {s : State} {day slot : Nat} (hlink : s.lnk.state = .live ∨ s.lnk.state = .joining)
    (hqueue : ∀ n figures, .daysum day n figures ∉ s.lnk.queue) (hb : s.lnk.backlog = Backlog.none)
    (hfree : s.lnk.stationFrames < 4) (hslot : s.recordSlot day = some slot) :
    makeDaysumDue day s = { s with
      lnk.queue := s.lnk.queue ++ [.daysum day s.nextDaysumRead none]
      tst.ops := s.tst.ops ++ [.read (figureAddresses slot) (.daysum s.nextDaysumRead)] } := by
  have hone : makeDaysumDue day s = fillStationPlaces (0 + 1)
      { s with lnk.backlog := { replyDue := false, clerks := [], days := [day] } } := by
    rw [makeDaysumDue_due hlink hqueue (by simp [hb, Backlog.none])]
    simp [hb, Backlog.none, moveBacklog, Backlog.size]
  rw [hone, fillStationPlaces_succ (by exact hfree) (by simp [Backlog.size]), fillStationPlaces,
    moveBacklogItem_day rfl (by exact hslot)]
  rw [Backlog.none] at hb
  simp [← hb, State.nextDaysumRead]

/-- A DAYSUM made due with no place free waits in the backlog (R50). -/
theorem makeDaysumDue_waits {s : State} {day : Nat} (hlink : s.lnk.state = .live ∨ s.lnk.state = .joining)
    (hqueue : ∀ n figures, .daysum day n figures ∉ s.lnk.queue) (hdays : day ∉ s.lnk.backlog.days)
    (hfull : 4 ≤ s.lnk.stationFrames) :
    makeDaysumDue day s = { s with lnk.backlog.days :=
      (if 8 ≤ s.lnk.backlog.days.length then s.lnk.backlog.days.drop 1 else s.lnk.backlog.days) ++ [day] } := by
  rw [makeDaysumDue_due hlink hqueue hdays, moveBacklog, fillStationPlaces_full (by exact hfull)]

/-! ### A census made due (R50, R65) -/

/-- The frame is a CENSUS_TX of the clerk. -/
def TxFrame.isCensusTx (clerk : Nat) (f : TxFrame) : Bool :=
  match f with
  | .censusTx k => decide (k = clerk)
  | _ => false

/-- The frame is a CENSUS_REPLY. -/
def TxFrame.isCensusReply (f : TxFrame) : Bool :=
  match f with
  | .censusReply => true
  | _ => false

theorem any_isCensusTx (queue : List TxFrame) (clerk : Nat) :
    queue.any (TxFrame.isCensusTx clerk) = decide (.censusTx clerk ∈ queue) := by
  rw [Bool.eq_iff_iff, decide_eq_true_eq]
  simp only [List.any_eq_true]
  constructor
  · rintro ⟨f, hf, hc⟩
    cases f with
    | censusTx k =>
      obtain rfl : k = clerk := by simpa [TxFrame.isCensusTx] using hc
      exact hf
    | _ => exact nomatch hc
  · exact fun hf => ⟨_, hf, by simp [TxFrame.isCensusTx]⟩

theorem any_isCensusReply (queue : List TxFrame) :
    queue.any TxFrame.isCensusReply = decide (.censusReply ∈ queue) := by
  rw [Bool.eq_iff_iff, decide_eq_true_eq]
  simp only [List.any_eq_true]
  constructor
  · rintro ⟨f, hf, hc⟩
    cases f with
    | censusReply => exact hf
    | _ => exact nomatch hc
  · exact fun hf => ⟨_, hf, rfl⟩

/-- The clerks whose orders a census answer reports: those that have no CENSUS_TX queued (R65). -/
def State.censusClerks (s : State) : List Nat :=
  (s.clt.orders.map Prod.fst).filter fun c => decide (.censusTx c ∉ s.lnk.queue)

theorem makeCensusDue_eq (s : State) : makeCensusDue s = moveBacklog { s with
    lnk.backlog := { s.lnk.backlog with
      replyDue := s.lnk.backlog.replyDue || decide (.censusReply ∉ s.lnk.queue)
      clerks := s.censusClerks.foldl insertSorted s.lnk.backlog.clerks } } := by
  have hclerks : s.censusClerks
      = (s.clt.orders.map Prod.fst).filter fun c => !s.lnk.queue.any (TxFrame.isCensusTx c) := by
    simp only [State.censusClerks, any_isCensusTx, decide_not]
  have hreply : decide (.censusReply ∉ s.lnk.queue) = !s.lnk.queue.any TxFrame.isCensusReply := by
    rw [any_isCensusReply, decide_not]
  rw [hclerks, hreply]
  rfl

/-- A number above those of a sorted set joins its end. -/
theorem insertSorted_above {l : List Nat} {n : Nat} (h : ∀ m ∈ l, m < n) : insertSorted l n = l ++ [n] := by
  induction l with
  | nil => rfl
  | cons m l ih =>
    have hm := h m (List.mem_cons_self ..)
    rw [insertSorted, if_neg (by omega), if_neg (by omega), ih fun k hk => h k (List.mem_cons_of_mem _ hk)]
    rfl

/-- Rising numbers inserted one after another. -/
theorem foldl_insertSorted {l acc : List Nat} (h : (acc ++ l).Pairwise (· < ·)) : l.foldl insertSorted acc = acc ++ l := by
  induction l generalizing acc with
  | nil => simp
  | cons n l ih =>
    have hn : ∀ m ∈ acc, m < n := fun m hm => (List.pairwise_append.mp h).2.2 m hm n (List.mem_cons_self ..)
    rw [List.foldl_cons, insertSorted_above hn, ih (by simpa using h)]
    simp

theorem Table.keys_pairwise {α : Type} {t : Table α} (h : Table.sorted t = true) :
    (t.map Prod.fst).Pairwise (· < ·) := by
  induction t with
  | nil => simp
  | cons e t ih =>
    refine List.pairwise_cons.mpr ⟨fun k hk => ?_, ih (Table.sorted_tail h)⟩
    obtain ⟨e', he', rfl⟩ := List.mem_map.mp hk
    exact Table.sorted_head_lt h e' he'

/-- The lowest clerk of the backlog takes a free place (R50). -/
theorem moveBacklogItem_clerk {s : State} {c : Nat} {later days : List Nat}
    (hb : s.lnk.backlog = { replyDue := false, clerks := c :: later, days := days }) (ho : (s.order c).isSome = true) :
    moveBacklogItem s = enqueue (.censusTx c)
      { s with lnk.backlog := { replyDue := false, clerks := later, days := days } } := by
  simp [moveBacklogItem, hb, ho]

/-- The clerks of a backlog take the free places, the lowest first, and the others wait (R50). -/
theorem fillStationPlaces_clerks {clerks : List Nat} {n : Nat} (hn : clerks.length ≤ n) {s : State}
    (hopen : ∀ c ∈ clerks, (s.order c).isSome = true)
    (hb : s.lnk.backlog = { replyDue := false, clerks := clerks, days := [] }) :
    fillStationPlaces n s = { s with
      lnk := { s.lnk with
        queue := s.lnk.queue ++ (clerks.map TxFrame.censusTx).take (4 - s.lnk.stationFrames)
        backlog := { replyDue := false, clerks := clerks.drop (4 - s.lnk.stationFrames), days := [] } } } := by
  induction clerks generalizing n s with
  | nil =>
    rw [fillStationPlaces_empty hb]
    simp [← hb]
  | cons c later ih =>
    by_cases hfull : 4 ≤ s.lnk.stationFrames
    · rw [fillStationPlaces_full hfull, Nat.sub_eq_zero_of_le hfull]
      simp [← hb]
    · obtain ⟨m, rfl⟩ : ∃ m, n = m + 1 := ⟨n - 1, by rw [List.length_cons] at hn; omega⟩
      have hmoved := moveBacklogItem_clerk hb (hopen c (List.mem_cons_self ..))
      have hopen' : ∀ k ∈ later, ((moveBacklogItem s).order k).isSome = true := by
        rw [hmoved]
        exact fun k hk => hopen k (List.mem_cons_of_mem _ hk)
      have hlater := ih (n := m) (by simpa using hn) hopen' (by rw [hmoved]; rfl)
      have hplaces : 4 - s.lnk.stationFrames = 4 - (moveBacklogItem s).lnk.stationFrames + 1 := by
        have hone : (moveBacklogItem s).lnk.stationFrames = s.lnk.stationFrames + 1 := by
          rw [hmoved, enqueue_stationFrames_station rfl]
          rfl
        omega
      rw [fillStationPlaces_succ (by omega) (by simp [hb, Backlog.size]), hlater, hplaces, hmoved]
      simp [enqueue]

/-- A census answer at an empty backlog: the CENSUS_REPLY, unless one is queued, and then the clerks, take the free places
(R50, R65). -/
theorem makeCensusDue_placed {s : State} (hsorted : Table.sorted s.clt.orders = true)
    (hb : s.lnk.backlog = Backlog.none) {reply : List TxFrame} {places : Nat}
    (hreply : reply = if .censusReply ∈ s.lnk.queue then [] else [.censusReply])
    (hplaces : places = 4 - s.lnk.stationFrames) :
    makeCensusDue s = { s with
      lnk := { s.lnk with
        queue := s.lnk.queue ++ (reply ++ s.censusClerks.map TxFrame.censusTx).take places
        backlog := { replyDue := decide (places = 0 ∧ reply ≠ [])
                     clerks := s.censusClerks.drop (places - reply.length), days := [] } } } := by
  have hrising : s.censusClerks.Pairwise (· < ·) := (Table.keys_pairwise hsorted).filter _
  have hopen : ∀ c ∈ s.censusClerks, (s.order c).isSome = true := by
    intro c hc
    obtain ⟨e, he, rfl⟩ := List.mem_map.mp (List.mem_of_mem_filter hc)
    rw [State.order, Table.get_of_mem hsorted he]
    rfl
  have hdue : makeCensusDue s = moveBacklog { s with
      lnk.backlog := { replyDue := decide (.censusReply ∉ s.lnk.queue), clerks := s.censusClerks, days := [] } } := by
    rw [makeCensusDue_eq, hb, Backlog.none, foldl_insertSorted (by simpa using hrising)]
    simp
  rw [hdue, moveBacklog]
  by_cases hqueued : .censusReply ∈ s.lnk.queue
  · rw [if_pos hqueued] at hreply
    rw [fillStationPlaces_clerks (clerks := s.censusClerks) (by simp [Backlog.size]) (by exact hopen) (by simp [hqueued])]
    simp [hreply, hplaces, Link.stationFrames]
  · rw [if_neg hqueued] at hreply
    by_cases hfull : 4 ≤ s.lnk.stationFrames
    · rw [fillStationPlaces_full (by exact hfull), hplaces, Nat.sub_eq_zero_of_le hfull]
      simp [hqueued, hreply]
    · have hfirst : moveBacklogItem { s with
          lnk.backlog := { replyDue := true, clerks := s.censusClerks, days := [] } }
          = enqueue .censusReply { s with
            lnk.backlog := { replyDue := false, clerks := s.censusClerks, days := [] } } := rfl
      have hone : (enqueue .censusReply { s with
          lnk.backlog := { replyDue := false, clerks := s.censusClerks, days := [] } }).lnk.stationFrames
          = s.lnk.stationFrames + 1 := enqueue_stationFrames_station rfl _
      have hleft : places = 4 - (s.lnk.stationFrames + 1) + 1 := by omega
      have hsize : Backlog.size { replyDue := true, clerks := s.censusClerks, days := [] }
          = s.censusClerks.length + 1 := by simp [Backlog.size, Nat.add_comm]
      simp only [hqueued, not_false_eq_true, decide_true, hsize]
      rw [fillStationPlaces_succ (by simp only [Link.stationFrames] at *; omega) (by simp [Backlog.size]), hfirst,
        fillStationPlaces_clerks (clerks := s.censusClerks) (Nat.le_refl _) (by exact hopen) rfl, hone, hleft, hreply]
      simp [enqueue]

/-! ### The first backlog item (R50) -/

/-- A clerk whose order is FREE leaves the backlog without a frame (R50). -/
theorem moveBacklogItem_free {s : State} {c : Nat} {later days : List Nat}
    (hb : s.lnk.backlog = { replyDue := false, clerks := c :: later, days := days }) (ho : s.order c = none) :
    moveBacklogItem s = { s with lnk.backlog := { replyDue := false, clerks := later, days := days } } := by
  simp [moveBacklogItem, hb, ho]

/-- The one free station place takes the first item of the backlog (R50). -/
theorem fillStationPlaces_movesFirst {n : Nat} {s : State} (hone : s.lnk.stationFrames = 3)
    (hn : s.lnk.backlog.size = n) : s.MovesFirst (fillStationPlaces n s) s.lnk.queue := by
  induction n generalizing s with
  | zero =>
    rcases hb : s.lnk.backlog with ⟨replyDue, clerks, days⟩
    obtain ⟨rfl, rfl, rfl⟩ : replyDue = false ∧ clerks = [] ∧ days = [] := by
      cases replyDue <;> simp [hb, Backlog.size] at hn ⊢
      exact hn
    simp [State.MovesFirst, fillStationPlaces, hb, Backlog.none]
  | succ n ih =>
    have hstop {f : TxFrame} {b : Backlog} (hf : f.isRequest = false) :
        fillStationPlaces n (enqueue f { s with lnk.backlog := b }) = enqueue f { s with lnk.backlog := b } := by
      refine fillStationPlaces_full (le_of_eq ?_) n
      rw [enqueue_stationFrames_station hf]
      exact congrArg (· + 1) hone.symm
    rw [fillStationPlaces_succ (by omega) (by omega)]
    rcases hb : s.lnk.backlog with ⟨replyDue, clerks, days⟩
    cases replyDue with
    | true =>
      have hmoved : moveBacklogItem s
          = enqueue .censusReply { s with lnk.backlog := { replyDue := false, clerks := clerks, days := days } } := by
        simp [moveBacklogItem, hb]
      rw [hmoved, hstop rfl]
      simp [State.MovesFirst, hb, enqueue]
    | false =>
      cases clerks with
      | cons c later =>
        cases ho : s.order c with
        | some o =>
          rw [moveBacklogItem_clerk hb (by simp [ho]), hstop rfl]
          simp [State.MovesFirst, hb, enqueue, ho]
        | none =>
          have hlater := ih (s := moveBacklogItem s) (by rw [moveBacklogItem_free hb ho]; exact hone) (by
            rw [moveBacklogItem_free hb ho]
            simp [hb, Backlog.size] at hn ⊢
            omega)
          rw [moveBacklogItem_free hb ho] at hlater ⊢
          simpa [State.MovesFirst, hb, ho] using! hlater
      | nil =>
        cases days with
        | cons d later =>
          cases hslot : s.recordSlot d with
          | some slot =>
            have hfull : 4 ≤ (moveBacklogItem s).lnk.stationFrames := by
              rw [moveBacklogItem_day hb hslot]
              have hplaced := enqueue_stationFrames_station (f := .daysum d s.nextDaysumRead none) rfl s
              exact le_of_eq (hplaced.trans (congrArg (· + 1) hone)).symm
            rw [fillStationPlaces_full hfull, moveBacklogItem_day hb hslot]
            simp [State.MovesFirst, hb, hslot, nextDaysumRead_fresh]
          | none =>
            have hmoved : moveBacklogItem s = enqueue (.daysum d 0 none) { s with
                lnk.backlog := { replyDue := false, clerks := [], days := later } } := by
              have hslot' : State.recordSlot { s with
                lnk.backlog := { replyDue := false, clerks := [], days := later } } d = none := hslot
              simp [moveBacklogItem, hb, placeDaysum, hslot']
            rw [hmoved, hstop rfl]
            simp [State.MovesFirst, hb, enqueue, hslot]
        | nil => simp [hb, Backlog.size] at hn

theorem heard_movesFirst {f : Frame} {s : State} {head : TxFrame} {rest : List TxFrame} (hs : s.sends f = true)
    (hq : s.lnk.queue = head :: rest) (hone : (rest.filter fun x => !x.isRequest).length = 3) :
    s.MovesFirst (s.heard f) rest := by
  have hdropped : (restartBeacon { stopSending (dropHead s) with lnk.clash := 0 }).lnk.queue = rest := by
    simp [dropHead, hq]
  have hfirst := fillStationPlaces_movesFirst (s := restartBeacon { stopSending (dropHead s) with lnk.clash := 0 })
    (by rw [Link.stationFrames, hdropped]; exact hone) rfl
  have hheard : s.heard f = refreshRoster f.origin.toNat (takeOwnFrame s) := by simp [State.heard, hs]
  have hkept : (s.heard f).lnk.queue = (takeOwnFrame s).lnk.queue
      ∧ (s.heard f).lnk.backlog = (takeOwnFrame s).lnk.backlog ∧ (s.heard f).tst = (takeOwnFrame s).tst := by
    rw [hheard, refreshRoster]
    split
    · exact ⟨rfl, rfl, rfl⟩
    · exact ⟨rfl, rfl, rfl⟩
  obtain ⟨hqueue, hbacklog, htst⟩ := hkept
  rw [hdropped] at hfirst
  rw [State.MovesFirst, hqueue, hbacklog, htst]
  exact hfirst

/-! ### The queue behind an accepted frame -/

/-- The queue and the backlog are the same, and what was handed stays in front. -/
def State.KeepsFrames (s t : State) : Prop :=
  t.lnk.queue = s.lnk.queue ∧ t.lnk.backlog = s.lnk.backlog ∧ s.tst.ops <+: t.tst.ops

theorem State.MovesFirst.later {s t u : State} {rest : List TxFrame} (h : s.MovesFirst u rest) (g : u.KeepsFrames t) :
    s.MovesFirst t rest := by
  obtain ⟨hqueue, hbacklog, hops⟩ := g
  obtain ⟨hreply, hclerk, hday, hnone⟩ := h
  rw [State.MovesFirst, hqueue, hbacklog]
  refine ⟨hreply, hclerk, fun hr hc d later hd => ?_, hnone⟩
  obtain ⟨n, hn, hb, hread⟩ := hday hr hc d later hd
  exact ⟨n, hn, hb, fun slot hslot => ⟨(hread slot hslot).1, hops.subset (hread slot hslot).2⟩⟩

theorem hearLaterDay_ops (day : Nat) (s : State) : s.tst.ops <+: (hearLaterDay day s).tst.ops := by
  unfold hearLaterDay
  dsimp only
  split <;> simp

theorem receiveDayFrame_keepsFrames (f : Frame) (own : Option TxFrame) (s : State) :
    s.KeepsFrames (receiveDayFrame f own s) := by
  have hlnk := receiveDayFrame_lnk f own s
  refine ⟨by rw [hlnk], by rw [hlnk], ?_⟩
  unfold receiveDayFrame
  split
  · obtain ⟨-, -, -, -, -, hops⟩ := applyDayFrame_addsTo f own s
    exact hops
  · unfold deferFrame
    split <;> simp
  · exact hearLaterDay_ops ..
  · simp

theorem compareDay_ops (day : Nat) (s : State) : s.tst.ops <+: (compareDay day s).tst.ops := by
  unfold compareDay
  split
  · exact hearLaterDay_ops ..
  · simp

theorem applyFigures_ops (figures : TicketFigures) (s : State) : s.tst.ops <+: (applyFigures figures s).tst.ops := by
  unfold applyFigures
  split
  · unfold modeConflict
    split <;> simp
  · split
    · unfold takeFigures
      dsimp only
      split <;> simp [rebuildWaiting]
    · simp

theorem noteOpenCount_ops (count : Nat) (s : State) : s.tst.ops <+: (noteOpenCount count s).tst.ops := by
  unfold noteOpenCount
  split <;> simp

theorem setRoster_keepsFrames (origin day : Nat) (lockout : Option Bool) (s : State) :
    s.KeepsFrames (setRoster origin day lockout s) := by
  unfold setRoster State.KeepsFrames
  split
  · simp
  · split <;> simp

theorem applyCensusReply_keepsFrames (origin : Nat) (p : CensusReplyPayload) (s : State) :
    s.KeepsFrames (applyCensusReply origin p s) := by
  obtain ⟨hqueue, hbacklog, hops⟩ := setRoster_keepsFrames origin p.day.toNat none s
  refine ⟨by rw [applyCensusReply_lnk, hqueue], by rw [applyCensusReply_lnk, hbacklog], ?_⟩
  exact ((hops.trans (applyFigures_ops ..)).trans (noteOpenCount_ops ..)).trans (compareDay_ops ..)

theorem applyBeacon_keepsFrames (origin : Nat) (p : BeaconPayload) (s : State) :
    s.KeepsFrames (applyBeacon origin p s) := by
  obtain ⟨hqueue, hbacklog, hops⟩ := setRoster_keepsFrames origin p.day.toNat (some p.lockedOut) s
  refine ⟨by rw [applyBeacon_lnk, hqueue], by rw [applyBeacon_lnk, hbacklog], ?_⟩
  exact (hops.trans (applyFigures_ops ..)).trans (compareDay_ops ..)

theorem applyCensusTx_keepsFrames (p : CensusTxPayload) (s : State) : s.KeepsFrames (applyCensusTx p s) := by
  refine ⟨by rw [applyCensusTx_lnk], by rw [applyCensusTx_lnk], ?_⟩
  unfold applyCensusTx
  split
  · unfold openStub
    split <;> simp [unlist]
  · simp

theorem applyDaysum_keepsFrames (origin : Nat) (p : DaysumPayload) (s : State) :
    s.KeepsFrames (applyDaysum origin p s) := by
  refine ⟨by rw [applyDaysum_lnk], by rw [applyDaysum_lnk], ?_⟩
  unfold applyDaysum
  split <;> simp

/-- A frame that brings nothing into its sender's queue leaves it as it was heard: any but a DAYCLOSE and a DAYSUM_ASK. -/
theorem command_keepsFrames {f : Frame} {s : State} {head : TxFrame} {rest : List TxFrame} (hr : s.receives = true)
    (hp : payloadInRange f.payload = true) (hs : s.sends f = true) (hq : s.lnk.queue = head :: rest)
    (hclose : payloadClass f.payload ≠ 0) (hask : payloadClass f.payload ≠ 9) :
    ∃ t, exec f.command s = .next t ∧ (s.heard f).KeepsFrames t := by
  have hday (h : exec f.command s = .next (acceptDayFrame f s)) :
      ∃ t, exec f.command s = .next t ∧ (s.heard f).KeepsFrames t := by
    refine ⟨_, h, ?_⟩
    rw [acceptDayFrame, acceptFrame_heard hr hp]
    exact receiveDayFrame_keepsFrames ..
  have hother {apply : Option TxFrame → State → State} (h : exec f.command s = .next (acceptFrame f apply s))
      (ha : ∀ u : State, u.KeepsFrames (apply (some head) u)) :
      ∃ t, exec f.command s = .next t ∧ (s.heard f).KeepsFrames t := by
    refine ⟨_, h, ?_⟩
    rw [acceptFrame_heard hr hp, ownFrame_sender hs hq]
    exact ha _
  obtain ⟨origin, payload⟩ := f
  cases payload with
  | dayClose p => exact absurd rfl hclose
  | call | issue | pass | txClose | txCancel | voidLine | item => exact hday rfl
  | daysum p => exact hother rfl fun u => applyDaysum_keepsFrames origin.toNat p u
  | daysumAsk d => exact absurd rfl hask
  | censusAsk => exact hother rfl fun u => by simp [applyCensusAsk, State.KeepsFrames]
  | censusReply p => exact hother rfl fun u => applyCensusReply_keepsFrames origin.toNat p u
  | censusTx p => exact hother rfl fun u => applyCensusTx_keepsFrames p u
  | beacon p => exact hother rfl fun u => applyBeacon_keepsFrames origin.toNat p u

@[simp] theorem heard_recordSlot (f : Frame) (s : State) : (s.heard f).recordSlot = s.recordSlot := by
  funext day
  simp [State.recordSlot, State.slotsNewestFirst]

theorem exec_daysumAccepted {origin : BitVec 4} {p : DaysumPayload} {s : State} (hr : s.receives = true)
    (hp : payloadInRange (.daysum p) = true) :
    exec (.daysumAccepted origin p) s = .next (applyDaysum origin.toNat p (s.heard ⟨origin, .daysum p⟩)) :=
  congrArg _ (acceptFrame_heard (f := ⟨origin, .daysum p⟩) hr hp _)

theorem exec_daysumAskAccepted {origin : BitVec 4} {d : BitVec 16} {s : State} (hr : s.receives = true)
    (hd : d.toNat ≠ 0) :
    exec (.daysumAskAccepted origin d) s
      = .next (applyDaysumAsk d (s.ownFrame ⟨origin, .daysumAsk d⟩) (s.heard ⟨origin, .daysumAsk d⟩)) :=
  congrArg _ (acceptFrame_heard (f := ⟨origin, .daysumAsk d⟩) hr (by
    have hlt := d.isLt
    simp [payloadInRange, within]
    omega) _)

theorem exec_censusAskAccepted {origin : BitVec 4} {s : State} (hr : s.receives = true) :
    exec (.censusAskAccepted origin) s
      = .next (applyCensusAsk (s.ownFrame ⟨origin, .censusAsk⟩) (s.heard ⟨origin, .censusAsk⟩)) :=
  congrArg _ (acceptFrame_heard (f := ⟨origin, .censusAsk⟩) hr rfl _)

theorem applyDaysum_held {p : DaysumPayload} {s : State} {slot : Nat} (h : s.recordSlot p.day.toNat = some slot)
    (origin : Nat) : applyDaysum origin p s = hand (.counterUpdate slot p.day.toNat origin
      { itemAmount := p.itemAmount.toNat, itemCount := p.itemCount.toNat, customers := p.customers.toNat,
        voidAmount := p.voidAmount.toNat }) s := by
  simp [applyDaysum, h]

theorem applyDaysum_unheld {p : DaysumPayload} {s : State} (h : s.recordSlot p.day.toNat = none) (origin : Nat) :
    applyDaysum origin p s = s := by
  simp [applyDaysum, h]

/-- A receiver that has heard a frame, written out. -/
theorem heard_receiver_eq {s : State} {f : Frame} (h : s.sends f = false) :
    ∃ roster, s.heard f = { s with
      lnk := { s.lnk with attempt := none, formWaiting := false, drive := .recessive, roster := roster } } :=
  ⟨_, heard_receiver h⟩

/-- The sender of a frame whose backlog is empty, written out: its head is gone and nothing has moved up (R50, R56). -/
theorem heard_sender_eq {s : State} {f : Frame} {head : TxFrame} {rest : List TxFrame} (h : s.sends f = true)
    (hq : s.lnk.queue = head :: rest) (hb : s.lnk.backlog = Backlog.none) :
    ∃ roster, s.heard f = { s with
      lnk := { s.lnk with
        queue := rest, attempt := none, attemptCount := 0, formWaiting := false, clash := 0,
        beaconTimer := if s.lnk.state = .live then some (5 * unitsPerSecond) else s.lnk.beaconTimer,
        drive := .recessive, roster := roster } } := by
  obtain ⟨moved, reads, backlog, hu, -, -, hdays, hnone⟩ := heard_sender h
  obtain ⟨rfl, rfl⟩ := hnone hb
  obtain rfl := hdays (by simp [hb, Backlog.none])
  refine ⟨(s.heard f).lnk.roster, hu.trans ?_⟩
  simp [State.linkSent, hq, ← hb]

theorem applyDaysumAsk_held {d : BitVec 16} {s : State} {slot : Nat} (h : s.recordSlot d.toNat = some slot)
    (own : Option TxFrame) : applyDaysumAsk d own s = completeOwn own .ok none (makeDaysumDue d.toNat s) := by
  simp [applyDaysumAsk, h]

theorem applyDaysumAsk_unheld {d : BitVec 16} {s : State} (h : s.recordSlot d.toNat = none) (own : Option TxFrame) :
    applyDaysumAsk d own s = completeOwn own .ok none s := by
  simp [applyDaysumAsk, h]

/-- A DAYSUM_ASK at a receiver makes the DAYSUM of a held day due (R174). -/
theorem applyDaysumAsk_receiver {d : BitVec 16} {s : State} (h : (s.recordSlot d.toNat).isSome = true) :
    applyDaysumAsk d none s = makeDaysumDue d.toNat s := by
  simp [applyDaysumAsk, h, completeOwn]

theorem applyDaysumAsk_keeps (d : BitVec 16) (own : Option TxFrame) (s : State) :
    (applyDaysumAsk d own s).wch = s.wch ∧ (applyDaysumAsk d own s).cap = s.cap
      ∧ (applyDaysumAsk d own s).lbl = s.lbl ∧ (applyDaysumAsk d own s).tkt = s.tkt
      ∧ (applyDaysumAsk d own s).clt = s.clt ∧ (applyDaysumAsk d own s).day = s.day
      ∧ (applyDaysumAsk d own s).tst.mem = s.tst.mem := by
  unfold applyDaysumAsk
  split <;> simp

/-- With no day in the backlog no read moves up (R50, R172). -/
theorem heard_days {s : State} (h : s.lnk.backlog.days = []) (f : Frame) :
    (s.heard f).lnk.backlog.days = [] ∧ (s.heard f).tst = s.tst := by
  have hrefresh (u : State) (g : u.lnk.backlog.days = [] ∧ u.tst = s.tst) :
      (refreshRoster f.origin.toNat u).lnk.backlog.days = [] ∧ (refreshRoster f.origin.toNat u).tst = s.tst := by
    unfold refreshRoster
    split
    · exact g
    · exact g
  refine hrefresh _ ?_
  split
  · obtain ⟨moved, reads, backlog, hup, -, -, hdays⟩ :=
      moveBacklog_movesUp (restartBeacon { stopSending (dropHead s) with lnk.clash := 0 })
    obtain ⟨rfl, hleft⟩ := hdays h
    rw [takeOwnFrame, hup]
    exact ⟨hleft, by simp [dropHead]⟩
  · exact ⟨h, rfl⟩

/-- A census answer hands no read where no day waits (R50). -/
theorem makeCensusDue_tst {s : State} (h : s.lnk.backlog.days = []) : (makeCensusDue s).tst = s.tst := by
  obtain ⟨moved, reads, backlog, hup, -, -, hdays⟩ := moveBacklog_movesUp { s with
    lnk.backlog := { s.lnk.backlog with
      replyDue := s.lnk.backlog.replyDue || decide (.censusReply ∉ s.lnk.queue)
      clerks := s.censusClerks.foldl insertSorted s.lnk.backlog.clerks } }
  obtain ⟨rfl, -⟩ := hdays h
  rw [makeCensusDue_eq, hup]
  simp

theorem applyCensusAsk_quiet {own : Option TxFrame} {s : State}
    (h : own.isSome = true ∨ s.hpt.runState ≠ .running ∨ s.lnk.state ≠ .live) : applyCensusAsk own s = s := by
  rw [applyCensusAsk, if_neg]
  rintro ⟨hown, hrun, hlive⟩
  rcases h with h | h | h
  · simp [Option.isNone_iff_eq_none.mp hown] at h
  · exact h hrun
  · exact h hlive

theorem applyCensusAsk_answers {s : State} (hrun : s.hpt.runState = .running) (hlive : s.lnk.state = .live) :
    applyCensusAsk none s = makeCensusDue s := by
  simp [applyCensusAsk, hrun, hlive]

/-- Settles O52: each frame is applied to the station that has heard it, and the backlog fills the free places. -/
theorem daysumsAndAsksAreHandled : Obligations.DaysumsAndAsksAreHandled := by
  refine ⟨fun origin p s hr hp => ?_, fun origin d s hr hd hs => ?_, fun origin d s tag day rest hr hd hs hq => ?_,
    fun origin s hr => ?_, fun f s head rest hr hp hs hclose hask hq hone => ?_⟩
  · refine ⟨_, exec_daysumAccepted hr hp, fun hslot hs => ?_, fun slot hslot => ?_, ?_⟩
    · rw [applyDaysum_unheld (by simpa using hslot), heard_tst_receiver hs]
    · rw [applyDaysum_held (by simpa using hslot)]
      simp [hand]
    · have hlnk : s.LinkAfter (applyDaysum origin.toNat p (s.heard ⟨origin, .daysum p⟩)) ⟨origin, .daysum p⟩ :=
        linkAfter_of_heard (by rw [applyDaysum_lnk])
      cases hslot : s.recordSlot p.day.toNat with
      | none =>
        rw [applyDaysum_unheld (by simpa using hslot)] at hlnk ⊢
        simp [hlnk]
      | some slot =>
        rw [applyDaysum_held (slot := slot) (by simpa using hslot)] at hlnk ⊢
        simp [hlnk]
  · obtain ⟨roster, hu⟩ := heard_receiver_eq hs
    refine ⟨_, exec_daysumAskAccepted hr hd, ?_⟩
    rw [ownFrame_receiver hs]
    refine ⟨fun hquiet => ?_, fun slot hslot hlink hnone => ⟨fun hb hfree => ?_, fun hdays hfull => ?_⟩, ?_⟩
    · have hsame : applyDaysumAsk d none (s.heard ⟨origin, .daysumAsk d⟩) = s.heard ⟨origin, .daysumAsk d⟩ := by
        cases hslot : s.recordSlot d.toNat with
        | none => exact applyDaysumAsk_unheld (by simpa using hslot) none
        | some slot =>
          rw [applyDaysumAsk_receiver (by simp [hslot]), makeDaysumDue_quiet]
          rw [hu]
          simpa [hslot] using hquiet
      rw [hsame, hu]
      exact ⟨rfl, rfl⟩
    · rw [applyDaysumAsk_receiver (by simp [hslot]), hu,
        makeDaysumDue_placed (by exact hlink) (by exact hnone) (by exact hb) (by exact hfree) (by exact hslot)]
      exact ⟨_, nextDaysumRead_fresh s, rfl, rfl⟩
    · rw [applyDaysumAsk_receiver (by simp [hslot]), hu,
        makeDaysumDue_waits (by exact hlink) (by exact hnone) (by exact hdays) (by exact hfull)]
      exact ⟨rfl, rfl⟩
    · have hkept := applyDaysumAsk_keeps d none (s.heard ⟨origin, .daysumAsk d⟩)
      have hrest : (applyDaysumAsk d none (s.heard ⟨origin, .daysumAsk d⟩)).hpt = s.hpt
          ∧ (applyDaysumAsk d none (s.heard ⟨origin, .daysumAsk d⟩)).hlm = s.hlm := by
        unfold applyDaysumAsk
        split <;> simp [completeOwn]
      simpa [hrest] using hkept
  · have hkept := applyDaysumAsk_keeps d (some (.daysumAsk tag day)) (s.heard ⟨origin, .daysumAsk d⟩)
    refine ⟨_, exec_daysumAskAccepted hr hd, ?_⟩
    rw [ownFrame_sender hs hq]
    refine ⟨fun hroom => ?_, fun hslot => ?_, fun slot hslot hlink hnone hb hfree hroom => ?_, by simpa using hkept⟩
    · rw [applyDaysumAsk, completeOwn_room (tag := tag) rfl (by split <;> simpa using hroom)]
      split <;> simp [State.record]
    · have hlnk := heard_linkAfter s ⟨origin, .daysumAsk d⟩
      have hkept : (completeOwn (some (.daysumAsk tag day)) .ok none (s.heard ⟨origin, .daysumAsk d⟩)).lnk
          = (s.heard ⟨origin, .daysumAsk d⟩).lnk := by simp
      rw [applyDaysumAsk_unheld (by simpa using hslot)]
      exact (hlnk.of_lnk (by rw [hkept])).2 _ _ hs hq
    · obtain ⟨roster, hu⟩ := heard_sender_eq hs hq hb
      have hfree' : Link.stationFrames { s.lnk with queue := rest } < 4 := by
        have hrequest : (TxFrame.daysumAsk tag day).isRequest = true := rfl
        simpa [Link.stationFrames, hq, hrequest] using hfree
      rw [applyDaysumAsk_held (slot := slot) (by simpa using hslot), hu,
        makeDaysumDue_placed (by exact hlink) (by exact hnone) (by exact hb) (by exact hfree') (by exact hslot),
        completeOwn_room (tag := tag) rfl (by exact hroom)]
      exact ⟨_, nextDaysumRead_fresh s, rfl, rfl⟩
  · refine ⟨_, exec_censusAskAccepted hr, fun reply clerks places hs hrun hlive hsorted hb hreply hclerks hplaces => ?_,
      fun hquiet => ?_, fun head rest hs hq => ?_, fun hdays => ?_, ?_⟩
    · obtain ⟨roster, hu⟩ := heard_receiver_eq hs
      subst hclerks
      rw [ownFrame_receiver hs, applyCensusAsk_answers (by simpa using hrun) (by simpa using hlive), hu,
        makeCensusDue_placed (by exact hsorted) (by exact hb) (reply := reply) (by exact hreply) (places := places)
          (by exact hplaces)]
      rfl
    · rw [applyCensusAsk_quiet (.inr (by simpa using hquiet))]
      exact heard_linkAfter ..
    · rw [ownFrame_sender hs hq, applyCensusAsk_quiet (.inl rfl)]
      exact (heard_linkAfter s ⟨origin, .censusAsk⟩).2 _ _ hs hq
    · obtain ⟨hleft, htst⟩ := heard_days hdays ⟨origin, .censusAsk⟩
      rw [applyCensusAsk]
      split
      · rw [makeCensusDue_tst hleft, htst]
      · exact htst
    · rw [applyCensusAsk]
      split <;> simp
  · obtain ⟨t, ht, hkept⟩ := command_keepsFrames hr hp hs hq hclose hask
    exact ⟨t, ht, (heard_movesFirst hs hq hone).later hkept⟩

end Sys2Proof.Machine
end

section
/-! SUPPORT and the proof about the census frames: the figures that a joiner takes, the stubs that it opens, the mode conflict,
and the business day carried (R60, R87 to R89, R110, R162). -/

namespace Sys2Proof.Machine

/-! ### The waiting list rebuilt (R87) -/

/-- The successors of a ticket of the own range, by their place. -/
theorem ticketsFrom_eq {wrap n : Nat} (hwrap : 0 < wrap) (hn : n ≤ wrap) (fuel : Nat) :
    ticketsFrom wrap n fuel = (List.range fuel).map fun k => (n + k) % wrap + 1 := by
  have hnext (m : Nat) (hm : m ≤ wrap) : nextTicket wrap m = m % wrap + 1 := by
    unfold nextTicket
    split
    · simp [*]
    · rw [Nat.mod_eq_of_lt (by omega)]
  induction fuel generalizing n with
  | zero => rfl
  | succ fuel ih =>
    have hlt := Nat.mod_lt n hwrap
    rw [ticketsFrom, hnext n hn, ih (by omega), List.range_succ_eq_map, List.map_cons, List.map_map]
    refine congrArg₂ _ (by simp) (List.map_congr_left fun k _ => ?_)
    have hshift : (n % wrap + 1 + k) % wrap = (n + (k + 1)) % wrap := by
      rw [Nat.add_assoc, Nat.mod_add_mod, Nat.add_comm 1 k]
    simp only [Function.comp, hshift, Nat.succ_eq_add_one]

/-- The successors from highest called to highest issued, counted within the own range. -/
theorem waitingSpan_eq {wrap issued called : Nat} (hcalled : called ≤ wrap) :
    waitingSpan wrap issued called =
      if newer wrap issued called then (if called = 0 then issued else (issued + wrap - called) % wrap) else 0 := by
  have hmod : (issued + wrap - called % wrap) % wrap = (issued + wrap - called) % wrap := by
    rcases Nat.lt_or_eq_of_le hcalled with hlt | rfl
    · rw [Nat.mod_eq_of_lt hlt]
    · simp
  rw [waitingSpan, hmod]

/-- The list that a joiner rebuilds from its figures (R87). -/
def State.rebuiltWaiting (s : State) (issued called : Nat) : List WaitEntry :=
  ((ticketsFrom s.ticketConfig.wrap called (min (waitingSpan s.ticketConfig.wrap issued called) 48)).filter
    fun n => !s.bound n).map fun n => { ticket := n, time := none, station := none, passes := 0 }

theorem takeFigures_tkt (f : TicketFigures) (s : State) : (takeFigures f s).tkt = { s.tkt with
    issued := newest s.ticketConfig.wrap f.issued s.tkt.issued
    called := newest s.ticketConfig.wrap f.called s.tkt.called
    waiting :=
      if (newer s.ticketConfig.wrap f.issued s.tkt.issued || newer s.ticketConfig.wrap f.called s.tkt.called)
          && !s.ticketConfig.untracked then
        s.rebuiltWaiting (newest s.ticketConfig.wrap f.issued s.tkt.issued)
          (newest s.ticketConfig.wrap f.called s.tkt.called)
      else s.tkt.waiting } := by
  unfold takeFigures
  dsimp only
  split <;> rfl

/-- A joiner takes the newer figures and rebuilds its list (R87). -/
theorem takesFigures_of_tkt {s t : State} (hwrap : 0 < s.ticketConfig.wrap) (f : TicketFigures)
    (ht : t.tkt = (takeFigures f s).tkt) : s.TakesFigures t f.issued f.called := by
  rw [takeFigures_tkt] at ht
  rw [State.TakesFigures, ht]
  refine ⟨rfl, rfl, fun hkept => if_neg ?_, fun huntracked htaken hissued hcalled span hspan => ?_, rfl, rfl, rfl, rfl⟩
  · rcases hkept with hu | hnone
    · simp [hu]
    · simpa using fun h => absurd h hnone
  · rw [if_pos (by simpa [huntracked] using htaken), State.rebuiltWaiting, waitingSpan_eq hcalled, ← hspan,
      ticketsFrom_eq hwrap hcalled]

/-- What a joiner takes depends on its ticket view and its orders alone. -/
theorem State.TakesFigures.congr {s u t : State} {issued called : Nat} (h : u.TakesFigures t issued called)
    (htkt : u.tkt = s.tkt) (hclt : u.clt = s.clt) : s.TakesFigures t issued called := by
  have hconfig : u.ticketConfig = s.ticketConfig := by simp [State.ticketConfig, htkt]
  rwa [State.TakesFigures, hconfig, htkt, bound_congr hclt] at h

/-- The mode and wrap of a payload are the own ones. -/
theorem flaggedConfig_eq {s : State} {untracked wrap999 : Bool} (hu : s.ticketConfig.untracked = untracked)
    (hw : s.ticketConfig.wrap = if wrap999 then 999 else 99) : flaggedConfig untracked wrap999 = s.ticketConfig := by
  rw [flaggedConfig, ← hu, ← hw]

theorem wrap_pos {s : State} {wrap999 : Bool} (hw : s.ticketConfig.wrap = if wrap999 then 999 else 99) :
    0 < s.ticketConfig.wrap := by
  rw [hw]
  split <;> omega

theorem applyFigures_joiner {f : TicketFigures} {s : State} (hconfig : f.config = s.ticketConfig)
    (hjoining : s.hpt.runState = .joining) : applyFigures f s = takeFigures f s := by
  simp [applyFigures, hconfig, hjoining]

theorem applyFigures_conflict {f : TicketFigures} {s : State} (hconfig : f.config ≠ s.ticketConfig) :
    applyFigures f s = modeConflict s := by
  simp [applyFigures, hconfig]

/-- A RUNNING station keeps its view at figures of its own mode and wrap, and where a conflict stands (R87, R89). -/
theorem applyFigures_quiet {f : TicketFigures} {s : State} (hrunning : s.hpt.runState ≠ .joining)
    (h : f.config = s.ticketConfig ∨ s.tkt.conflict = true) : applyFigures f s = s := by
  unfold applyFigures modeConflict
  rcases h with h | h
  · simp [h, hrunning]
  · simp [h, hrunning]

@[simp] theorem applyFigures_keeps (f : TicketFigures) (s : State) :
    (applyFigures f s).wch = s.wch ∧ (applyFigures f s).cap = s.cap ∧ (applyFigures f s).lbl = s.lbl
      ∧ (applyFigures f s).clt = s.clt ∧ (applyFigures f s).day = s.day
      ∧ (applyFigures f s).hpt.runState = s.hpt.runState ∧ (applyFigures f s).tst.mem = s.tst.mem := by
  unfold applyFigures takeFigures
  split
  · simp
  · split
    · dsimp only
      split <;> simp
    · simp

@[simp] theorem noteOpenCount_keeps (count : Nat) (s : State) :
    (noteOpenCount count s).wch = s.wch ∧ (noteOpenCount count s).cap = s.cap ∧ (noteOpenCount count s).lbl = s.lbl
      ∧ (noteOpenCount count s).tkt = s.tkt ∧ (noteOpenCount count s).day = s.day
      ∧ (noteOpenCount count s).hpt = s.hpt ∧ (noteOpenCount count s).hlm = s.hlm
      ∧ (noteOpenCount count s).tst = s.tst := by
  unfold noteOpenCount
  split <;> simp

/-- The figures of a CENSUS_REPLY (Table 3-10). -/
def replyFigures (p : CensusReplyPayload) : TicketFigures :=
  { config := flaggedConfig p.untracked p.wrap999, issued := p.issued.toNat, called := p.called.toNat }

/-- The figures of a BEACON (Table 3-10). -/
def beaconFigures (p : BeaconPayload) : TicketFigures :=
  { config := flaggedConfig p.untracked p.wrap999, issued := p.issued.toNat, called := p.called.toNat }

theorem exec_censusReplyAccepted {origin : BitVec 4} {p : CensusReplyPayload} {s : State} (hr : s.receives = true)
    (hp : payloadInRange (.censusReply p) = true) :
    exec (.censusReplyAccepted origin p) s = .next (compareDay p.day.toNat (noteOpenCount p.openOrders.toNat
      (applyFigures (replyFigures p) (setRoster origin.toNat p.day.toNat none (s.heard ⟨origin, .censusReply p⟩))))) :=
  congrArg _ (acceptFrame_heard (f := ⟨origin, .censusReply p⟩) hr hp _)

theorem exec_beaconAccepted {origin : BitVec 4} {p : BeaconPayload} {s : State} (hr : s.receives = true)
    (hp : payloadInRange (.beacon p) = true) :
    exec (.beaconAccepted origin p) s = .next (compareDay p.day.toNat
      (applyFigures (beaconFigures p)
        (setRoster origin.toNat p.day.toNat (some p.lockedOut) (s.heard ⟨origin, .beacon p⟩)))) :=
  congrArg _ (acceptFrame_heard (f := ⟨origin, .beacon p⟩) hr hp _)

theorem exec_censusTxAccepted {origin : BitVec 4} {p : CensusTxPayload} {s : State} (hr : s.receives = true)
    (hp : payloadInRange (.censusTx p) = true) :
    exec (.censusTxAccepted origin p) s = .next (applyCensusTx p (s.heard ⟨origin, .censusTx p⟩)) :=
  congrArg _ (acceptFrame_heard (f := ⟨origin, .censusTx p⟩) hr hp _)

/-- A change of the roster alone leaves the link as R56 says. -/
theorem linkAfter_setRoster {s t : State} {f : Frame} {origin day : Nat} {lockout : Option Bool}
    (ht : t.lnk = (setRoster origin day lockout (s.heard f)).lnk) : s.LinkAfter t f := by
  refine linkAfter_of_heard ?_
  rw [ht, setRoster]
  split
  · rfl
  · split <;> rfl

/-! ### The stub of a joiner (R88, R110) -/

theorem unlist_waits (ticket : Nat) (s : State) : (unlist ticket s).waits ticket = false := by
  simp [State.waits, unlist]

/-- The roster entry of another station with what a frame of its carries (R60). -/
theorem setRoster_get {origin day : Nat} {lockout : Bool} {s : State} {e : RosterEntry} (h : origin ≠ s.station)
    (he : Table.get s.lnk.roster origin = some e) :
    Table.get (setRoster origin day (some lockout) s).lnk.roster origin
      = some { e with day := some day, lockout := some lockout } := by
  simp [setRoster, h, he]

/-! ### The business day carried (R162) -/

theorem hearLaterDay_day (day : Nat) (s : State) : (hearLaterDay day s).day = { s.day with
    highest := if laterDay day s.day.highest then day else s.day.highest, behind := true } := by
  unfold hearLaterDay
  dsimp only
  split
  · next h => simp [h]
  · simp

/-- The first later day heard queues DAY_BEHIND and counts one fault (R161, R162). -/
theorem hearLaterDay_first {day : Nat} {s : State} (hbehind : s.day.behind = false)
    (hroom : s.hpt.events.length < 32) :
    (hearLaterDay day s).hpt.events = s.hpt.events ++ [s.record (.dayBehind day)]
      ∧ (hearLaterDay day s).hlm.faultCount = min (s.hlm.faultCount + 1) 65535 := by
  obtain ⟨hhpt, hhlm, -⟩ := recordFault_queueEvent (s := { s with
    day := { s.day with highest := if laterDay day s.day.highest then day else s.day.highest, behind := true } })
    (by exact hroom) .dayBehind (.dayBehind day)
  have heq : hearLaterDay day s = recordFault .dayBehind (queueEvent (.dayBehind day) { s with
      day := { s.day with highest := if laterDay day s.day.highest then day else s.day.highest, behind := true } }) := by
    simp [hearLaterDay, hbehind]
  rw [heq, hhpt, hhlm]
  exact ⟨rfl, rfl⟩

theorem compareDay_quiet {day : Nat} {s : State}
    (h : laterDay day s.day.day = false ∨ (s.day.latch.isSome = true ∧ day = nextDay s.day.day)) :
    compareDay day s = s := by
  rcases h with h | ⟨hl, hd⟩
  · simp [compareDay, h]
  · simp [compareDay, hl, ← hd]

theorem compareDay_later {day : Nat} {s : State} (h : laterDay day s.day.day = true)
    (hfree : s.day.latch = none ∨ day ≠ nextDay s.day.day) : compareDay day s = hearLaterDay day s := by
  rcases hfree with hl | hd
  · simp [compareDay, h, hl]
  · simp [compareDay, h, hd]

/-! ### The mode conflict (R89) -/

/-- With room a mismatch counts no fault (R77, R181). -/
theorem raiseMismatch_faultCount {s : State} (hroom : s.hpt.events.length < 31) (k : MismatchKind)
    (clerk ticket : Option Nat) : (raiseMismatch k clerk ticket s).hlm.faultCount = s.hlm.faultCount := by
  have hqueued := queueEvent_room (s := s) (by omega) (.viewMismatch k clerk ticket)
  obtain ⟨-, -, -, -, -, hcount⟩ := moveAttribute_reportsOnly
    (s := queueEvent (.viewMismatch k clerk ticket) s) (by simp [hqueued]; omega) .viewMismatch
    (((queueEvent (.viewMismatch k clerk ticket) s).hlm.attributes.get .viewMismatch).raw + 1)
  exact hcount.trans (by rw [hqueued])

/-- The view after figures of some mode and wrap, before the business day is compared: a conflict is set and raised once, and
there is room left (R87, R89). -/
structure State.HearsFigures (s t : State) (config : TicketConfig) : Prop where
  day : t.day = s.day
  record : t.record = s.record
  room : t.hpt.events.length < 32
  faultCount : t.hlm.faultCount = s.hlm.faultCount
  conflict : config ≠ s.ticketConfig → t.tkt = { s.tkt with conflict := true }
    ∧ (s.tkt.conflict = false → s.record (.viewMismatch .mode none none) ∈ t.hpt.events
      ∧ t.hlm.attributes.viewMismatch.raw = min (s.hlm.attributes.viewMismatch.raw + 1) 65535)

theorem modeConflict_hearsFigures {s : State} (hroom : s.hpt.events.length < 29) (config : TicketConfig) :
    s.HearsFigures (modeConflict s) config := by
  unfold modeConflict
  split
  · next hset =>
    exact ⟨rfl, rfl, by omega, rfl, fun _ => ⟨by simp [← hset], fun h => by simp [hset] at h⟩⟩
  · have hraised := (State.Reports.of_same (s := s) (t := { s with tkt.conflict := true }) rfl rfl).thenMismatch
      (by simp; omega) .mode none none
    have hlength := hraised.length
    exact ⟨by simp, hraised.record, lt_of_le_of_lt hlength (by simp; omega),
      raiseMismatch_faultCount (s := { s with tkt.conflict := true }) (by exact Nat.lt_of_lt_of_le hroom (by omega)) ..,
      fun _ => ⟨by simp, fun _ => ⟨hraised.queued _ (by simp), hraised.raw (by simp)⟩⟩⟩

theorem applyFigures_hearsFigures {s : State} (hroom : s.hpt.events.length < 29) (f : TicketFigures) :
    s.HearsFigures (applyFigures f s) f.config := by
  unfold applyFigures
  split
  · exact modeConflict_hearsFigures hroom f.config
  · next hsame =>
    have hown {t : State} (hday : t.day = s.day) (hhpt : t.hpt = s.hpt) (hhlm : t.hlm = s.hlm) :
        s.HearsFigures t f.config :=
      ⟨hday, by funext e; simp [State.record, hhpt], by rw [hhpt]; omega, by rw [hhlm], fun h => absurd h hsame⟩
    split
    · refine hown ?_ ?_ ?_ <;> unfold takeFigures <;> dsimp only <;> split <;> simp
    · exact hown rfl rfl rfl

/-- The station that hears figures has the view and the reports of an earlier state. -/
theorem State.HearsFigures.congr {s t u v : State} {config : TicketConfig} (h : u.HearsFigures v config)
    (hday : u.day = s.day) (hhpt : u.hpt = s.hpt) (hhlm : u.hlm = s.hlm) (htkt : u.tkt = s.tkt)
    (htday : t.day = v.day) (hthpt : t.hpt = v.hpt) (hthlm : t.hlm = v.hlm) (httkt : t.tkt = v.tkt) :
    s.HearsFigures t config := by
  have hrecord : u.record = s.record := by
    funext e
    simp [State.record, hhpt]
  have hconfig : u.ticketConfig = s.ticketConfig := by simp [State.ticketConfig, htkt]
  refine ⟨by rw [htday, h.day, hday], ?_, by rw [hthpt]; exact h.room, by rw [hthlm, h.faultCount, hhlm], ?_⟩
  · rw [← hrecord, ← h.record]
    funext e
    simp [State.record, hthpt]
  · rw [httkt, hthpt, hthlm, ← hrecord, ← hconfig, ← htkt, ← hhlm]
    exact h.conflict

/-- Settles O53: the figures, the stubs, the conflict and the day that each census frame carries. -/
theorem censusFramesFillAJoinersView : Obligations.CensusFramesFillAJoinersView := by
  refine ⟨fun origin p s hr hp hu hw => ⟨fun hjoining => ?_, fun hrunning => ?_⟩,
    fun origin p s hr hp hjoining hu hw => ?_,
    fun origin p s clerk hr hp hclerk => ⟨fun hjoining ho => ?_, fun hquiet => ?_⟩,
    fun origin p s hr hp hrunning horigin hday hview => ?_, fun origin i day untracked wrap999 s hi hr hroom => ?_⟩
  · have hconfig := flaggedConfig_eq hu hw
    refine ⟨_, exec_censusReplyAccepted hr hp, ?_, ?_, by simp, by simp, by simp, by simp,
      linkAfter_setRoster (origin := origin.toNat) (day := p.day.toNat) (lockout := none)
        (by simp [noteOpenCount_lnk, applyFigures_lnk])⟩
    · refine (takesFigures_of_tkt (s := setRoster origin.toNat p.day.toNat none (s.heard ⟨origin, .censusReply p⟩))
        ?_ (replyFigures p) ?_).congr (by simp) (by simp)
      · simpa [State.ticketConfig] using wrap_pos hw
      · rw [applyFigures_joiner (by simpa [replyFigures, State.ticketConfig] using hconfig) (by simpa using hjoining)]
        simp
    · simp [noteOpenCount, hjoining]
  · have hconfig := flaggedConfig_eq hu hw
    refine ⟨_, exec_censusReplyAccepted hr hp, ?_, ?_, by simp, by simp, by simp, by simp,
      linkAfter_setRoster (origin := origin.toNat) (day := p.day.toNat) (lockout := none)
        (by simp [noteOpenCount_lnk, applyFigures_lnk])⟩
    · rw [applyFigures_quiet (by simp [hrunning]) (.inl (by simpa [replyFigures, State.ticketConfig] using hconfig))]
      simp
    · simp [noteOpenCount, hrunning]
  · have hconfig := flaggedConfig_eq hu hw
    refine ⟨_, exec_beaconAccepted hr hp, ?_, by simp, by simp, by simp, by simp, by simp,
      linkAfter_setRoster (origin := origin.toNat) (day := p.day.toNat) (lockout := some p.lockedOut)
        (by simp [applyFigures_lnk])⟩
    refine (takesFigures_of_tkt (s := setRoster origin.toNat p.day.toNat (some p.lockedOut)
      (s.heard ⟨origin, .beacon p⟩)) ?_ (beaconFigures p) ?_).congr (by simp) (by simp)
    · simpa [State.ticketConfig] using wrap_pos hw
    · rw [applyFigures_joiner (by simpa [beaconFigures, State.ticketConfig] using hconfig) (by simpa using hjoining)]
      simp
  · subst hclerk
    have hstub : applyCensusTx p (s.heard ⟨origin, .censusTx p⟩) = openStub p
        (if p.ticket = 0 then s.heard ⟨origin, .censusTx p⟩
          else unlist p.ticket.toNat (s.heard ⟨origin, .censusTx p⟩)) := by
      simp [applyCensusTx, hjoining, ho]
    have hclt : (if p.ticket = 0 then s.heard ⟨origin, .censusTx p⟩
        else unlist p.ticket.toNat (s.heard ⟨origin, .censusTx p⟩)).clt = s.clt := by
      split <;> simp
    refine ⟨_, _, exec_censusTxAccepted hr hp, by rw [hstub]; exact touchOrder_order_same .., rfl, rfl, rfl, rfl, rfl, rfl,
      rfl, rfl, ?_, fun c hc => ?_, fun hticket => ?_, ?_, ?_, ?_, ?_, ?_, ?_, linkAfter_of_heard (by rw [applyCensusTx_lnk])⟩
    · exact congrArg some (congrFun (expiryDuration_congr (by rw [hclt]) (by split <;> simp)) _)
    · rw [hstub]
      exact (touchOrder_order_other hc ..).trans (congrFun (order_congr hclt) c)
    · rw [hstub, if_neg hticket]
      exact unlist_waits ..
    all_goals
      rw [hstub]
      unfold openStub
      split <;> simp
  · have hsame : applyCensusTx p (s.heard ⟨origin, .censusTx p⟩) = s.heard ⟨origin, .censusTx p⟩ := by
      rw [applyCensusTx, if_neg]
      rintro ⟨hjoining, ho⟩
      rw [heard_order, ← hclerk] at ho
      simp [ho] at hquiet
      exact hquiet (by simpa using hjoining)
    rw [exec_censusTxAccepted hr hp, hsame]
    exact ⟨_, rfl, by simp, by simp, by simp, by simp, heard_linkAfter ..⟩
  · have hconfig : (beaconFigures p).config = s.ticketConfig ∨ s.tkt.conflict = true :=
      hview.imp (fun ⟨hu, hw⟩ => flaggedConfig_eq hu hw) id
    have hsame : compareDay p.day.toNat (applyFigures (beaconFigures p)
        (setRoster origin.toNat p.day.toNat (some p.lockedOut) (s.heard ⟨origin, .beacon p⟩)))
        = setRoster origin.toNat p.day.toNat (some p.lockedOut) (s.heard ⟨origin, .beacon p⟩) := by
      rw [applyFigures_quiet (by simp [hrunning]) (by simpa [State.ticketConfig] using hconfig),
        compareDay_quiet (.inl (by simpa using hday))]
    rw [exec_beaconAccepted hr hp, hsame]
    refine ⟨_, rfl, ?_, by simp, by simp, by simp, by simp, by simp, by simp, by simp, by simp, by simp,
      linkAfter_setRoster rfl⟩
    have hother : origin.toNat ≠ s.station := by simpa [State.station, BitVec.toNat_inj] using horigin
    have hentry := heard_roster ⟨origin, .beacon p⟩ s
    rw [refreshRoster_eq (by exact hother)] at hentry
    rw [setRoster_get (by simpa [State.station] using hother) (by rw [hentry]; exact Table.get_put_same ..)]
  · obtain ⟨w, hw, h⟩ : ∃ w, exec i s = .next (compareDay day w)
        ∧ s.HearsFigures w (flaggedConfig untracked wrap999) := by
      rcases hi with ⟨p, rfl, hp, rfl, rfl, rfl⟩ | ⟨p, rfl, hp, rfl, rfl, rfl⟩
      · refine ⟨_, exec_censusReplyAccepted hr hp, (applyFigures_hearsFigures (s := setRoster origin.toNat p.day.toNat
          none (s.heard ⟨origin, .censusReply p⟩)) ?_ (replyFigures p)).congr ?_ ?_ ?_ ?_ ?_ ?_ ?_ ?_⟩ <;> simp [hroom]
      · refine ⟨_, exec_beaconAccepted hr hp, (applyFigures_hearsFigures (s := setRoster origin.toNat p.day.toNat
          (some p.lockedOut) (s.heard ⟨origin, .beacon p⟩)) ?_ (beaconFigures p)).congr ?_ ?_ ?_ ?_ rfl rfl rfl rfl⟩
          <;> simp [hroom]
    refine ⟨_, hw, fun hother => ?_, fun hday => ?_, fun l hl hday => ?_, fun hday hfree => ⟨?_, fun hbehind => ?_⟩⟩
    · obtain ⟨htkt, hraised⟩ := h.conflict (by
        intro heq
        rw [← heq] at hother
        simp [flaggedConfig] at hother)
      refine ⟨by rw [← htkt]; simp, fun hclear => ?_⟩
      obtain ⟨hrecord, hraw⟩ := hraised hclear
      refine ⟨?_, by rw [← hraw]; simp⟩
      obtain ⟨-, -, hheld⟩ := compareDay_keepsRecords day w
      exact hheld _ hrecord
    · rw [compareDay_quiet (.inl (by rwa [h.day])), h.day]
    · rw [compareDay_quiet (.inr ⟨by rw [h.day, hl]; rfl, by rwa [h.day]⟩), h.day]
    · rw [compareDay_later (by rwa [h.day]) (by rwa [h.day]), hearLaterDay_day, h.day]
    · obtain ⟨hevents, hcount⟩ := hearLaterDay_first (day := day) (by rw [h.day]; exact hbehind) h.room
      rw [compareDay_later (by rwa [h.day]) (by rwa [h.day]), ← h.record, ← h.faultCount, hevents]
      exact ⟨List.mem_append_right _ (List.mem_singleton_self _), hcount⟩

end Sys2Proof.Machine
end

section
/-! SUPPORT. A close start step by step: the frames that it removes, the attributes that it clears, and what the first seven
steps leave (R57, R132, R147, R167, R177). -/

namespace Sys2Proof.Machine

/-! ### What a close start leaves of the store -/

/-- The store but for its list of operations. -/
def Store.withoutOps (t : Store) : Store := { t with ops := [] }

theorem withoutOps_congr {t u : Store} (h : t.withoutOps = u.withoutOps) : t = { u with ops := t.ops } := by
  obtain ⟨⟩ := t
  obtain ⟨⟩ := u
  simp_all [Store.withoutOps]

@[simp] theorem endFrame_withoutOps (f : TxFrame) (e : FrameEnd) (s : State) :
    (endFrame f e s).tst.withoutOps = s.tst.withoutOps := by
  simp [Store.withoutOps]

@[simp] theorem moveAttribute_withoutOps (a : Attribute) (raw : Nat) (s : State) :
    (moveAttribute a raw s).tst.withoutOps = s.tst.withoutOps := by
  simp [Store.withoutOps]

@[simp] theorem restartSerials_withoutOps (s : State) : (restartSerials s).tst.withoutOps = s.tst.withoutOps := rfl

@[simp] theorem handCopy_withoutOps (closed : Nat) (c : LatchedClose) (s : State) :
    (handCopy closed c s).tst.withoutOps = s.tst.withoutOps := rfl

@[simp] theorem completeOwn_withoutOps (own : Option TxFrame) (code : ResultCode) (ticket : Option Nat) (s : State) :
    (completeOwn own code ticket s).tst.withoutOps = s.tst.withoutOps := by
  simp [Store.withoutOps]

/-! ### The frames removed (R57, R167) -/

theorem removeDayFrames_eq (s : State) : removeDayFrames s
    = endFrames .dayClosed (s.lnk.queue.filter TxFrame.isDayScoped) { s with lnk := s.lnk.closed } := by
  have hwithdraw : { withdrawHead s with lnk.queue := s.lnk.queue.filter fun f => !f.isDayScoped }
      = { s with lnk := s.lnk.closed } := by
    cases hq : s.lnk.queue with
    | nil => simp [withdrawHead, Link.closed, hq]
    | cons f rest => cases hf : f.isDayScoped <;> simp [withdrawHead, Link.closed, hq, hf]
  rw [← hwithdraw]
  rfl

@[simp] theorem endFrames_keeps (e : FrameEnd) (l : List TxFrame) (s : State) :
    (endFrames e l s).power = s.power ∧ (endFrames e l s).hpt.runState = s.hpt.runState
      ∧ (endFrames e l s).hpt.straps = s.hpt.straps ∧ (endFrames e l s).hpt.slot = s.hpt.slot
      ∧ (endFrames e l s).hpt.timeOfDay = s.hpt.timeOfDay ∧ (endFrames e l s).wch = s.wch
      ∧ (endFrames e l s).cap = s.cap ∧ (endFrames e l s).lnk = s.lnk ∧ (endFrames e l s).tkt = s.tkt
      ∧ (endFrames e l s).day = s.day ∧ (endFrames e l s).hlm.attributes = s.hlm.attributes
      ∧ (endFrames e l s).tst.withoutOps = s.tst.withoutOps := by
  induction l generalizing s with
  | nil => simp [endFrames]
  | cons f l ih =>
    rw [endFrames_cons]
    simp [ih]

/-- A close ends a frame without a late item and without a drop: the order of its clerk is left (R57, R114). -/
theorem endFrame_dayClosed_clt (f : TxFrame) (s : State) : (endFrame f .dayClosed s).clt = s.clt := by
  cases f <;> simp [endFrame, completeRequest, FrameEnd.lateReason]

/-- With room a frame that a close ends completes its request and frees its reservation, and that is all (R57, R105,
R114). -/
theorem endFrame_dayClosed {s : State} (hroom : s.hpt.events.length < 32) (f : TxFrame) :
    endFrame f .dayClosed s = { s with
      hpt.events := s.hpt.events ++ (f.tag.map fun tag => s.record (.requestDone tag .dayClosed none)).toList
      lbl.reservations := s.lbl.reservations - if f.reserves then 1 else 0 } := by
  cases f with
  | item | cancelExpiry | daysum | censusAsk | censusReply | censusTx | beacon =>
    simp [endFrame, FrameEnd.lateReason, TxFrame.tag, TxFrame.reserves, TxFrame.cls]
  | txClose tag | voidLine tag => exact queueEvent_room (s := freeReservation s) hroom (.requestDone tag .dayClosed none)
  | _ =>
    simp [endFrame, completeRequest, queueEvent_room hroom, State.record, FrameEnd.code, TxFrame.tag, TxFrame.reserves,
      TxFrame.cls]

/-- With room the requests of the frames that a close ends complete in queue order, their reservations are freed, and that is
all (R57, R105, R114, R167). -/
theorem endFrames_dayClosed {l : List TxFrame} {s : State} (hroom : s.hpt.events.length + l.length ≤ 32) :
    endFrames .dayClosed l s = { s with
      hpt.events := s.hpt.events
        ++ (l.filterMap TxFrame.tag).map fun tag => s.record (.requestDone tag .dayClosed none)
      lbl.reservations := s.lbl.reservations - (l.filter TxFrame.reserves).length } := by
  induction l generalizing s with
  | nil => simp [endFrames]
  | cons f l ih =>
    have hlength : (f.tag.map fun tag => s.record (.requestDone tag .dayClosed none)).toList.length ≤ 1 := by
      cases f.tag <;> simp
    rw [List.length_cons] at hroom
    rw [endFrames_cons, endFrame_dayClosed (by omega), ih (by simp only [List.length_append]; omega)]
    cases htag : f.tag <;> cases hf : f.reserves <;>
      simp [htag, hf, State.record, Nat.sub_sub, Nat.add_comm]

/-! ### The attributes cleared (R177) -/

@[simp] theorem clearDayScoped_keeps (s : State) :
    (clearDayScoped s).power = s.power ∧ (clearDayScoped s).hpt.straps = s.hpt.straps
      ∧ (clearDayScoped s).hpt.slot = s.hpt.slot ∧ (clearDayScoped s).hpt.timeOfDay = s.hpt.timeOfDay
      ∧ (clearDayScoped s).wch = s.wch ∧ (clearDayScoped s).cap = s.cap ∧ (clearDayScoped s).lbl = s.lbl
      ∧ (clearDayScoped s).tkt = s.tkt ∧ (clearDayScoped s).clt = s.clt
      ∧ (clearDayScoped s).tst.withoutOps = s.tst.withoutOps := by
  simp [clearDayScoped, dayScoped]

theorem clearDayScoped_length (s : State) : (clearDayScoped s).hpt.events.length ≤ s.hpt.events.length + 3 := by
  have h1 := moveAttribute_length .motionTimeouts 0 s
  have h2 := moveAttribute_length .linkRetries 0 (moveAttribute .motionTimeouts 0 s)
  have h3 := moveAttribute_length .viewMismatch 0 (moveAttribute .linkRetries 0 (moveAttribute .motionTimeouts 0 s))
  simp only [clearDayScoped, dayScoped, List.foldl_cons, List.foldl_nil]
  omega

/-- Attributes cleared one after another: each of them is closed, and no other is touched. -/
theorem foldl_clear_get {l : List Attribute} (hdistinct : l.Nodup) (hl : ∀ a ∈ l, a ∈ dayScoped) (s : State)
    (a : Attribute) :
    (l.foldl (fun acc b => moveAttribute b 0 acc) s).hlm.attributes.get a
      = if a ∈ l then (s.hlm.attributes.get a).closed else s.hlm.attributes.get a := by
  induction l generalizing s with
  | nil => simp
  | cons b l ih =>
    obtain ⟨hb, hdistinct⟩ := List.nodup_cons.mp hdistinct
    rw [List.foldl_cons, ih hdistinct fun a ha => hl a (List.mem_cons_of_mem _ ha)]
    by_cases hab : a = b
    · subst hab
      simp [hb, moveAttribute_closed (hl a (List.mem_cons_self ..))]
    · simp [hab, moveAttribute_other hab]

theorem clearDayScoped_get (s : State) (a : Attribute) : (clearDayScoped s).hlm.attributes.get a
    = if a ∈ dayScoped then (s.hlm.attributes.get a).closed else s.hlm.attributes.get a :=
  foldl_clear_get (by decide) (fun _ => id) s a

/-- A record of R176 that falls to 0 under a threshold of the range of Table 11-6 is handed if it moved, and queues
nothing (R176, R178). -/
theorem moveAttribute_zero {a : Attribute} {s : State} (ha : a ∈ dayScoped)
    (hthreshold : ∀ x, (s.hlm.attributes.get a).threshold = some x → x ≤ 99) :
    moveAttribute a 0 s = { s with
      hlm.attributes := (moveAttribute a 0 s).hlm.attributes
      tst.ops := s.tst.ops
        ++ if (s.hlm.attributes.get a).raw ≠ 0 then [(s.hlm.attributes.get a).closed.stored a] else [] } := by
  by_cases h : (s.hlm.attributes.get a).raw = 0
  · simp [moveAttribute_same, h]
  · have hclosed := moveAttribute_closed ha s
    rw [moveAttribute_get (by simpa using Ne.symm h)] at hclosed
    have hlow : ((s.hlm.attributes.get a).moved a 0 s.figures.zeroBand).low = false := by
      have hmoved : (s.hlm.attributes.get a).moved a 0 s.figures.zeroBand = (s.hlm.attributes.get a).closed := hclosed
      rw [hmoved, AttributeRecord.closed, if_neg h]
      cases ht : (s.hlm.attributes.get a).threshold with
      | none => rfl
      | some x =>
        have := hthreshold x ht
        simp
        omega
    have hmoved : moveAttribute a 0 s = hand (((s.hlm.attributes.get a).moved a 0 s.figures.zeroBand).stored a)
        { s with hlm.attributes :=
          s.hlm.attributes.set a ((s.hlm.attributes.get a).moved a 0 s.figures.zeroBand) } := by
      unfold moveAttribute
      dsimp only
      rw [if_neg (by simpa using Ne.symm h), if_neg (by simp [hlow])]
      rfl
    rw [hmoved, if_pos h, ← hclosed]
    rfl

/-- Attributes cleared one after another under such thresholds hand the records that moved, and queue nothing. -/
theorem foldl_clear_eq {l : List Attribute} (hdistinct : l.Nodup) (hl : ∀ a ∈ l, a ∈ dayScoped) (s : State)
    (hthreshold : ∀ a ∈ l, ∀ x, (s.hlm.attributes.get a).threshold = some x → x ≤ 99) :
    l.foldl (fun acc b => moveAttribute b 0 acc) s = { s with
      hlm.attributes := (l.foldl (fun acc b => moveAttribute b 0 acc) s).hlm.attributes
      tst.ops := s.tst.ops ++ (l.filter fun a => decide ((s.hlm.attributes.get a).raw ≠ 0)).map fun a =>
        (s.hlm.attributes.get a).closed.stored a } := by
  induction l generalizing s with
  | nil => simp
  | cons b l ih =>
    obtain ⟨hb, hdistinct⟩ := List.nodup_cons.mp hdistinct
    have hother {a : Attribute} (ha : a ∈ l) :
        (moveAttribute b 0 s).hlm.attributes.get a = s.hlm.attributes.get a :=
      moveAttribute_other (by rintro rfl; exact hb ha) 0 s
    have hfirst := moveAttribute_zero (hl b (List.mem_cons_self ..)) (hthreshold b (List.mem_cons_self ..))
    have hrest := ih hdistinct (fun a ha => hl a (List.mem_cons_of_mem _ ha)) (moveAttribute b 0 s) fun a ha => by
      rw [hother ha]
      exact hthreshold a (List.mem_cons_of_mem _ ha)
    have hmoved : ((l.filter fun a => decide (((moveAttribute b 0 s).hlm.attributes.get a).raw ≠ 0)).map fun a =>
          ((moveAttribute b 0 s).hlm.attributes.get a).closed.stored a)
        = (l.filter fun a => decide ((s.hlm.attributes.get a).raw ≠ 0)).map fun a =>
          (s.hlm.attributes.get a).closed.stored a := by
      rw [List.filter_congr fun a ha => by rw [hother ha]]
      exact List.map_congr_left fun a ha => by rw [hother (List.mem_of_mem_filter ha)]
    rw [hmoved] at hrest
    rw [List.foldl_cons, hrest, hfirst]
    by_cases hzero : (s.hlm.attributes.get b).raw = 0 <;> simp [hzero]

theorem clearDayScoped_eq {s : State}
    (hthreshold : ∀ a x, (s.hlm.attributes.get a).threshold = some x → x ≤ 99) :
    clearDayScoped s = { s with
      hlm.attributes := (clearDayScoped s).hlm.attributes
      tst.ops := s.tst.ops ++ (dayScoped.filter fun a => decide ((s.hlm.attributes.get a).raw ≠ 0)).map fun a =>
        (s.hlm.attributes.get a).closed.stored a } :=
  foldl_clear_eq (by decide) (fun _ => id) s fun a _ => hthreshold a

/-! ### The first seven steps (R167) -/

/-- A close start before its copy: steps 1 to 5 of R167. -/
def clearDay (c : LatchedClose) (s : State) : State :=
  clearDayScoped (restartSerials (removeDayFrames (freeAllOrders (emptyTicketView (moveDay c.newDay s)))))

theorem advanceDay_eq (c : LatchedClose) (s : State) :
    advanceDay c s = settleBehind (handCopy s.day.day c (clearDay c s)) := rfl

/-- The state on which the frames that a close removes end: the business day moved and the views emptied (R57, R167). -/
def emptyDay (c : LatchedClose) (s : State) : State :=
  { s with
    tkt := { s.tkt with issued := 0, called := 0, nowServing := none, waiting := [], passes := [] }
    clt := { s.clt with orders := [] }
    day := { s.day with latch := none, day := c.newDay }
    lnk := s.lnk.closed
    tst.ops := s.tst.ops ++ [.recordWrite [(0, BitVec.ofNat 32 c.newDay)]] }

theorem clearDay_eq (c : LatchedClose) (s : State) : clearDay c s = clearDayScoped (restartSerials
    (endFrames .dayClosed (s.lnk.queue.filter TxFrame.isDayScoped) (emptyDay c s))) := by
  rw [clearDay, removeDayFrames_eq]
  rfl

@[simp] theorem emptyDay_keeps (c : LatchedClose) (s : State) :
    (emptyDay c s).power = s.power ∧ (emptyDay c s).hpt = s.hpt ∧ (emptyDay c s).wch = s.wch
      ∧ (emptyDay c s).cap = s.cap ∧ (emptyDay c s).lbl = s.lbl ∧ (emptyDay c s).lnk = s.lnk.closed
      ∧ (emptyDay c s).hlm = s.hlm ∧ (emptyDay c s).tst.withoutOps = s.tst.withoutOps :=
  ⟨rfl, rfl, rfl, rfl, rfl, rfl, rfl, rfl⟩

@[simp] theorem clearDay_keeps (c : LatchedClose) (s : State) :
    (clearDay c s).power = s.power ∧ (clearDay c s).hpt.straps = s.hpt.straps
      ∧ (clearDay c s).hpt.slot = s.hpt.slot ∧ (clearDay c s).hpt.timeOfDay = s.hpt.timeOfDay
      ∧ (clearDay c s).wch = s.wch ∧ (clearDay c s).cap = s.cap ∧ (clearDay c s).lnk = s.lnk.closed
      ∧ (clearDay c s).day = (emptyDay c s).day ∧ (clearDay c s).tkt = (emptyDay c s).tkt
      ∧ (clearDay c s).clt = (emptyDay c s).clt
      ∧ (clearDay c s).tst.withoutOps = s.tst.withoutOps := by
  have hclt := foldl_keeps (·.clt) (fun acc f => endFrame f .dayClosed acc)
    (fun s f => endFrame_dayClosed_clt f s) (s.lnk.queue.filter TxFrame.isDayScoped) (emptyDay c s)
  rw [← endFrames] at hclt
  rw [clearDay_eq]
  simp [hclt]

/-- The serial starts again, and the reservations of the frames removed are freed (R114, R130, R132). -/
theorem clearDay_lbl (c : LatchedClose) (s : State) : (clearDay c s).lbl = { s.lbl with
    nextSerial := 1
    reservations := s.lbl.reservations - ((s.lnk.queue.filter TxFrame.isDayScoped).filter TxFrame.reserves).length } := by
  rw [clearDay_eq]
  simp [restartSerials, hand, endFrames_lbl, emptyDay]

theorem clearDay_get (c : LatchedClose) (s : State) (a : Attribute) : (clearDay c s).hlm.attributes.get a
    = if a ∈ dayScoped then (s.hlm.attributes.get a).closed else s.hlm.attributes.get a := by
  rw [clearDay_eq, clearDayScoped_get]
  simp [emptyDay]

/-- What steps 1 to 5 hand: the business day word first, and the label word among the rest (R132, R167). -/
theorem clearDay_ops (c : LatchedClose) (s : State) :
    ∃ before, (clearDay c s).tst.ops = s.tst.ops ++ .recordWrite [(0, BitVec.ofNat 32 c.newDay)] :: before
      ∧ .recordWrite [(1, BitVec.ofNat 32 (1 + s.lbl.newest * 1048576))] ∈ before := by
  obtain ⟨-, -, -, -, -, ended, hended⟩ :=
    endFrames_addsTo .dayClosed (s.lnk.queue.filter TxFrame.isDayScoped) (emptyDay c s)
  obtain ⟨-, -, -, -, -, cleared, hcleared⟩ := clearDayScoped_addsTo (restartSerials
    (endFrames .dayClosed (s.lnk.queue.filter TxFrame.isDayScoped) (emptyDay c s)))
  refine ⟨ended ++ .recordWrite [(1, BitVec.ofNat 32 (1 + s.lbl.newest * 1048576))] :: cleared, ?_, by simp⟩
  have hfirst : (emptyDay c s).tst.ops = s.tst.ops ++ [.recordWrite [(0, BitVec.ofNat 32 c.newDay)]] := rfl
  rw [clearDay_eq, ← hcleared]
  simp [restartSerials, hand, ← hended, hfirst, endFrames_lbl, addrLabel, labelWord]

/-- There is room for the requests of the frames that a close removes, and no threshold above the range of Table 11-6. -/
def State.ClosesQuietly (s : State) : Prop :=
  s.hpt.events.length + (s.lnk.queue.filter TxFrame.isDayScoped).length ≤ 32
    ∧ ∀ a x, (s.hlm.attributes.get a).threshold = some x → x ≤ 99

/-- With room steps 1 to 5 complete the requests of the frames removed, and hand the label word and the attributes that moved
(R57, R132, R167, R177). -/
theorem clearDay_quiet {s : State} (h : s.ClosesQuietly) (c : LatchedClose) :
    (clearDay c s).hpt = { s.hpt with
        events := s.hpt.events
          ++ ((s.lnk.queue.filter TxFrame.isDayScoped).filterMap TxFrame.tag).map fun tag =>
            s.record (.requestDone tag .dayClosed none) }
      ∧ (clearDay c s).hlm = { s.hlm with attributes := (clearDay c s).hlm.attributes }
      ∧ (clearDay c s).tst.ops = s.tst.ops ++ .recordWrite [(0, BitVec.ofNat 32 c.newDay)]
        :: .recordWrite [(1, BitVec.ofNat 32 (1 + s.lbl.newest * 1048576))]
        :: (dayScoped.filter fun a => decide ((s.hlm.attributes.get a).raw ≠ 0)).map fun a =>
          (s.hlm.attributes.get a).closed.stored a := by
  obtain ⟨hroom, hthreshold⟩ := h
  have hends := endFrames_dayClosed (l := s.lnk.queue.filter TxFrame.isDayScoped) (s := emptyDay c s) (by exact hroom)
  rw [clearDay_eq, hends, clearDayScoped_eq (by exact hthreshold)]
  simp [restartSerials, hand, emptyDay, addrLabel, labelWord, State.record]

/-- At most one event for each frame removed, and one for each of the three records cleared. -/
theorem clearDay_length {c : LatchedClose} {s : State}
    (hroom : s.hpt.events.length + (s.lnk.queue.filter TxFrame.isDayScoped).length ≤ 32) :
    (clearDay c s).hpt.events.length
      ≤ s.hpt.events.length + (s.lnk.queue.filter TxFrame.isDayScoped).length + 3 := by
  have hends := endFrames_dayClosed (l := s.lnk.queue.filter TxFrame.isDayScoped) (s := emptyDay c s) (by exact hroom)
  have htags := List.length_filterMap_le TxFrame.tag (s.lnk.queue.filter TxFrame.isDayScoped)
  rw [clearDay_eq, hends]
  refine (clearDayScoped_length _).trans ?_
  simp only [restartSerials, hand, emptyDay, List.length_append, List.length_map]
  omega

/-- The snapshot depends on the straps and on the roster alone (R61). -/
theorem snapshot_congr {s t : State} (hstraps : t.hpt.straps = s.hpt.straps) (hroster : t.lnk.roster = s.lnk.roster) :
    t.snapshot = s.snapshot := by
  unfold State.snapshot State.station
  rw [hstraps, hroster]

/-! ### The day unit and the copy (R61, R147, R167) -/

theorem advanceDay_day (c : LatchedClose) (s : State) : (advanceDay c s).day = { s.day with
    day := c.newDay
    latch := none
    behind := laterDay s.day.highest c.newDay
    highest := if laterDay s.day.highest c.newDay then s.day.highest else c.newDay
    copiesPending := s.day.copiesPending + 1
    newestSlot := ringNext 8 s.day.newestSlot
    held := Table.put s.day.held (ringNext 8 s.day.newestSlot) s.day.day } := by
  rw [advanceDay_eq, settleBehind_eq]
  simp [handCopy, hand, emptyDay]

/-- Steps 6 and 7 leave the rest as the steps before left it (R167). -/
@[simp] theorem advanceDay_keeps (c : LatchedClose) (s : State) :
    (advanceDay c s).power = s.power ∧ (advanceDay c s).wch = s.wch ∧ (advanceDay c s).cap = s.cap
      ∧ (advanceDay c s).hpt = (clearDay c s).hpt ∧ (advanceDay c s).hlm = (clearDay c s).hlm
      ∧ (advanceDay c s).lbl = (clearDay c s).lbl ∧ (advanceDay c s).tkt = (emptyDay c s).tkt
      ∧ (advanceDay c s).clt = (emptyDay c s).clt
      ∧ (advanceDay c s).tst.withoutOps = s.tst.withoutOps := by
  rw [advanceDay_eq, settleBehind_eq]
  simp

/-- The close copy is handed after what the steps before have handed (R147, R167). -/
theorem advanceDay_ops (c : LatchedClose) (s : State) : (advanceDay c s).tst.ops = (clearDay c s).tst.ops
    ++ [.closeCopy ⟨ringNext 8 s.day.newestSlot, s.day.day, s.hpt.timeOfDay, c.late, c.forced, s.snapshot⟩] := by
  have hsnapshot : (clearDay c s).snapshot = s.snapshot := snapshot_congr (by simp) (by simp)
  rw [advanceDay_eq, settleBehind_eq]
  simp [handCopy, hand, hsnapshot, emptyDay]

/-- A close start with nothing deferred is its first seven steps (R166, R167). -/
theorem startClose_nothingDeferred {s : State} (h : s.day.deferred = []) (c : LatchedClose) :
    startClose c s = advanceDay c s := by
  have hnone : (advanceDay c s).day.deferred = [] := by simp [h]
  rw [startClose_eq, applyDeferred, hnone, List.foldl_nil, ← hnone]

/-! ### The snapshot (R61) -/

/-- A sum of powers of two spells the places it is taken over. -/
theorem sum_two_pow_testBit (p : Nat → Prop) [DecidablePred p] (n i : Nat) :
    (((List.range n).foldl (fun acc k => acc + if p k then 2 ^ k else 0) 0).testBit i = true ↔ i < n ∧ p i)
      ∧ (List.range n).foldl (fun acc k => acc + if p k then 2 ^ k else 0) 0 < 2 ^ n := by
  induction n with
  | zero => simp
  | succ n ih =>
    obtain ⟨hbits, hlt⟩ := ih
    rw [List.range_succ, List.foldl_append, List.foldl_cons, List.foldl_nil]
    generalize (List.range n).foldl (fun acc k => acc + if p k then 2 ^ k else 0) 0 = x at hbits hlt
    have hbound : (x + if p n then 2 ^ n else 0) < 2 ^ (n + 1) := by
      rw [Nat.pow_succ]
      split <;> omega
    refine ⟨?_, hbound⟩
    rcases Nat.lt_trichotomy i n with hi | rfl | hi
    · have hbelow : (x + if p n then 2 ^ n else 0).testBit i = x.testBit i := by
        split
        · rw [Nat.add_comm, Nat.testBit_two_pow_add_gt hi]
        · rfl
      rw [hbelow, hbits]
      simp [hi, Nat.lt_succ_of_lt hi]
    · have hclear := Nat.testBit_lt_two_pow hlt
      by_cases hp : p i
      · simp [hp, Nat.add_comm x, Nat.testBit_two_pow_add_eq, hclear]
      · simp [hp, hclear]
    · have hzero := Nat.testBit_lt_two_pow (Nat.lt_of_lt_of_le hbound (Nat.pow_le_pow_right (by omega) hi))
      simp [hzero]
      omega

theorem snapshot_getLsbD (s : State) (k : BitVec 4) : s.snapshot.getLsbD k.toNat = true
    ↔ k = s.hpt.straps.station ∨ (Table.get s.lnk.roster k.toNat).isSome = true := by
  obtain ⟨hbits, -⟩ := sum_two_pow_testBit (fun k => k = s.station ∨ (Table.get s.lnk.roster k).isSome) 16 k.toNat
  rw [State.snapshot, BitVec.getLsbD_ofNat, Bool.and_eq_true, hbits]
  have hlt : k.toNat < 16 := k.isLt
  simp [hlt, State.station, BitVec.toNat_inj]

end Sys2Proof.Machine
end

section
/-! SUPPORT and the proof about the commands of the day: what a DAYCLOSE does with a close that it starts, latches or ignores,
the frames of another day tag, CLOSE_START and JOIN_DAY (R161 to R166, R169). -/

namespace Sys2Proof.Machine

/-! ### DAYCLOSE (R163 to R165) -/

theorem exec_dayCloseAccepted {origin : BitVec 4} {p : DayClosePayload} {s : State} (hr : s.receives = true)
    (hday : p.day.toNat ≠ 0) :
    exec (.dayCloseAccepted origin p) s
      = .next (applyDayClose p (s.ownFrame ⟨origin, .dayClose p⟩) (s.heard ⟨origin, .dayClose p⟩)) := by
  have hp : payloadInRange (.dayClose p) = true := by
    have := p.day.isLt
    simp [payloadInRange, within]
    omega
  exact congrArg _ (acceptFrame_heard (f := ⟨origin, .dayClose p⟩) hr hp _)

/-- The close that a DAYCLOSE of the present or of a later day begins (R163, R164). -/
def State.closeOf (s : State) (p : DayClosePayload) : LatchedClose :=
  if p.day.toNat = s.day.day then { newDay := nextDay s.day.day, late := false, forced := p.forced }
  else { newDay := nextDay p.day.toNat, late := true, forced := p.forced }

/-- The DAYCLOSE is of the present or of a later day (R164). -/
def State.ClosesDay (s : State) (p : DayClosePayload) : Prop :=
  p.day.toNat = s.day.day ∨ laterDay p.day.toNat s.day.day = true

theorem applyDayClose_starts {p : DayClosePayload} {s : State} (h : s.ClosesDay p) (hidle : s.cap.capture = .idle)
    (hlatch : s.day.latch = none) (own : Option TxFrame) :
    applyDayClose p own s = completeOwn own .ok none (startClose (s.closeOf p) s) := by
  unfold applyDayClose State.closeOf
  by_cases hpresent : p.day.toNat = s.day.day
  · simp [hpresent, hlatch, beginClose, hidle]
  · have hlater : laterDay p.day.toNat s.day.day = true := h.resolve_left hpresent
    simp [hpresent, hlater, hlatch, beginClose, hidle]

/-- The day unit after a DAYCLOSE that starts no close: one of the present day is latched unless a close is latched already,
one of a later day is latched late or makes the latched close late, and one of an earlier day is ignored (R164, R165). -/
def State.dayLatched (s : State) (p : DayClosePayload) : DayUnit :=
  if p.day.toNat = s.day.day then
    { s.day with latch := some (s.day.latch.getD (s.closeOf p)) }
  else if laterDay p.day.toNat s.day.day then
    { s.day with latch := some { s.closeOf p with forced := (s.day.latch.map LatchedClose.forced).getD p.forced } }
  else s.day

/-- A close already latched for the present day stays as it is (R164). -/
theorem dayLatched_again {p : DayClosePayload} {s : State} (hpresent : p.day.toNat = s.day.day)
    (hlatch : s.day.latch ≠ none) : s.dayLatched p = s.day := by
  obtain ⟨c, hc⟩ := Option.ne_none_iff_exists'.mp hlatch
  have hsame : { s.day with latch := some c } = s.day := by rw [← hc]
  rw [State.dayLatched, if_pos hpresent, hc]
  exact hsame

/-- The result with which the request of a DAYCLOSE completes (R163). -/
def State.closeResult (s : State) (p : DayClosePayload) : ResultCode :=
  if p.day.toNat = s.day.day ∨ laterDay p.day.toNat s.day.day = true then .ok else .dayClosed

theorem applyDayClose_latches {p : DayClosePayload} {s : State}
    (h : s.cap.capture ≠ .idle ∨ s.day.latch ≠ none
      ∨ (p.day.toNat ≠ s.day.day ∧ laterDay p.day.toNat s.day.day = false)) (own : Option TxFrame) :
    applyDayClose p own s = completeOwn own (s.closeResult p) none { s with day := s.dayLatched p } := by
  unfold applyDayClose State.closeResult
  by_cases hpresent : p.day.toNat = s.day.day
  · by_cases hlatch : s.day.latch = none
    · have hbusy : s.cap.capture ≠ .idle := by simpa [hlatch, hpresent] using h
      simp [hpresent, State.dayLatched, State.closeOf, hlatch, beginClose, hbusy]
    · simp [hpresent, dayLatched_again hpresent hlatch, Option.isSome_iff_ne_none, hlatch]
  · by_cases hlater : laterDay p.day.toNat s.day.day = true
    · cases hlatch : s.day.latch with
      | none =>
        have hbusy : s.cap.capture ≠ .idle := by simpa [hlatch, hlater] using h
        simp [State.dayLatched, State.closeOf, hpresent, hlater, hlatch, beginClose, hbusy]
      | some c => simp [State.dayLatched, State.closeOf, hpresent, hlater, hlatch]
    · simp [State.dayLatched, hpresent, hlater]

section
variable (f : Frame) (p : DayClosePayload) (s : State)

@[simp] theorem heard_closeOf : (s.heard f).closeOf p = s.closeOf p := by simp [State.closeOf]

@[simp] theorem heard_dayLatched : (s.heard f).dayLatched p = s.dayLatched p := by simp [State.dayLatched]

@[simp] theorem heard_closeResult : (s.heard f).closeResult p = s.closeResult p := by simp [State.closeResult]

end

/-- A DAYCLOSE that starts no close. -/
theorem exec_dayClose_latches {origin : BitVec 4} {p : DayClosePayload} {s : State} (hr : s.receives = true)
    (hday : p.day.toNat ≠ 0)
    (h : s.cap.capture ≠ .idle ∨ s.day.latch ≠ none
      ∨ (p.day.toNat ≠ s.day.day ∧ laterDay p.day.toNat s.day.day = false)) :
    exec (.dayCloseAccepted origin p) s = .next (completeOwn (s.ownFrame ⟨origin, .dayClose p⟩) (s.closeResult p) none
      { s.heard ⟨origin, .dayClose p⟩ with day := s.dayLatched p }) := by
  rw [exec_dayCloseAccepted hr hday, applyDayClose_latches (by simpa using h)]
  simp

/-- A DAYCLOSE that starts a close. -/
theorem exec_dayClose_starts {origin : BitVec 4} {p : DayClosePayload} {s : State} (hr : s.receives = true)
    (hday : p.day.toNat ≠ 0) (h : s.ClosesDay p) (hidle : s.cap.capture = .idle) (hlatch : s.day.latch = none) :
    exec (.dayCloseAccepted origin p) s = .next (completeOwn (s.ownFrame ⟨origin, .dayClose p⟩) .ok none
      (startClose (s.closeOf p) (s.heard ⟨origin, .dayClose p⟩))) := by
  rw [exec_dayCloseAccepted hr hday,
    applyDayClose_starts (by simpa [State.ClosesDay] using h) (by simpa using hidle) (by simpa using hlatch)]
  simp

/-- A heard frame that does no more than set the day unit and complete its request changes nothing else (R164, R165). -/
theorem keepsAllBut_of_heard (s : State) (f : Frame) (code : ResultCode) (d : DayUnit) :
    s.KeepsAllBut (completeOwn (s.ownFrame f) code none { s.heard f with day := d }) f := by
  refine ⟨by simp, by simp, by simp, by simp, by simp, by simp, fun hs => ?_, fun hs hroom => ?_⟩
  · obtain ⟨hlnk, -⟩ := heard_linkAfter s f
    rw [ownFrame_receiver hs]
    exact ⟨by simp [completeOwn], by simp [completeOwn, heard_tst_receiver hs], by simp [completeOwn], hlnk hs⟩
  · obtain ⟨reads, htst, hreads, hdays⟩ := heard_tst_sender hs
    rw [completeOwn_events (by simpa using hroom)]
    exact ⟨by simp, reads, hreads, fun hnone => hdays (by simp [hnone, Backlog.none]), htst⟩

/-- The close that starts has moved the day, and no close is latched (R167). -/
theorem startClose_movesDay (c : LatchedClose) (s : State) : (startClose c s).cap = s.cap
    ∧ (startClose c s).day.latch = none ∧ (startClose c s).day.day = c.newDay
    ∧ (startClose c s).hpt.slot = s.hpt.slot := by
  obtain ⟨hslot, hcap, hday, hlatch, -⟩ := startClose_addsTo c s
  exact ⟨hcap.trans (by simp), hlatch, hday, hslot.trans (by simp)⟩

theorem completeOwn_day (own : Option TxFrame) (code : ResultCode) (ticket : Option Nat) (s : State) :
    (completeOwn own code ticket s).day = s.day := by simp

theorem completeOwn_lnk (own : Option TxFrame) (code : ResultCode) (ticket : Option Nat) (s : State) :
    (completeOwn own code ticket s).lnk = s.lnk := by simp

/-! ### The sender of a DAYCLOSE (R56, R163) -/

theorem isRequest_of_isDayScoped {f : TxFrame} (h : f.isDayScoped = true) : f.isRequest = true := by
  obtain ⟨-, hle⟩ : 1 ≤ f.cls ∧ f.cls ≤ 7 := by simpa [TxFrame.isDayScoped, within] using h
  simp [TxFrame.isRequest, hle]

/-- Of frames that moved up from the backlog none is of classes 1..7. -/
theorem stationFrames_notDayScoped {moved : List TxFrame} (h : ∀ f ∈ moved, f.isRequest = false) :
    moved.filter TxFrame.isDayScoped = [] ∧ moved.filter (fun f => !f.isDayScoped) = moved := by
  have hnone (f : TxFrame) (hf : f ∈ moved) : f.isDayScoped = false := by
    rw [← Bool.not_eq_true]
    exact fun hday => absurd (isRequest_of_isDayScoped hday) (by simp [h f hf])
  exact ⟨List.filter_eq_nil_iff.mpr fun f hf => by simp [hnone f hf],
    List.filter_eq_self.mpr fun f hf => by simp [hnone f hf]⟩

/-- A close start takes its frames from a link between attempts, and leaves the rest (R57, R167). -/
theorem closed_betweenAttempts {l : Link} (hattempt : l.attempt = none) (hcount : l.attemptCount = 0) :
    l.closed = { l with queue := l.queue.filter fun f => !f.isDayScoped } := by
  simp [Link.closed, hattempt, hcount]

/-- The link at the sender of a frame with which a close starts (R56, R57, R167). -/
theorem sent_of_closed {s t : State} {f : Frame} {head : TxFrame} {rest : List TxFrame} (hs : s.sends f = true)
    (hq : s.lnk.queue = head :: rest) (ht : t.lnk = { (s.heard f).lnk.closed with roster := t.lnk.roster }) :
    s.Sent t (rest.filter fun g => !g.isDayScoped) := by
  obtain ⟨moved, reads, backlog, hu, hmoved, -, -, hnone⟩ := heard_sender hs
  obtain ⟨-, hkept⟩ := stationFrames_notDayScoped hmoved
  have hlnk : (s.heard f).lnk = { s.linkSent (s.heard f) (rest ++ moved) with backlog := backlog } := by
    simpa [hq] using congrArg State.lnk hu
  rw [closed_betweenAttempts (by rw [hlnk]; rfl) (by rw [hlnk]; rfl)] at ht
  have hbacklog : t.lnk.backlog = backlog := by rw [ht, hlnk]
  refine ⟨moved, ?_, hmoved, fun hb => ⟨(hnone hb).1, by rw [hbacklog, (hnone hb).2]⟩⟩
  rw [ht, hlnk]
  simp [State.linkSent, hkept]

/-- What is removed with a close at the sender was behind its frame (R57). -/
theorem heard_dayFrames {s : State} {f : Frame} {head : TxFrame} {rest : List TxFrame} (hs : s.sends f = true)
    (hq : s.lnk.queue = head :: rest) :
    (s.heard f).lnk.queue.filter TxFrame.isDayScoped = rest.filter TxFrame.isDayScoped := by
  obtain ⟨moved, reads, backlog, hu, hmoved, -⟩ := heard_sender hs
  obtain ⟨hnone, -⟩ := stationFrames_notDayScoped hmoved
  have hqueue : (s.heard f).lnk.queue = rest ++ moved := by
    rw [hu]
    simp [State.linkSent, hq]
  rw [hqueue, List.filter_append, hnone, List.append_nil]

/-- With room the sender's own request completes after a close start with nothing deferred (R163). -/
theorem record_mem_completeOwn_startClose {s : State} {f : Frame} {head : TxFrame} {rest : List TxFrame} {tag : Nat}
    (hs : s.sends f = true) (hq : s.lnk.queue = head :: rest) (htag : head.tag = some tag)
    (hdeferred : s.day.deferred = []) (hroom : s.hpt.events.length + s.lnk.queue.length < 29) (c : LatchedClose) :
    s.record (.requestDone tag .ok none)
      ∈ (completeOwn (s.ownFrame f) .ok none (startClose c (s.heard f))).hpt.events := by
  have hqueue : ((s.heard f).lnk.queue.filter TxFrame.isDayScoped).length < s.lnk.queue.length := by
    rw [heard_dayFrames hs hq, hq, List.length_cons]
    exact Nat.lt_succ_of_le (List.length_filter_le _ _)
  have hcleared := clearDay_length (c := c) (s := s.heard f) (by simp; omega)
  have hrecord : (advanceDay c (s.heard f)).record = s.record := by
    funext e
    simp [State.record]
  rw [startClose_nothingDeferred (by simpa using hdeferred), ownFrame_sender hs hq,
    completeOwn_room (tag := tag) (by simpa using htag) (by
      simp only [advanceDay_keeps]
      refine lt_of_le_of_lt hcleared ?_
      simp
      omega), hrecord]
  simp

/-! ### A frame of another day tag (R161, R166) -/

theorem exec_dayFrame {f : Frame} {s : State} (hlow : 1 ≤ payloadClass f.payload) (hhigh : payloadClass f.payload ≤ 7) :
    exec f.command s = .next (acceptDayFrame f s) := by
  obtain ⟨origin, payload⟩ := f
  cases payload with
  | call | issue | pass | txClose | txCancel | voidLine | item => rfl
  | _ => simp [payloadClass] at hlow hhigh

/-- A frame of another day tag is deferred, puts the station behind, or is discarded (R161). -/
theorem receiveDayFrame_otherDay {f : Frame} {s : State} (h : dayTagOf f.payload ≠ dayTag s.day.day)
    (own : Option TxFrame) :
    receiveDayFrame f own s =
      if dayTagOf f.payload = dayTag (nextDay s.day.day) then
        (if s.day.latch.isSome then deferFrame f s else hearLaterDay (nextDay s.day.day) s)
      else s := by
  unfold receiveDayFrame judgeTag
  rw [if_neg h]
  by_cases hnext : dayTagOf f.payload = dayTag (nextDay s.day.day)
  · cases hlatch : s.day.latch <;> simp [hnext]
  · simp [hnext]

theorem deferFrame_keeps (f : Frame) (s : State) :
    (deferFrame f s).tkt = s.tkt ∧ (deferFrame f s).clt = s.clt ∧ (deferFrame f s).cap = s.cap
      ∧ (deferFrame f s).lbl = s.lbl := by
  unfold deferFrame
  split <;> simp

/-- A frame of another day tag moves no view (R161). -/
theorem receiveDayFrame_otherDay_keeps {f : Frame} {s : State} (h : dayTagOf f.payload ≠ dayTag s.day.day)
    (own : Option TxFrame) :
    (receiveDayFrame f own s).tkt = s.tkt ∧ (receiveDayFrame f own s).clt = s.clt
      ∧ (receiveDayFrame f own s).cap = s.cap ∧ (receiveDayFrame f own s).lbl = s.lbl := by
  rw [receiveDayFrame_otherDay h]
  split
  · split
    · exact deferFrame_keeps f s
    · simp
  · simp

/-- A later day heard again raises the highest day at most (R161, R162). -/
theorem hearLaterDay_again {day : Nat} {s : State} (h : s.day.behind = true) :
    (hearLaterDay day s).hpt = s.hpt ∧ (hearLaterDay day s).tst = s.tst ∧ (hearLaterDay day s).hlm = s.hlm := by
  simp [hearLaterDay, h]

/-! ### CLOSE_START and JOIN_DAY (R165, R169) -/

theorem exec_closeStart (s : State) : exec .closeStart s = .next (startLatched s) := rfl

theorem startLatched_quiet {s : State} (h : s.day.latch = none ∨ s.cap.capture ≠ .idle) : startLatched s = s := by
  unfold startLatched
  rcases h with h | h
  · simp [h]
  · split <;> simp [h]

theorem startLatched_starts {s : State} {c : LatchedClose} (hlatch : s.day.latch = some c)
    (hidle : s.cap.capture = .idle) : startLatched s = startClose c s := by
  simp [startLatched, hlatch, hidle]

theorem exec_joinDay {s : State} (h : s.asked .joinDay) : exec .joinDay s = .next (joinDayOwner s) := serve_asked h

theorem joinDayOwner_starts {s : State} (hrunning : s.hpt.runState = .running) (hbehind : s.day.behind = true)
    (hidle : s.cap.capture = .idle) :
    joinDayOwner s = startClose { newDay := s.day.highest, late := true, forced := false } (answer .ok [] s) := by
  simp [joinDayOwner, State.notRunning, hrunning, hbehind, hidle]

/-- Settles O55: what a DAYCLOSE starts, latches or ignores, the other tags, CLOSE_START and JOIN_DAY. -/
theorem dayCommandsComplete : Obligations.DayCommandsComplete := by
  refine ⟨fun origin p s hr hday => ⟨fun hbusy hlatch hpresent => ?_, fun hother hearlier => ?_,
      fun hpresent hlatch hidle => ?_, fun hpresent hlatch => ?_, fun hlater hbusy => ?_,
      fun hlater hidle hlatch => ?_⟩,
    fun origin p s tag day forced rest hr hday hs hq => ?_, fun f s hr hp hs hlow hhigh htag hroom => ?_,
    fun s h => ?_, fun s hlatch hidle => ?_, fun s hasked => ⟨fun h => ?_, fun hrunning hbehind hbusy => ?_,
      fun hrunning hbehind hidle => ?_⟩⟩
  · refine ⟨_, exec_dayClose_latches hr hday (.inl hbusy), keepsAllBut_of_heard .., ?_⟩
    simp [State.dayLatched, State.closeOf, hpresent, hlatch, nextDay]
  · refine ⟨_, exec_dayClose_latches hr hday (.inr (.inr ⟨hother, hearlier⟩)), keepsAllBut_of_heard .., ?_⟩
    simp [State.dayLatched, hother, hearlier]
  · obtain ⟨hcap, hnone, hmoved, -⟩ := startClose_movesDay (s.closeOf p) (s.heard ⟨origin, .dayClose p⟩)
    refine ⟨_, exec_dayClose_starts hr hday (.inl hpresent) hidle hlatch, by simp [hcap], by simp [hnone], ?_⟩
    rw [completeOwn_day, hmoved, State.closeOf, if_pos hpresent]
    rfl
  · refine ⟨_, exec_dayClose_latches hr hday (.inr (.inl hlatch)), keepsAllBut_of_heard .., ?_⟩
    simp [dayLatched_again hpresent hlatch]
  · have hother : p.day.toNat ≠ s.day.day := fun h => by simp [h, laterDay] at hlater
    refine ⟨_, exec_dayClose_latches hr hday (.inl hbusy), keepsAllBut_of_heard .., fun hlatch => ?_, fun l hlatch => ?_⟩
    · simp [State.dayLatched, State.closeOf, hother, hlater, hlatch, nextDay]
    · simp [State.dayLatched, State.closeOf, hother, hlater, hlatch, nextDay]
  · have hother : p.day.toNat ≠ s.day.day := fun h => by simp [h, laterDay] at hlater
    obtain ⟨hcap, hnone, hmoved, -⟩ := startClose_movesDay (s.closeOf p) (s.heard ⟨origin, .dayClose p⟩)
    refine ⟨_, exec_dayClose_starts hr hday (.inr hlater) hidle hlatch, by simp [hcap], by simp [hnone], ?_⟩
    rw [completeOwn_day, hmoved, State.closeOf, if_neg hother]
    rfl
  · by_cases hstarts : s.ClosesDay p ∧ s.cap.capture = .idle ∧ s.day.latch = none
    · obtain ⟨hcloses, hidle, hlatch⟩ := hstarts
      refine ⟨_, exec_dayClose_starts hr hday hcloses hidle hlatch, fun h => ?_, fun _ _ _ => sent_of_closed hs hq ?_,
        fun _ h => ?_, fun _ _ _ hdeferred hroom =>
          record_mem_completeOwn_startClose hs hq rfl hdeferred hroom (s.closeOf p), fun hother hearlier => ?_⟩
      · have hnone : p.day.toNat ≠ s.day.day ∧ laterDay p.day.toNat s.day.day = false := by
          simpa [hidle, hlatch] using h
        rcases hcloses with hpresent | hlater
        · exact absurd hpresent hnone.1
        · simp [hnone.2] at hlater
      · simpa using startClose_lnk (s.closeOf p) (s.heard ⟨origin, .dayClose p⟩)
      · simp [hidle, hlatch] at h
      · simp [State.ClosesDay, hother, hearlier] at hcloses
    · have hnone : s.cap.capture ≠ .idle ∨ s.day.latch ≠ none
          ∨ (p.day.toNat ≠ s.day.day ∧ laterDay p.day.toNat s.day.day = false) := by
        simp only [State.ClosesDay] at hstarts
        simp only [Bool.eq_false_iff]
        tauto
      have hown := ownFrame_sender hs hq
      obtain ⟨-, hsender⟩ := linkAfter_of_heard (s := s) (f := ⟨origin, .dayClose p⟩)
        (t := completeOwn (s.ownFrame ⟨origin, .dayClose p⟩) (s.closeResult p) none
          { s.heard ⟨origin, .dayClose p⟩ with day := s.dayLatched p }) (by rw [completeOwn_lnk])
      have hevents (hroom : s.hpt.events.length < 32) :
          (completeOwn (s.ownFrame ⟨origin, .dayClose p⟩) (s.closeResult p) none
            { s.heard ⟨origin, .dayClose p⟩ with day := s.dayLatched p }).hpt.events
            = s.hpt.events ++ [s.record (.requestDone tag (s.closeResult p) none)] := by
        rw [hown, completeOwn_room (tag := tag) rfl (by simpa using hroom)]
        simp [State.record]
      refine ⟨_, exec_dayClose_latches hr hday hnone, fun _ => hsender _ _ hs hq, fun hcloses hidle hlatch => ?_,
        fun hcloses _ hroom => ?_, fun hcloses hidle hlatch => ?_, fun hother hearlier hroom => ⟨?_, ?_⟩⟩
      · exact absurd ⟨hcloses, hidle, hlatch⟩ hstarts
      · rw [hevents hroom, State.closeResult, if_pos hcloses]
      · exact absurd ⟨hcloses, hidle, hlatch⟩ hstarts
      · simp [State.dayLatched, hother, hearlier]
      · rw [hevents hroom, State.closeResult, if_neg (by simp [hother, hearlier])]
  · have hother : dayTagOf f.payload ≠ dayTag (s.heard f).day.day := by simpa [dayTag] using htag
    obtain ⟨htkt, hclt, hcap, hlbl⟩ := receiveDayFrame_otherDay_keeps hother none
    have heq := receiveDayFrame_otherDay hother none
    obtain ⟨hlnk, -⟩ := linkAfter_of_heard (s := s) (f := f) (t := receiveDayFrame f none (s.heard f))
      (by rw [receiveDayFrame_lnk])
    have htst := heard_tst_receiver hs
    refine ⟨_, exec_dayFrame hlow hhigh, ?_⟩
    rw [acceptDayFrame, acceptFrame_heard hr hp, ownFrame_receiver hs]
    refine ⟨by simpa using htkt, by simpa using hclt, by simpa using hcap, by simpa using hlbl, hlnk hs, ?_⟩
    rintro next rfl
    simp only [heard_keeps] at heq
    refine ⟨fun hnext hlatch => ?_, fun hnext hlatch => ?_, fun hnext => ?_⟩
    · rw [if_pos (by exact hnext), if_pos (Option.isSome_iff_ne_none.mpr hlatch)] at heq
      rw [heq]
      refine ⟨fun hplace => ?_, fun hfull => ?_⟩
      · rw [deferFrame, if_pos (by simpa using hplace)]
        exact ⟨by simp, by simp, htst, by simp⟩
      · have hreports := (State.Reports.of_same (s := s) (t := s.heard f) (by simp) (by simp)).thenMismatch
          (by simpa using Nat.lt_succ_of_lt hroom) .deferredFull none none
        rw [deferFrame, if_neg (by simpa using hfull)]
        exact ⟨by simp, hreports.queued _ (by simp), hreports.raw (by simp), fun _ => hreports.moves rfl⟩
    · rw [if_pos (by exact hnext), if_neg (by simp [hlatch])] at heq
      rw [heq, hearLaterDay_day]
      refine ⟨by simp [nextDay], fun hfirst => ?_, fun hagain => ?_⟩
      · obtain ⟨hevents, hcount⟩ := hearLaterDay_first (day := nextDay s.day.day) (s := s.heard f)
          (by simpa using hfirst) (by simp; omega)
        rw [hevents, hcount]
        simp [nextDay]
      · obtain ⟨hhpt, htst', hhlm⟩ := hearLaterDay_again (day := nextDay s.day.day) (s := s.heard f)
          (by simpa using hagain)
        exact ⟨hhpt.trans (by simp), htst'.trans htst, hhlm.trans (by simp)⟩
    · rw [if_neg (by exact hnext)] at heq
      rw [heq]
      exact ⟨by simp, by simp, htst, by simp⟩
  · rw [exec_closeStart, startLatched_quiet h]
  · obtain ⟨c, hc⟩ := Option.isSome_iff_exists.mp hlatch
    obtain ⟨-, hnone, -⟩ := startClose_movesDay c s
    rw [exec_closeStart, startLatched_starts hc hidle]
    exact ⟨_, rfl, hnone⟩
  · rw [exec_joinDay hasked, joinDayOwner, if_pos (by simpa [State.notRunning] using h)]
  · rw [exec_joinDay hasked, joinDayOwner, if_neg (by simp [State.notRunning, hrunning, hbehind]), if_pos hbusy]
  · obtain ⟨-, hnone, -, hslot⟩ := startClose_movesDay { newDay := s.day.highest, late := true, forced := false }
      (answer .ok [] s)
    exact ⟨_, (exec_joinDay hasked).trans (congrArg _ (joinDayOwner_starts hrunning hbehind hidle)), hslot, hnone⟩

end Sys2Proof.Machine
end

section
/-! SUPPORT. The deferred receive list and the close start: what the first seven steps do is the same whatever is deferred, and
the deferred frames follow (R166, R167). -/

namespace Sys2Proof.Machine

/-! ### A station with nothing deferred -/

/-- The station with an empty deferred receive list. -/
def State.undeferred (s : State) : State := { s with day.deferred := [] }

theorem queueEvent_undeferred (e : Event) (s : State) : queueEvent e s.undeferred = (queueEvent e s).undeferred := by
  unfold queueEvent
  rw [apply_ite State.undeferred]
  rfl

theorem moveAttribute_undeferred (a : Attribute) (raw : Nat) (s : State) :
    moveAttribute a raw s.undeferred = (moveAttribute a raw s).undeferred := by
  by_cases h : min raw 65535 = (s.hlm.attributes.get a).raw
  · rw [moveAttribute_same h, moveAttribute_same (by exact h)]
  · have hsame : s.undeferred.hlm = s.hlm ∧ s.undeferred.figures = s.figures := ⟨rfl, rfl⟩
    unfold moveAttribute
    dsimp only
    rw [hsame.1, hsame.2, if_neg h, if_neg h, apply_ite State.undeferred, ← queueEvent_undeferred]
    rfl

theorem endFrame_dayClosed_undeferred (f : TxFrame) (s : State) :
    endFrame f .dayClosed s.undeferred = (endFrame f .dayClosed s).undeferred := by
  cases f with
  | item | cancelExpiry | daysum | censusAsk | censusReply | censusTx | beacon => rfl
  | txClose | voidLine => exact queueEvent_undeferred _ (freeReservation s)
  | _ => exact queueEvent_undeferred _ s

theorem endFrames_dayClosed_undeferred (l : List TxFrame) (s : State) :
    endFrames .dayClosed l s.undeferred = (endFrames .dayClosed l s).undeferred :=
  (List.foldl_hom State.undeferred fun u f => endFrame_dayClosed_undeferred f u)

theorem clearDayScoped_undeferred (s : State) : clearDayScoped s.undeferred = (clearDayScoped s).undeferred :=
  (List.foldl_hom State.undeferred fun u a => moveAttribute_undeferred a 0 u)

/-- The first seven steps of a close start do the same whatever is deferred (R167). -/
theorem advanceDay_undeferred (c : LatchedClose) (s : State) :
    advanceDay c s.undeferred = (advanceDay c s).undeferred := by
  have hcleared : clearDay c s.undeferred = (clearDay c s).undeferred := by
    have hempty : emptyDay c s.undeferred = (emptyDay c s).undeferred := rfl
    have hrestart (u : State) : restartSerials u.undeferred = (restartSerials u).undeferred := rfl
    have hlnk : s.undeferred.lnk = s.lnk := rfl
    rw [clearDay_eq, clearDay_eq, hempty, hlnk, endFrames_dayClosed_undeferred, hrestart, clearDayScoped_undeferred]
  have hcopy (u : State) : handCopy s.day.day c u.undeferred = (handCopy s.day.day c u).undeferred := rfl
  have hsettle (u : State) : settleBehind u.undeferred = (settleBehind u).undeferred := by
    rw [settleBehind_eq, settleBehind_eq]
    rfl
  have hday : s.undeferred.day.day = s.day.day := rfl
  rw [advanceDay_eq, advanceDay_eq, hcleared, hday, hcopy, hsettle]

theorem moveBacklogItem_undeferred (s : State) : moveBacklogItem s.undeferred = (moveBacklogItem s).undeferred := by
  have hplace (day : Nat) (u : State) : placeDaysum day u.undeferred = (placeDaysum day u).undeferred := by
    cases hslot : u.recordSlot day with
    | none =>
      have hslot' : u.undeferred.recordSlot day = none := hslot
      simp only [placeDaysum, hslot, hslot']
      rfl
    | some slot =>
      have hslot' : u.undeferred.recordSlot day = some slot := hslot
      rw [placeDaysum_held hslot, placeDaysum_held hslot']
      rfl
  have hsame : s.undeferred.lnk = s.lnk ∧ s.undeferred.order = s.order := ⟨rfl, rfl⟩
  unfold moveBacklogItem
  dsimp only
  rw [hsame.1, hsame.2]
  split
  · rfl
  · split
    · split <;> rfl
    · split
      · exact hplace _ { s with lnk.backlog := _ }
      · rfl

theorem fillStationPlaces_undeferred (n : Nat) (s : State) :
    fillStationPlaces n s.undeferred = (fillStationPlaces n s).undeferred := by
  induction n generalizing s with
  | zero => rfl
  | succ n ih =>
    unfold fillStationPlaces
    rw [moveBacklogItem_undeferred, ih, apply_ite State.undeferred]
    rfl

theorem heard_undeferred (f : Frame) (s : State) : s.undeferred.heard f = (s.heard f).undeferred := by
  have htaken : takeOwnFrame s.undeferred = (takeOwnFrame s).undeferred :=
    fillStationPlaces_undeferred _ (restartBeacon { stopSending (dropHead s) with lnk.clash := 0 })
  have hrefresh (u : State) : refreshRoster f.origin.toNat u.undeferred = (refreshRoster f.origin.toNat u).undeferred := by
    unfold refreshRoster
    rw [apply_ite State.undeferred]
    rfl
  unfold State.heard
  rw [← hrefresh, htaken]
  exact congrArg _ (apply_ite State.undeferred (s.sends f = true) (takeOwnFrame s) (stopSending s)).symm

/-! ### The state on which a close starts (R164, R165, R169) -/

/-- The station whose close a command starts: a DAYCLOSE has been heard, and JOIN_DAY answered. -/
def State.opened (s : State) (i : Instr) : State :=
  match i with
  | .dayCloseAccepted origin p => s.heard ⟨origin, .dayClose p⟩
  | .joinDay => answer .ok [] s
  | _ => s

/-- The frame whose request completes after the close start (R163). -/
def State.openingFrame (s : State) (i : Instr) : Option TxFrame :=
  match i with
  | .dayCloseAccepted origin p => s.ownFrame ⟨origin, .dayClose p⟩
  | _ => none

/-- What a command leaves before the close that it starts (R56, R59, R60, R169). -/
structure State.Opens (s u : State) (heard : Option (BitVec 4)) (own : Option Nat) (slot : Slot) : Prop where
  hpt : u.hpt = { s.hpt with slot := slot }
  keeps : u.power = s.power ∧ u.wch = s.wch ∧ u.cap = s.cap ∧ u.lbl = s.lbl ∧ u.tkt = s.tkt ∧ u.clt = s.clt
    ∧ u.day = s.day ∧ u.hlm = s.hlm
  tst : ∃ reads, u.tst = { s.tst with ops := s.tst.ops ++ reads } ∧ DaysumReads reads
    ∧ (own = none ∨ s.lnk.backlog = Backlog.none → reads = [])
  removed : u.lnk.queue.filter TxFrame.isDayScoped = s.lnk.queue.filter TxFrame.isDayScoped
  behind : own ≠ none → (s.lnk.queue.filter TxFrame.isDayScoped).length < s.lnk.queue.length
  roster : ∀ k : BitVec 4, (k = s.hpt.straps.station ∨ (Table.get u.lnk.roster k.toNat).isSome = true)
    ↔ k = s.hpt.straps.station ∨ (Table.get s.lnk.roster k.toNat).isSome = true ∨ heard = some k
  quiet : heard = none → u.lnk = s.lnk
  receiver : own = none → heard ≠ none → u.lnk = s.linkHeard u
  sent : ∀ tag head rest, own = some tag → s.lnk.queue = head :: rest →
    ∀ t : State, t.lnk = { u.lnk.closed with roster := t.lnk.roster } → s.Sent t (rest.filter fun f => !f.isDayScoped)

/-- A station that hears nothing keeps its link. -/
theorem opens_unheard {s u : State} {slot : Slot} (hu : u = { s with hpt.slot := slot }) :
    s.Opens u none none slot := by
  subst hu
  exact ⟨rfl, ⟨rfl, rfl, rfl, rfl, rfl, rfl, rfl, rfl⟩, ⟨[], by simp, by simp [DaysumReads], fun _ => rfl⟩, rfl,
    fun h => absurd rfl h, by simp, fun _ => rfl, fun _ h => absurd rfl h, by simp⟩

/-- The roster of a station that has heard a frame names its origin (R60). -/
theorem heard_roster_isSome (f : Frame) (s : State) (k : BitVec 4) :
    (k = s.hpt.straps.station ∨ (Table.get (s.heard f).lnk.roster k.toNat).isSome = true)
      ↔ k = s.hpt.straps.station ∨ (Table.get s.lnk.roster k.toNat).isSome = true ∨ some f.origin = some k := by
  rw [heard_roster, Option.some.injEq]
  by_cases hown : f.origin = s.hpt.straps.station
  · rw [refreshRoster_own (congrArg BitVec.toNat hown)]
    constructor
    · tauto
    · rintro (h | h | rfl) <;> tauto
  · by_cases hk : k = f.origin
    · subst hk
      have hfresh := refreshRoster_eq (origin := f.origin.toNat) (s := s)
        (fun h => hown (BitVec.eq_of_toNat_eq h))
      simp [hfresh, Table.get_put_same]
    · rw [refreshRoster_other fun h => hk (BitVec.eq_of_toNat_eq h)]
      have hne : f.origin ≠ k := fun h => hk h.symm
      simp [hne]

theorem opens_receiver {s : State} {origin : BitVec 4} {p : DayClosePayload}
    (hs : s.sends ⟨origin, .dayClose p⟩ = false) :
    s.Opens (s.heard ⟨origin, .dayClose p⟩) (some origin) none s.hpt.slot := by
  have hlnk : (s.heard ⟨origin, .dayClose p⟩).lnk = s.linkHeard (s.heard ⟨origin, .dayClose p⟩) :=
    congrArg State.lnk (heard_receiver hs)
  exact ⟨by simp, by simp, ⟨[], by simp [heard_tst_receiver hs], by simp [DaysumReads], fun _ => rfl⟩,
    by rw [hlnk]; rfl, fun h => absurd rfl h, heard_roster_isSome _ s, nofun, fun _ _ => hlnk, nofun⟩

theorem opens_sender {s : State} {origin : BitVec 4} {p : DayClosePayload} {tag day : Nat} {forced : Bool}
    {rest : List TxFrame} (hs : s.sends ⟨origin, .dayClose p⟩ = true)
    (hq : s.lnk.queue = .dayClose tag day forced :: rest) :
    s.Opens (s.heard ⟨origin, .dayClose p⟩) (some origin) (some tag) s.hpt.slot := by
  obtain ⟨reads, htst, hreads, hdays⟩ := heard_tst_sender hs
  have hfilter : s.lnk.queue.filter TxFrame.isDayScoped = rest.filter TxFrame.isDayScoped := by
    simp [hq, TxFrame.isDayScoped, TxFrame.cls, within]
  refine ⟨by simp, by simp, ⟨reads, htst, hreads, fun h => hdays ?_⟩, by rw [heard_dayFrames hs hq, hfilter], fun _ => ?_,
    heard_roster_isSome _ s, nofun, nofun, fun _ head rest' _ hq' t ht => sent_of_closed hs hq' ht⟩
  · simpa [Backlog.none] using congrArg Backlog.days (h.resolve_left nofun)
  · rw [hfilter, hq, List.length_cons]
    exact Nat.lt_succ_of_le (List.length_filter_le ..)

theorem completeOwn_none (code : ResultCode) (ticket : Option Nat) (s : State) :
    completeOwn none code ticket s = s := rfl

/-- The commands that start a close do so on the state that they have opened, and then complete the sender's request (R163
to R165, R169; assumption 15). -/
theorem exec_startsClose {s : State} {i : Instr} {c : LatchedClose} {heard : Option (BitVec 4)} {own : Option Nat}
    {slot : Slot} (h : s.StartsClose i c heard own slot) :
    exec i s = .next (completeOwn (s.openingFrame i) .ok none (startClose c (s.opened i)))
      ∧ (s.openingFrame i).bind TxFrame.tag = own ∧ s.Opens (s.opened i) heard own slot := by
  obtain ⟨hidle, ⟨origin, p, rfl, hr, hday, hlatch, hclose, hforced, rfl, rfl, hown⟩ | ⟨rfl, hlatch, rfl, rfl, rfl⟩
    | ⟨rfl, hasked, hrunning, hbehind, rfl, rfl, rfl, rfl⟩⟩ := h
  · have hcloses : s.ClosesDay p := hclose.imp And.left And.left
    have hc : c = s.closeOf p := by
      obtain ⟨newDay, late, forced⟩ := c
      obtain rfl : forced = p.forced := hforced
      rcases hclose with ⟨hpresent, rfl, rfl⟩ | ⟨hlater, rfl, rfl⟩
      · simp [State.closeOf, hpresent, nextDay]
      · have hother : p.day.toNat ≠ s.day.day := fun h => by simp [h, laterDay] at hlater
        simp [State.closeOf, hother, nextDay]
    refine ⟨hc ▸ exec_dayClose_starts hr hday hcloses hidle hlatch, ?_⟩
    rcases hown with ⟨hs, rfl⟩ | ⟨hs, tag, day, forced, rest, hq, rfl⟩
    · exact ⟨by simp [State.openingFrame, ownFrame_receiver hs], opens_receiver hs⟩
    · exact ⟨by simp [State.openingFrame, ownFrame_sender hs hq, TxFrame.tag], opens_sender hs hq⟩
  · refine ⟨?_, rfl, opens_unheard rfl⟩
    rw [exec_closeStart, startLatched_starts hlatch hidle]
    exact congrArg _ (completeOwn_none ..).symm
  · refine ⟨?_, rfl, opens_unheard rfl⟩
    rw [exec_joinDay hasked, joinDayOwner_starts hrunning hbehind hidle]
    exact congrArg _ (completeOwn_none ..).symm

end Sys2Proof.Machine
end

section
/-! SUPPORT and the proof about the close start: what it leaves of each block with nothing deferred, and the deferred frames
that follow it (R57, R114, R132, R147, R163, R166, R167, R177). -/

namespace Sys2Proof.Machine

/-! ### The request that completes after the close -/

/-- A request that completes hands nothing, unless its event finds no room (R189). -/
theorem completeOwn_tst (own : Option TxFrame) (code : ResultCode) (ticket : Option Nat) (s : State) :
    ∃ after, (completeOwn own code ticket s).tst = { s.tst with ops := s.tst.ops ++ after }
      ∧ ((own.bind TxFrame.tag ≠ none → s.hpt.events.length < 32) → after = []) := by
  by_cases hroom : own.bind TxFrame.tag ≠ none → s.hpt.events.length < 32
  · refine ⟨[], ?_, fun _ => rfl⟩
    by_cases hown : own.bind TxFrame.tag = none
    · simp [completeOwn, hown]
    · simp [completeOwn_events (hroom hown)]
  · obtain ⟨after, hafter⟩ := isPrefix_completeOwn (List.prefix_refl s.tst.ops) own code ticket
    refine ⟨after, ?_, fun h => absurd h hroom⟩
    rw [withoutOps_congr (completeOwn_withoutOps own code ticket s), hafter]

/-- The events of a request that completes with room (R163). -/
theorem completeOwn_hpt {own : Option TxFrame} {s : State}
    (hroom : own.bind TxFrame.tag ≠ none → s.hpt.events.length < 32) (code : ResultCode) (ticket : Option Nat) :
    (completeOwn own code ticket s).hpt = { s.hpt with events := s.hpt.events
        ++ ((own.bind TxFrame.tag).map fun tag => s.record (.requestDone tag code ticket)).toList }
      ∧ (completeOwn own code ticket s).hlm = s.hlm := by
  cases htag : own.bind TxFrame.tag with
  | none => simp [completeOwn, htag]
  | some tag => simp [completeOwn_room htag (hroom (by simp [htag]))]

/-! ### What a close start hands and queues (R132, R147, R167, R177) -/

section
variable {s u : State} {heard : Option (BitVec 4)} {own : Option Nat} {slot : Slot}

theorem State.Opens.record (h : s.Opens u heard own slot) : u.record = s.record := by
  funext e
  simp [State.record, h.hpt]

/-- With room for every frame of the queue the close is quiet (R178, R189). -/
theorem State.Opens.closesQuietly (h : s.Opens u heard own slot) (hroom : s.CloseRoom) : u.ClosesQuietly := by
  obtain ⟨hplaces, hthreshold⟩ := hroom
  obtain ⟨-, -, -, -, -, -, -, hhlm⟩ := h.keeps
  have hfewer := List.length_filter_le TxFrame.isDayScoped s.lnk.queue
  refine ⟨?_, by rwa [hhlm]⟩
  rw [h.hpt, h.removed]
  exact Nat.le_trans (Nat.add_le_add_left hfewer _) hplaces

/-- With room there is a place left for the request of the sender (R163). -/
theorem State.Opens.roomLeft (h : s.Opens u heard own slot) (hroom : s.CloseRoom) (hown : own ≠ none)
    (c : LatchedClose) : (advanceDay c u).hpt.events.length < 32 := by
  obtain ⟨hhpt, -⟩ := clearDay_quiet (h.closesQuietly hroom) c
  obtain ⟨hplaces, -⟩ := hroom
  have hbehind := h.behind hown
  have htags := List.length_filterMap_le TxFrame.tag (s.lnk.queue.filter TxFrame.isDayScoped)
  simp only [advanceDay_keeps, hhpt, h.removed, h.hpt, List.length_append, List.length_map]
  omega

/-- What a close start hands, in order (R132, R147, R167, R172, R177). -/
theorem State.Opens.handed (h : s.Opens u heard own slot) {o : Option TxFrame} (ho : o.bind TxFrame.tag = own)
    (c : LatchedClose) :
    ∃ reads before after, (completeOwn o .ok none (advanceDay c u)).tst = { s.tst with
        ops := s.tst.ops ++ reads ++ .recordWrite [(0, BitVec.ofNat 32 c.newDay)] :: before
          ++ .closeCopy ⟨ringNext 8 s.day.newestSlot, s.day.day, s.hpt.timeOfDay, c.late, c.forced, u.snapshot⟩
            :: after }
      ∧ .recordWrite [(1, BitVec.ofNat 32 (1 + s.lbl.newest * 1048576))] ∈ before
      ∧ (s.CloseRoom → DaysumReads reads ∧ (own = none ∨ s.lnk.backlog = Backlog.none → reads = [])
        ∧ before = .recordWrite [(1, BitVec.ofNat 32 (1 + s.lbl.newest * 1048576))]
            :: (dayScoped.filter fun a => decide ((s.hlm.attributes.get a).raw ≠ 0)).map (fun a =>
              (s.hlm.attributes.get a).closed.stored a)
        ∧ after = []) := by
  obtain ⟨-, -, -, hlbl, -, -, hday, hhlm⟩ := h.keeps
  obtain ⟨reads, htst, hreads, hnone⟩ := h.tst
  obtain ⟨before, hcleared, hlabel⟩ := clearDay_ops c u
  obtain ⟨after, hcompleted, hafter⟩ := completeOwn_tst o .ok none (advanceDay c u)
  rw [hlbl] at hlabel
  refine ⟨reads, before, after, ?_, hlabel, fun hroom => ⟨hreads, hnone, ?_, hafter ?_⟩⟩
  · obtain ⟨-, -, -, -, -, -, -, -, hstore⟩ := advanceDay_keeps c u
    rw [hcompleted, withoutOps_congr hstore, advanceDay_ops, hcleared, htst, hday]
    simp [h.hpt]
  · obtain ⟨-, -, hquiet⟩ := clearDay_quiet (h.closesQuietly hroom) c
    rw [hcleared, hlbl, hhlm] at hquiet
    exact List.tail_eq_of_cons_eq (List.append_cancel_left hquiet)
  · rw [ho]
    exact fun hown => h.roomLeft hroom hown c

/-- With room a close start queues the requests of the frames removed and then the sender's own, and no fault (R57, R84, R105,
R163, R167). -/
theorem State.Opens.completed (h : s.Opens u heard own slot) {o : Option TxFrame} (ho : o.bind TxFrame.tag = own)
    (hroom : s.CloseRoom) (c : LatchedClose) :
    (completeOwn o .ok none (advanceDay c u)).hpt = { s.hpt with
        slot := slot
        events := s.hpt.events
          ++ ((s.lnk.queue.filter TxFrame.isDayScoped).filterMap TxFrame.tag).map (fun tag =>
              s.record (.requestDone tag .dayClosed none))
          ++ (own.map fun tag => s.record (.requestDone tag .ok none)).toList }
      ∧ (completeOwn o .ok none (advanceDay c u)).hlm.newestFault = s.hlm.newestFault
      ∧ (completeOwn o .ok none (advanceDay c u)).hlm.faultCount = s.hlm.faultCount := by
  obtain ⟨-, -, -, -, -, -, -, hhlm⟩ := h.keeps
  obtain ⟨hevents, hattributes, -⟩ := clearDay_quiet (h.closesQuietly hroom) c
  obtain ⟨hhpt, hmonitor⟩ := completeOwn_hpt (own := o) (s := advanceDay c u)
    (by rw [ho]; exact fun hown => h.roomLeft hroom hown c) .ok none
  have hrecord : (advanceDay c u).record = s.record := by
    rw [← h.record]
    funext e
    simp [State.record]
  obtain ⟨-, -, -, hport, hcleared, -⟩ := advanceDay_keeps c u
  refine ⟨?_, ?_, ?_⟩
  · rw [hhpt, hrecord, ho, hport, hevents, h.removed, h.record, h.hpt]
  · rw [hmonitor, hcleared, hattributes, hhlm]
  · rw [hmonitor, hcleared, hattributes, hhlm]

end

/-! ### The deferred frames (R166, R167) -/

/-- What is deferred is of no matter to the command that starts the close. -/
theorem opened_undeferred (i : Instr) (s : State) : s.undeferred.opened i = (s.opened i).undeferred := by
  unfold State.opened
  split
  · exact heard_undeferred _ s
  · rfl
  · rfl

theorem openingFrame_undeferred (i : Instr) (s : State) : s.undeferred.openingFrame i = s.openingFrame i := by
  unfold State.openingFrame
  split <;> rfl

theorem applyDeferredFrame_keeps (s : State) (f : Frame) :
    (applyDeferredFrame s f).day = s.day ∧ (applyDeferredFrame s f).hpt.timeOfDay = s.hpt.timeOfDay := by
  unfold applyDeferredFrame
  dsimp only
  split <;> simp

theorem foldl_applyDeferredFrame_keeps (l : List Frame) (s : State) :
    (l.foldl applyDeferredFrame s).day = s.day ∧ (l.foldl applyDeferredFrame s).hpt.timeOfDay = s.hpt.timeOfDay :=
  ⟨foldl_keeps (·.day) applyDeferredFrame (fun s f => (applyDeferredFrame_keeps s f).1) l s,
    foldl_keeps (·.hpt.timeOfDay) applyDeferredFrame (fun s f => (applyDeferredFrame_keeps s f).2) l s⟩

/-- What the deferred frames do on a day: one of that day is applied after its origin's roster entry is refreshed, another
refreshes the roster alone (R60, R166). -/
def applyDeferredOn (day : Nat) (l : List Frame) (s : State) : State :=
  l.foldl (fun u f =>
    if dayTagOf f.payload = day % 256 then applyDayFrame f none (refreshRoster f.origin.toNat u)
    else refreshRoster f.origin.toNat u) s

/-- The deferred frames are judged by the business day, which none of them moves (R161, R166). -/
theorem foldl_applyDeferredFrame_eq (l : List Frame) (s : State) :
    l.foldl applyDeferredFrame s = applyDeferredOn s.day.day l s := by
  induction l generalizing s with
  | nil => rfl
  | cons f l ih =>
    have hfirst : applyDeferredFrame s f
        = if dayTagOf f.payload = s.day.day % 256 then applyDayFrame f none (refreshRoster f.origin.toNat s)
          else refreshRoster f.origin.toNat s := by
      simp [applyDeferredFrame, dayTag]
    rw [List.foldl_cons, ih, (applyDeferredFrame_keeps s f).1, hfirst]
    rfl

/-- A close start is its first seven steps as with nothing deferred, and then the deferred frames (R166, R167). -/
theorem startClose_deferred (c : LatchedClose) (s : State) :
    startClose c s = applyDeferredOn c.newDay s.day.deferred (advanceDay c s.undeferred) := by
  have hday : (advanceDay c s).undeferred.day.day = c.newDay := by
    simp [State.undeferred, advanceDay_day]
  rw [startClose_eq, advanceDay_undeferred, applyDeferred, advanceDay_deferred]
  exact (foldl_applyDeferredFrame_eq s.day.deferred (advanceDay c s).undeferred).trans (by rw [hday])

theorem applyDeferredOn_keeps (s : State) (l : List Frame) :
    (applyDeferredOn s.day.day l s).day = s.day ∧ (applyDeferredOn s.day.day l s).hpt.timeOfDay = s.hpt.timeOfDay := by
  rw [← foldl_applyDeferredFrame_eq]
  exact foldl_applyDeferredFrame_keeps l s

/-- A frame of the business day that a quiet receiver hears is applied as a deferred one is (R59, R60, R166). -/
theorem acceptDayFrame_quiet {f : Frame} {s : State} (hr : s.receives = true) (hp : payloadInRange f.payload = true)
    (htag : dayTagOf f.payload = s.day.day % 256) (hattempt : s.lnk.attempt = none) (hform : s.lnk.formWaiting = false)
    (hdrive : s.lnk.drive = .recessive) :
    acceptDayFrame f s = applyDayFrame f none (refreshRoster f.origin.toNat s) := by
  have hs : s.sends f = false := by simp [State.sends, hattempt]
  have hstill : stopSending s = s := by
    unfold stopSending
    rw [← hattempt, ← hform, ← hdrive]
  have hheard : s.heard f = refreshRoster f.origin.toNat s := by simp [State.heard, hs, hstill]
  rw [acceptDayFrame, acceptFrame_heard hr hp, hheard, ownFrame_receiver hs, receiveDayFrame]
  simp [judgeTag, dayTag, htag]

/-! ### What a close start leaves of the other blocks -/

section
variable {s u : State} {heard : Option (BitVec 4)} {own : Option Nat} {slot : Slot}

/-- The reservations of the frames that a close removes are all that the queue holds (R129). -/
theorem dayFrames_reserves (l : List TxFrame) :
    (l.filter TxFrame.isDayScoped).filter TxFrame.reserves = l.filter TxFrame.reserves := by
  rw [List.filter_filter]
  refine List.filter_congr fun f _ => ?_
  cases f <;> rfl

theorem State.Opens.lbl (h : s.Opens u heard own slot) (c : LatchedClose) : (advanceDay c u).lbl = { s.lbl with
    nextSerial := 1, reservations := s.lbl.reservations - (s.lnk.queue.filter TxFrame.reserves).length } := by
  obtain ⟨-, -, -, hlbl, -⟩ := h.keeps
  have hlabels : (advanceDay c u).lbl = (clearDay c u).lbl := by simp
  rw [hlabels, clearDay_lbl, hlbl, h.removed, dayFrames_reserves]

theorem State.Opens.attributes (h : s.Opens u heard own slot) (c : LatchedClose) (a : Attribute) :
    (advanceDay c u).hlm.attributes.get a
      = if a ∈ dayScoped then (s.hlm.attributes.get a).closed else s.hlm.attributes.get a := by
  obtain ⟨-, -, -, -, -, -, -, hhlm⟩ := h.keeps
  have hmonitor : (advanceDay c u).hlm = (clearDay c u).hlm := by simp
  rw [hmonitor, clearDay_get, hhlm]

/-- The link after a close start of which no own request is part (R57, R167). -/
theorem State.Opens.lnk_receiver (h : s.Opens u heard own slot) (hown : own = none) {t : State}
    (ht : t.lnk = u.lnk.closed) :
    (heard = none → t.lnk = { s.lnk.closed with roster := t.lnk.roster })
      ∧ (heard ≠ none → t.lnk = { (s.linkHeard t).closed with roster := t.lnk.roster }) := by
  refine ⟨fun hquiet => by rw [ht, h.quiet hquiet], fun hheard => ?_⟩
  rw [h.receiver hown hheard] at ht
  rw [ht]
  rfl

end

/-- Settles O54: the first seven steps on what the command has opened, and the deferred frames after them. -/
theorem closeStartAdvancesTheDay : Obligations.CloseStartAdvancesTheDay := by
  refine ⟨fun s i c heard own slot hstarts hdeferred => ?_, fun s t₀ i c heard own slot apply hstarts ht₀ happly => ?_⟩
  · obtain ⟨hexec, hown, hopens⟩ := exec_startsClose hstarts
    obtain ⟨hpower, hwch, hcap, -, htkt, hclt, hday, -⟩ := hopens.keeps
    rw [startClose_nothingDeferred (by rw [hday, hdeferred])] at hexec
    obtain ⟨reads, before, after, htst, hlabel, hquiet⟩ := hopens.handed hown c
    have hdayUnit := advanceDay_day c (s.opened i)
    rw [hday] at hdayUnit
    have hlnk : (completeOwn (s.openingFrame i) .ok none (advanceDay c (s.opened i))).lnk = (s.opened i).lnk.closed := by
      simp
    refine ⟨_, hexec, ?_, fun k => ?_, ?_, ?_, ?_, fun a ha => ?_, fun a ha => ?_,
      ⟨reads, before, after, (s.opened i).snapshot, ?_, fun k => ?_, hlabel, hquiet⟩,
      fun hroom => hopens.completed hown hroom c, fun hnone => ?_, fun hnone => ?_,
      fun tag head rest htag hq => hopens.sent tag head rest htag hq _ (by rw [hlnk]), ?_, ?_, ?_⟩
    · rw [completeOwn_day, hdayUnit]
      rfl
    · rw [completeOwn_day, hdayUnit]
      by_cases hk : k = ringNext 8 s.day.newestSlot
      · rw [if_pos hk, hk]
        exact Table.get_put_same ..
      · rw [if_neg hk]
        exact Table.get_put_other hk _
    · simp [emptyDay, htkt]
    · simp [emptyDay, hclt]
    · rw [← hopens.lbl c]
      simp
    · have hget := hopens.attributes c a
      rw [if_pos (by exact ha)] at hget
      simpa using hget
    · have hget := hopens.attributes c a
      have hother : a ∉ dayScoped := by
        revert ha
        cases a <;> decide
      rw [if_neg hother] at hget
      simpa using hget
    · rw [completeOwn_day, hdayUnit]
      exact htst
    · rw [snapshot_getLsbD]
      have hstraps : (s.opened i).hpt.straps = s.hpt.straps := by rw [hopens.hpt]
      rw [hstraps]
      exact hopens.roster k
    · obtain ⟨hunheard, hheard⟩ := hopens.lnk_receiver hnone hlnk
      cases heard with
      | none => exact hunheard rfl
      | some k => exact hheard nofun
    · rw [hlnk, closed_roster, hopens.quiet hnone]
    · simpa using hwch
    · simpa using hcap
    · simpa using hpower
  · have hundeferred : s.undeferred.StartsClose i c heard own slot := hstarts
    obtain ⟨hexec, hown, hopens⟩ := exec_startsClose hstarts
    obtain ⟨hexec₀, -, hopens₀⟩ := exec_startsClose hundeferred
    obtain ⟨-, -, -, -, -, -, hday, -⟩ := hopens.keeps
    rw [startClose_deferred, hday] at hexec
    rw [openingFrame_undeferred, startClose_nothingDeferred (by rw [opened_undeferred]; rfl), opened_undeferred] at hexec₀
    rw [opened_undeferred] at hopens₀
    have hroomLeft (hroom : s.CloseRoom) (h : own ≠ none) := hopens₀.roomLeft (by exact hroom) h c
    have hmoved : (advanceDay c (s.opened i).undeferred).day.day = c.newDay := by rw [advanceDay_day]
    have htime : (advanceDay c (s.opened i).undeferred).hpt.timeOfDay = s.hpt.timeOfDay := by
      simp [State.undeferred, hopens.hpt]
    have hnone : (advanceDay c (s.opened i).undeferred).day.deferred = [] := by
      rw [advanceDay_deferred]
      rfl
    obtain rfl := Host.Outcome.next.inj (hexec₀.symm.trans ht₀)
    generalize advanceDay c (s.opened i).undeferred = advanced at *
    obtain ⟨hkept, hclock⟩ := applyDeferredOn_keeps advanced s.day.deferred
    have happly' : apply = applyDeferredOn advanced.day.day s.day.deferred := by
      rw [happly, completeOwn_day]
      rfl
    rw [← hmoved, ← happly'] at hexec
    rw [← happly'] at hkept hclock
    have hreceiver (h : own = none) : exec i s = .next (apply (completeOwn (s.openingFrame i) .ok none advanced)) := by
      have hsame (u : State) : completeOwn (s.openingFrame i) .ok none u = u := by simp [completeOwn, hown, h]
      rw [hexec, hsame, hsame]
    refine ⟨_, hexec, by rw [completeOwn_day, hkept, hnone], fun h => ?_, fun tag v htag hroom hv hplace => ?_,
      fun f h hone hp hlow hhigh htoday hr hattempt hform hdrive => ?_⟩
    · exact Host.Outcome.next.inj (hexec.symm.trans (hreceiver h))
    · rw [htag] at hown
      have hv' : v = apply advanced := by
        rw [hv, completeOwn_room hown (hroomLeft hroom (by simp [htag]))]
        simp
      rw [hv'] at hplace ⊢
      rw [completeOwn_room hown hplace]
      simp [State.record, hclock, htime]
    · rw [hreceiver h, exec_dayFrame hlow hhigh, acceptDayFrame_quiet hr hp htoday hattempt hform hdrive, happly, hone]
      simp [htoday]

end Sys2Proof.Machine
end

section
/-! SUPPORT. What the operations of the other blocks leave of the ticket view and the clerk table. -/

namespace Sys2Proof.Machine

/-- The ticket view and the clerk table are the same. -/
@[simp] abbrev State.KeepsViews (t s : State) : Prop := t.tkt = s.tkt ∧ t.clt = s.clt

/-- What each step of a fold keeps of the views, the fold keeps. -/
theorem foldl_keepsViews {α : Type} (f : State → α → State) (hf : ∀ s a, (f s a).KeepsViews s) (l : List α)
    (s : State) : (l.foldl f s).KeepsViews s :=
  ⟨foldl_keeps (·.tkt) f (fun s a => (hf s a).1) l s, foldl_keeps (·.clt) f (fun s a => (hf s a).2) l s⟩

/-! ### The host port and the walks -/

/-- A block shifted in is the port's alone (R186, R188). -/
theorem takeBlock_eq (mosi : List Byte) (s : State) : takeBlock mosi s = { s with hpt := (takeBlock mosi s).hpt } := by
  unfold takeBlock
  split
  · rfl
  · split
    · rfl
    · dsimp only
      split
      · rfl
      · split <;> rfl

/-- A selection is the port's alone (R186). -/
theorem selection_eq (mosi : List Byte) (s : State) : selection mosi s = { s with hpt := (selection mosi s).hpt } := by
  unfold selection
  split
  · rfl
  · split
    · rfl
    · rfl
    · exact takeBlock_eq mosi _
    · exact takeBlock_eq mosi _

/-- Till its owner takes it, a request is the port's alone (R186). -/
theorem serve_port (i : Instr) (owner : State → State) (s : State) :
    ∃ port, serve i owner s = .next (owner { s with hpt := port })
      ∨ serve i owner s = .next { s with hpt := port } := by
  cases hb : requestBlock i with
  | none => exact ⟨s.hpt, .inr (by simp [serve, hb])⟩
  | some b =>
    by_cases hs : s.hpt.slot = .taken b
    · exact ⟨s.hpt, .inl (serve_asked ⟨b, hb, hs⟩)⟩
    · refine ⟨(selection (blockBytes b) s).hpt, ?_⟩
      rw [← selection_eq, serve_selected hb hs]
      split
      · exact .inl rfl
      · exact .inr rfl

@[simp] theorem walkWord_keepsViews (s : State) : (walkWord s).KeepsViews s := by
  rw [walkWord_eq]
  exact ⟨rfl, rfl⟩

@[simp] theorem walkWords_keepsViews (n : Nat) (s : State) : (walkWords n s).KeepsViews s := by
  induction n generalizing s with
  | zero => exact ⟨rfl, rfl⟩
  | succ n ih => simp [walkWords, ih]

@[simp] theorem evaluateLowFlags_keepsViews (s : State) : (evaluateLowFlags s).KeepsViews s :=
  foldl_keepsViews _ (fun s a => by dsimp only; split <;> simp) allAttributes s

/-! ### The totals store -/

@[simp] theorem handleFinds_keepsViews (finds : List Find) (s : State) : (handleFinds finds s).KeepsViews s :=
  foldl_keepsViews (fun acc f => handleFind f acc) (by simp) finds s

@[simp] theorem scrubStep_keepsViews (s : State) : (scrubStep s).KeepsViews s := by
  unfold scrubStep
  dsimp only
  split <;> simp

@[simp] theorem scrubSteps_keepsViews (n : Nat) (s : State) : (scrubSteps n s).KeepsViews s := by
  induction n generalizing s with
  | zero => exact ⟨rfl, rfl⟩
  | succ n ih => simp [scrubSteps, ih]

@[simp] theorem runPending_keepsViews (s : State) : (runPending s).KeepsViews s := by
  unfold runPending
  split <;> simp

@[simp] theorem scrubAfterOp_keepsViews (s : State) : (scrubAfterOp s).KeepsViews s := by
  unfold scrubAfterOp
  dsimp only
  split <;> simp

@[simp] theorem scrubRequest_keepsViews (s : State) : (scrubRequest s).KeepsViews s := by
  unfold scrubRequest
  dsimp only
  split <;> simp

@[simp] theorem journalAnswer_keepsViews (newest slot : Nat) (words : List JudgedWord) (s : State) :
    (journalAnswer newest slot words s).KeepsViews s := by
  unfold journalAnswer
  dsimp only
  split <;> simp

@[simp] theorem totalsAnswer_keepsViews (g : TotalsGroup) (words : List JudgedWord) (s : State) :
    (totalsAnswer g words s).KeepsViews s := by
  cases g <;> simp [totalsAnswer]

@[simp] theorem dayRecordAnswer_keepsViews (slot : Nat) (words : List JudgedWord) (s : State) :
    (dayRecordAnswer slot words s).KeepsViews s := by
  unfold dayRecordAnswer
  dsimp only
  split <;> simp

@[simp] theorem faultAnswer_keepsViews (count newest slot : Nat) (words : List JudgedWord) (s : State) :
    (faultAnswer count newest slot words s).KeepsViews s := by
  unfold faultAnswer
  dsimp only
  split <;> simp

theorem answerAwaited_keepsViews {answered : State → State} {s : State} (h : (answered s).KeepsViews s) :
    (answerAwaited answered s).KeepsViews s := by
  unfold answerAwaited
  split
  · exact h
  · exact ⟨rfl, rfl⟩

/-! ### Store preparation -/

@[simp] theorem loadLabels_keepsViews (s : State) : (loadLabels s).KeepsViews s := by
  unfold loadLabels
  dsimp only
  split <;> simp

@[simp] theorem loadDay_keepsViews (s : State) : (loadDay s).KeepsViews s := by
  unfold loadDay
  extract_lets m j0 j2 held day newest fresh s1 s2
  have h : s2.KeepsViews s := by
    unfold s2
    split <;> simp [s1]
  split <;> simp [h]

@[simp] theorem loadAttribute_keepsViews (a : Attribute) (s : State) : (loadAttribute a s).KeepsViews s := by
  unfold loadAttribute
  extract_lets j0 j1 bad raw n stored worst r health s'
  split <;> simp [s']

@[simp] theorem loadHealth_keepsViews (s : State) : (loadHealth s).KeepsViews s := by
  have h := foldl_keepsViews (fun acc a => loadAttribute a acc) (by simp) allAttributes s
  unfold loadHealth loadFaultWord
  dsimp only
  split <;> simp [h]

@[simp] theorem endPreparation_keepsViews (r : WalkResult) (s : State) : (endPreparation r s).KeepsViews s := by
  unfold endPreparation
  dsimp only
  split <;> simp

/-! ### The weighing channel -/

@[simp] theorem trackingTest_keepsViews (s : State) : (trackingTest s).KeepsViews s := by
  unfold trackingTest trackingChange
  dsimp only
  repeat' split
  all_goals simp

@[simp] theorem evaluateArrival_keepsViews (s : State) : (evaluateArrival s).KeepsViews s := by
  unfold evaluateArrival takeInitialZero
  dsimp only
  repeat' split
  all_goals simp

@[simp] theorem restoreSamples_keepsViews (s : State) : (restoreSamples s).KeepsViews s := by
  unfold restoreSamples
  split <;> simp

/-! ### Requests that the views do not hear of -/

@[simp] theorem requestFrame_keepsViews (refusals : List (Bool × ResultCode)) {claim : State → State}
    (hclaim : ∀ u, (claim u).KeepsViews u) (frame : Nat → TxFrame) (s : State) :
    (requestFrame refusals claim frame s).KeepsViews s := by
  obtain ⟨r, -, -, h⟩ | ⟨code, -, h⟩ | ⟨-, -, h⟩ := requestFrame_cases refusals claim frame s <;> simp [h, hclaim s]

@[simp] theorem setTimeOwner_keepsViews (time : BitVec 24) (s : State) : (setTimeOwner time s).KeepsViews s := by
  unfold setTimeOwner
  split <;> simp

@[simp] theorem takeEventOwner_keepsViews (s : State) : (takeEventOwner s).KeepsViews s := by
  unfold takeEventOwner
  split <;> simp

@[simp] theorem zeroOwner_keepsViews (s : State) : (zeroOwner s).KeepsViews s := by
  unfold zeroOwner
  dsimp only
  repeat' split
  all_goals simp

@[simp] theorem tareWeighOwner_keepsViews (s : State) : (tareWeighOwner s).KeepsViews s := by
  unfold tareWeighOwner
  dsimp only
  repeat' split
  all_goals simp

@[simp] theorem tareSetOwner_keepsViews (grams : BitVec 16) (s : State) : (tareSetOwner grams s).KeepsViews s := by
  unfold tareSetOwner
  repeat' split
  all_goals simp

@[simp] theorem tareClearOwner_keepsViews (s : State) : (tareClearOwner s).KeepsViews s := by
  unfold tareClearOwner
  split <;> simp

@[simp] theorem weighItemOwner_keepsViews (clerk : Byte) (plu : BitVec 24) (dept : Byte) (price : BitVec 24)
    (given : Byte) (tare : BitVec 16) (s : State) : (weighItemOwner clerk plu dept price given tare s).KeepsViews s := by
  unfold weighItemOwner
  dsimp only
  split <;> simp

@[simp] theorem setWatchOwner_keepsViews (slot form kind : Byte) (value : BitVec 24) (action enable : Byte)
    (s : State) : (setWatchOwner slot form kind value action enable s).KeepsViews s := by
  unfold setWatchOwner
  repeat' split
  all_goals simp

@[simp] theorem clearWatchStatusOwner_keepsViews (set : Byte) (s : State) :
    (clearWatchStatusOwner set s).KeepsViews s := by
  unfold clearWatchStatusOwner
  split <;> simp

@[simp] theorem takeLabelOwner_keepsViews (s : State) : (takeLabelOwner s).KeepsViews s := by
  unfold takeLabelOwner
  split <;> simp

@[simp] theorem readJournalOwner_keepsViews (index : Byte) (s : State) : (readJournalOwner index s).KeepsViews s := by
  unfold readJournalOwner
  dsimp only
  repeat' split
  all_goals simp

@[simp] theorem readOrderOwner_keepsViews (clerk : Byte) (s : State) : (readOrderOwner clerk s).KeepsViews s := by
  unfold readOrderOwner
  split <;> simp

@[simp] theorem readTotalsOwner_keepsViews (group : Byte) (s : State) : (readTotalsOwner group s).KeepsViews s := by
  unfold readTotalsOwner
  split <;> simp

@[simp] theorem readDayRecordOwner_keepsViews (index : Byte) (s : State) :
    (readDayRecordOwner index s).KeepsViews s := by
  unfold readDayRecordOwner
  dsimp only
  repeat' split
  all_goals simp

@[simp] theorem readFaultsOwner_keepsViews (index : Byte) (s : State) : (readFaultsOwner index s).KeepsViews s := by
  unfold readFaultsOwner
  dsimp only
  repeat' split
  all_goals simp

/-! ### The link -/

@[simp] theorem takeOwnFrame_keepsViews (s : State) : (takeOwnFrame s).KeepsViews s := by
  simp [takeOwnFrame]

@[simp] theorem discardDamaged_keepsViews (drive : LinkDrive) (s : State) : (discardDamaged drive s).KeepsViews s := by
  unfold discardDamaged
  dsimp only
  split <;> simp

@[simp] theorem judgeCensus_keepsViews (s : State) : (judgeCensus s).KeepsViews s := by
  unfold judgeCensus
  split <;> simp

@[simp] theorem applyDaysum_keepsViews (origin : Nat) (p : DaysumPayload) (s : State) :
    (applyDaysum origin p s).KeepsViews s := by
  unfold applyDaysum
  split <;> simp

@[simp] theorem applyDaysumAsk_keepsViews (day : BitVec 16) (own : Option TxFrame) (s : State) :
    (applyDaysumAsk day own s).KeepsViews s := by
  unfold applyDaysumAsk
  split <;> simp

@[simp] theorem applyCensusAsk_keepsViews (own : Option TxFrame) (s : State) : (applyCensusAsk own s).KeepsViews s := by
  unfold applyCensusAsk
  split <;> simp

/-! ### Captures -/

theorem offerItem_keepsViews (i : Item) (serial : Nat) (s : State) : (offerItem i serial s).KeepsViews s := by
  unfold offerItem
  repeat' split
  all_goals simp

theorem noted_keepsViews (i : Item) (set : List Match) (s : State) : (s.noted i set).KeepsViews s := by
  have h := foldl_keepsViews (fun acc k => queueEvent (.watchNote k s.lbl.nextSerial) acc) (by simp) (noteSlots set)
    (s.posted i set)
  simpa [State.noted, State.posted] using h

end Sys2Proof.Machine
end

section
/-! SUPPORT. What the operations leave of the ticket view, and which tickets stay bound to no OPEN order. -/

namespace Sys2Proof.Machine

/-! ### Tickets bound to orders -/

theorem bound_eq_false_iff {s : State} {n : Nat} : s.bound n = false ↔ ∀ e ∈ s.clt.orders, e.2.ticket ≠ some n := by
  simp [State.bound]

/-- The order of a clerk holds no ticket that is bound to none. -/
theorem order_ticket_ne {s : State} {clerk n : Nat} {o : Order} (ho : s.order clerk = some o) (hn : s.bound n = false) :
    o.ticket ≠ some n :=
  bound_eq_false_iff.mp hn _ (Table.mem_of_get ho)

theorem putOrder_bound {s : State} {clerk n : Nat} {o : Order} (hn : s.bound n = false) (ho : o.ticket ≠ some n) :
    (putOrder clerk o s).bound n = false := by
  rw [bound_eq_false_iff] at hn ⊢
  intro e he
  obtain rfl | hmem := Table.mem_put he
  · exact ho
  · exact hn e hmem

theorem touchOrder_bound {s : State} {clerk holder n : Nat} {o : Order} (hn : s.bound n = false)
    (ho : o.ticket ≠ some n) : (touchOrder clerk holder o s).bound n = false :=
  putOrder_bound hn ho

theorem freeOrder_bound {s : State} {clerk n : Nat} (hn : s.bound n = false) : (freeOrder clerk s).bound n = false := by
  rw [bound_eq_false_iff] at hn ⊢
  exact fun e he => hn e (Table.mem_del he).1

/-! ### The view kept and no ticket bound -/

/-- The ticket view is the same, and a ticket that was bound to no OPEN order is bound to none. -/
def State.BindsNoMore (t s : State) : Prop := t.tkt = s.tkt ∧ ∀ n, s.bound n = false → t.bound n = false

theorem State.BindsNoMore.of_keepsViews {s t : State} (h : t.KeepsViews s) : t.BindsNoMore s :=
  ⟨h.1, fun n hn => by rwa [bound_congr h.2]⟩

theorem State.BindsNoMore.refl (s : State) : s.BindsNoMore s := .of_keepsViews ⟨rfl, rfl⟩

theorem State.BindsNoMore.trans {s t u : State} (h : u.BindsNoMore t) (g : t.BindsNoMore s) : u.BindsNoMore s :=
  ⟨h.1.trans g.1, fun n hn => h.2 n (g.2 n hn)⟩

/-- What leaves the views binds no more than was bound before. -/
theorem State.BindsNoMore.thenKeeps {s t u : State} (h : t.BindsNoMore s) (g : u.KeepsViews t) : u.BindsNoMore s :=
  .trans (.of_keepsViews g) h

theorem putOrder_bindsNoMore {s : State} {o : Order} (ho : ∀ n, s.bound n = false → o.ticket ≠ some n) (clerk : Nat) :
    (putOrder clerk o s).BindsNoMore s :=
  ⟨by simp, fun n hn => putOrder_bound hn (ho n hn)⟩

theorem touchOrder_bindsNoMore {s : State} {o : Order} (ho : ∀ n, s.bound n = false → o.ticket ≠ some n)
    (clerk holder : Nat) : (touchOrder clerk holder o s).BindsNoMore s :=
  ⟨by simp, fun n hn => touchOrder_bound hn (ho n hn)⟩

theorem freeOrder_bindsNoMore (clerk : Nat) (s : State) : (freeOrder clerk s).BindsNoMore s :=
  ⟨by simp, fun _ hn => freeOrder_bound hn⟩

/-! ### The ends of frames -/

theorem restartExpiry_bindsNoMore (clerk : Nat) (s : State) : (restartExpiry clerk s).BindsNoMore s := by
  unfold restartExpiry
  split
  · exact .refl s
  · next o ho =>
    refine putOrder_bindsNoMore ?_ clerk
    exact fun _ hn => order_ticket_ne (o := o) ho hn

/-- A frame that ends restarts an expiry timer at most (R113). -/
theorem endFrame_bindsNoMore (f : TxFrame) (e : FrameEnd) (s : State) : (endFrame f e s).BindsNoMore s := by
  cases f with
  | cancelExpiry clerk =>
    unfold endFrame
    dsimp only
    split
    · exact restartExpiry_bindsNoMore clerk s
    · exact .refl s
  | item i => cases h : e.lateReason <;> exact .of_keepsViews (by simp [endFrame, h])
  | _ => exact .of_keepsViews (by simp [endFrame])

theorem formHeads_bindsNoMore (n : Nat) (s : State) : (formHeads n s).BindsNoMore s := by
  induction n generalizing s with
  | zero => exact .refl s
  | succ n ih =>
    unfold formHeads
    split
    · exact .refl s
    · next f _ _ =>
      have hdropped : (dropHead s).BindsNoMore s := .of_keepsViews (by simp)
      have hmoved (u : State) : (moveBacklog u).BindsNoMore u := .of_keepsViews (by simp)
      split
      · exact .of_keepsViews ⟨rfl, rfl⟩
      · next e _ => exact (ih _).trans ((hmoved _).trans ((endFrame_bindsNoMore f e _).trans hdropped))
      · exact (ih _).trans ((hmoved _).trans hdropped)
      · exact .of_keepsViews ⟨rfl, rfl⟩

theorem beginAttempt_bindsNoMore (s : State) : (beginAttempt s).BindsNoMore s := formHeads_bindsNoMore _ s

theorem dropFrame_bindsNoMore (s : State) : (dropFrame s).BindsNoMore s := by
  unfold dropFrame
  split
  · exact .refl s
  · next f _ _ =>
    have hmoved (u : State) : (moveBacklog u).BindsNoMore u := .of_keepsViews (by simp)
    exact (hmoved _).trans ((endFrame_bindsNoMore f .dropped _).trans (.of_keepsViews (by simp)))

/-! ### Orders moved by frames -/

theorem applyItem_bindsNoMore (origin : Nat) (p : ItemPayload) (s : State) : (applyItem origin p s).BindsNoMore s := by
  have hticket (n : Nat) (hn : s.bound n = false) : (s.itemOrder origin p).ticket ≠ some n := by
    unfold State.itemOrder
    split
    · exact nofun
    · next o ho => exact order_ticket_ne (o := o) ho hn
  rw [applyItem_eq]
  exact (touchOrder_bindsNoMore hticket p.clerk.toNat origin).thenKeeps (by simp)

theorem voidedView_bindsNoMore (origin : Nat) (p : VoidPayload) (s : State) :
    (voidedView origin p s).BindsNoMore s := by
  unfold voidedView
  split
  · exact .refl s
  · next o ho =>
    refine touchOrder_bindsNoMore (fun n hn => ?_) p.clerk.toNat origin
    obtain ⟨hticket, -⟩ := voidLine_keeps o p
    rw [hticket]
    exact order_ticket_ne ho hn

theorem applyVoid_bindsNoMore (origin : Nat) (p : VoidPayload) (own : Option TxFrame) (s : State) :
    (applyVoid origin p own s).BindsNoMore s := by
  rw [applyVoid_eq]
  exact (voidedView_bindsNoMore origin p s).thenKeeps (by simp)

theorem settleClose_bindsNoMore (p : TxClosePayload) (own : Option TxFrame) (order : Option Order) (s : State) :
    (settleClose p own order s).BindsNoMore s := by
  unfold settleClose
  split
  · split <;> exact .of_keepsViews (by simp)
  · refine (freeOrder_bindsNoMore p.clerk.toNat _).trans ?_
    split <;> exact .of_keepsViews (by simp)

theorem applyTxClose_bindsNoMore (p : TxClosePayload) (own : Option TxFrame) (s : State) :
    (applyTxClose p own s).BindsNoMore s := by
  have hraised : (raiseAt p.clerk.toNat (s.closeMismatch p) s).BindsNoMore s := .of_keepsViews (by simp)
  rw [applyTxClose_eq]
  exact ((settleClose_bindsNoMore p own (s.order p.clerk.toNat) _).trans hraised).thenKeeps (by simp)

theorem applyTxCancel_bindsNoMore (p : TxCancelPayload) (own : Option TxFrame) (s : State) :
    (applyTxCancel p own s).BindsNoMore s := by
  cases ho : s.order p.clerk.toNat with
  | none =>
    rw [applyTxCancel_free ho]
    exact .of_keepsViews (by simp)
  | some o =>
    rw [applyTxCancel_open ho]
    have hposted : (if own.isSome then postCancel o.amount s else s).BindsNoMore s := by
      split <;> exact .of_keepsViews (by simp)
    exact ((freeOrder_bindsNoMore p.clerk.toNat _).trans hposted).thenKeeps (by simp)

/-- A PASS takes its ticket off the order of the clerk, or the whole order away (R95). -/
theorem passedOrder_bindsNoMore (origin clerk : Nat) (s : State) : (passedOrder origin clerk s).BindsNoMore s := by
  unfold passedOrder
  split
  · exact .refl s
  · split
    · exact putOrder_bindsNoMore (by simp) clerk
    · exact freeOrder_bindsNoMore clerk s

theorem noteOpenCount_bindsNoMore (count : Nat) (s : State) : (noteOpenCount count s).BindsNoMore s := by
  unfold noteOpenCount
  split
  · exact ⟨rfl, fun _ hn => hn⟩
  · exact .refl s

/-! ### Expiry and time -/

theorem offerExpiry_bindsNoMore {s : State} {o : Order} (ho : ∀ n, s.bound n = false → o.ticket ≠ some n)
    (clerk : Nat) : (offerExpiry clerk o s).BindsNoMore s := by
  have hput (timer : Option Nat) : (putOrder clerk { o with timer := timer } s).BindsNoMore s := by
    refine putOrder_bindsNoMore ?_ clerk
    exact ho
  unfold offerExpiry
  split
  · exact (hput none).thenKeeps (by simp)
  · exact hput _

/-- The expiry of an order leaves it its ticket (R112). -/
theorem expireOrder_bindsNoMore {s : State} {clerk : Nat} {o : Order} (ho : s.order clerk = some o) :
    (expireOrder clerk o s).BindsNoMore s := by
  unfold expireOrder
  extract_lets s'
  have hkeeps : s'.KeepsViews s := by
    unfold s'
    split <;> simp
  refine (offerExpiry_bindsNoMore (fun n hn => ?_) clerk).trans (.of_keepsViews hkeeps)
  exact order_ticket_ne (o := o) ho (by rwa [← bound_congr hkeeps.2])

/-- The passing of time runs the timers of the orders (R111). -/
theorem tick_bindsNoMore (s : State) : (tick s).BindsNoMore s := by
  unfold tick
  split
  · refine ⟨(walkWord_keepsViews s).1, fun n hn => ?_⟩
    rw [← bound_congr (walkWord_keepsViews s).2, bound_eq_false_iff] at hn
    rw [bound_eq_false_iff]
    intro e he
    obtain ⟨e', he', rfl⟩ := List.mem_map.mp he
    exact hn e' he'
  · exact .refl s

/-! ### Operations of the store -/

theorem finishRead_bindsNoMore (purpose : ReadPurpose) (words : List JudgedWord) (s : State) :
    (finishRead purpose words s).BindsNoMore s := by
  cases purpose with
  | daysum read =>
    unfold finishRead
    dsimp only
    split
    · exact (beginAttempt_bindsNoMore _).trans (.of_keepsViews (by simp))
    · exact .of_keepsViews (by simp)
  | journal | totals | dayRecord | fault => exact .of_keepsViews (answerAwaited_keepsViews (by simp))

theorem finishOp_bindsNoMore (op : Op) (e : OpEffect) (s : State) : (finishOp op e s).BindsNoMore s := by
  cases op with
  | read addresses purpose => exact finishRead_bindsNoMore purpose e.words s
  | counterUpdate slot day station figures =>
    unfold finishOp
    dsimp only
    split <;> exact .of_keepsViews (by simp)
  | _ => exact .of_keepsViews (by simp [finishOp])

theorem performOp_bindsNoMore (op : Op) (rest : List Op) (s : State) : (performOp op rest s).BindsNoMore s := by
  have hfound : (handleFinds (runOp s.tst.mem op).finds
      { s with tst.mem := (runOp s.tst.mem op).mem, tst.ops := rest }).BindsNoMore s := .of_keepsViews (by simp)
  exact ((finishOp_bindsNoMore op (runOp s.tst.mem op) _).trans hfound).thenKeeps (scrubAfterOp_keepsViews _)

theorem performHead_bindsNoMore {isKind : Op → Bool} {s t : State} (h : performHead isKind s = .next t) :
    t.BindsNoMore s := by
  unfold performHead at h
  split at h <;> obtain rfl := Host.Outcome.next.inj h
  · exact .refl s
  · split
    · exact performOp_bindsNoMore _ _ s
    · exact .refl s

end Sys2Proof.Machine
end

section
/-! SUPPORT. The waiting list at each operation that moves it or binds a ticket: a ticket listed, called and passed, the
list rebuilt from the figures of the census, and the stub that a joiner opens (R73, R77, R80, R83, R87, R88). -/

namespace Sys2Proof.Machine

/-! ### A sound waiting list carried over -/

/-- A list shortened stays sound, as long as none of its tickets is bound anew. -/
theorem State.WaitingSound.of_sublist {s t : State} (hs : s.WaitingSound) (hconfig : t.tkt.config = s.tkt.config)
    (hwaiting : t.tkt.waiting.Sublist s.tkt.waiting)
    (hbound : ∀ e ∈ t.tkt.waiting, s.bound e.ticket = false → t.bound e.ticket = false) : t.WaitingSound := by
  obtain ⟨hwrap, hlength, hnodup, hfree⟩ := hs
  exact ⟨by rwa [hconfig], hwaiting.length_le.trans hlength, (hwaiting.map _).nodup hnodup,
    fun e he => hbound e he (hfree e (hwaiting.subset he))⟩

theorem State.WaitingSound.of_bindsNoMore {s t : State} (hs : s.WaitingSound) (h : t.BindsNoMore s) : t.WaitingSound :=
  hs.of_sublist (by rw [h.1]) (by rw [h.1]) fun e _ => h.2 e.ticket

theorem State.WaitingSound.of_keepsViews {s t : State} (hs : s.WaitingSound) (h : t.KeepsViews s) : t.WaitingSound :=
  hs.of_bindsNoMore (.of_keepsViews h)

theorem State.WaitingSound.of_emptyList {s t : State} (hs : s.WaitingSound) (hconfig : t.tkt.config = s.tkt.config)
    (h : t.tkt.waiting = []) : t.WaitingSound :=
  hs.of_sublist hconfig (by simp [h]) (by simp [h])

/-- The wrap in use, with or without a CONFIGURE (R70). -/
theorem State.WaitingSound.wrap {s : State} (hs : s.WaitingSound) :
    s.ticketConfig.wrap = 99 ∨ s.ticketConfig.wrap = 999 := by
  obtain ⟨hwrap, -⟩ := hs
  cases h : s.tkt.config with
  | none => simp [State.ticketConfig, h]
  | some c => simpa [State.ticketConfig, h] using hwrap c h

/-! ### A ticket listed (R77, R83) -/

/-- A ticket that is not on the list and not bound joins a list that is not full. -/
theorem State.WaitingSound.append {s : State} (hs : s.WaitingSound) {e : WaitEntry} (hwaits : s.waits e.ticket = false)
    (hfree : s.bound e.ticket = false) (hroom : s.tkt.waiting.length < 48) :
    { s with tkt.waiting := s.tkt.waiting ++ [e] }.WaitingSound := by
  obtain ⟨hwrap, -, hnodup, hbound⟩ := hs
  refine ⟨hwrap, ?_, ?_, fun e' he' => ?_⟩
  · simpa using hroom
  · have hnew : ∀ e' ∈ s.tkt.waiting, e'.ticket ≠ e.ticket := by simpa [State.waits] using hwaits
    simpa [List.nodup_append, hnodup] using hnew
  · rcases List.mem_append.mp he' with hold | hnew
    · exact hbound e' hold
    · obtain rfl := List.mem_singleton.mp hnew
      exact hfree

theorem listTicket_waitingSound {s : State} (hs : s.WaitingSound) (e : WaitEntry) (duplicate bound : MismatchKind) :
    (listTicket e duplicate bound s).WaitingSound := by
  cases hk : s.listMismatch e.ticket duplicate bound with
  | none =>
    obtain ⟨hwaits, hfree, hroom⟩ := listMismatch_eq_none.mp hk
    rw [listTicket_listed hk]
    exact hs.append hwaits hfree hroom
  | some k =>
    rw [listTicket_raised hk]
    exact hs.of_keepsViews (by simp)

/-! ### ISSUE, CALL and PASS -/

theorem applyIssue_waitingSound {s : State} (hs : s.WaitingSound) (origin : Nat) (p : IssuePayload)
    (own : Option TxFrame) : (applyIssue origin p own s).WaitingSound := by
  have hlisted : (listIssued origin p.ticket.toNat s).WaitingSound := by
    have hview : (issuedView p.ticket.toNat s).WaitingSound := hs
    unfold listIssued
    split
    · exact hview
    · exact listTicket_waitingSound hview ..
  rw [applyIssue_eq]
  exact hlisted.of_keepsViews (by simp)

/-- A CALL takes its ticket off the list before it binds it (R80, R94). -/
theorem applyCall_waitingSound {s : State} (hs : s.WaitingSound) (origin : Nat) (p : TicketPayload)
    (own : Option TxFrame) : (applyCall origin p own s).WaitingSound := by
  have htkt := (applyCall_tkt origin p own s).trans (calledView_tkt ..)
  refine hs.of_sublist (by rw [htkt]) (by rw [htkt]; exact List.filter_sublist) fun e he hfree => ?_
  have hother : e.ticket ≠ p.ticket.toNat := by
    rw [htkt] at he
    exact of_decide_eq_true (List.mem_filter.mp he).2
  rw [bound_congr (applyCall_clt origin p own s)]
  refine touchOrder_bound hfree ?_
  rw [calledOrder_ticket]
  exact fun h => hother (Option.some.inj h).symm

theorem requeuePassed_waitingSound {s : State} (hs : s.WaitingSound) (ticket passes : Nat) (own : Option TxFrame) :
    (requeuePassed ticket passes own s).WaitingSound := by
  have hended {u : State} (hu : u.WaitingSound) : (endTicket own u).WaitingSound := by
    obtain ⟨-, -, htkt, hclt, -⟩ := endTicket_same own u
    exact hu.of_keepsViews ⟨htkt, hclt⟩
  obtain ⟨-, heq⟩ | ⟨-, -, heq⟩ | ⟨-, -, heq⟩ := requeuePassed_cases ticket passes own s <;> rw [heq]
  · exact hs
  · exact hended hs
  · dsimp only
    split
    · exact hended (listTicket_waitingSound hs ..)
    · exact listTicket_waitingSound hs ..

/-- A PASS takes its ticket off the order before it lists it (R83, R95). -/
theorem applyPass_waitingSound {s : State} (hs : s.WaitingSound) (origin : Nat) (p : TicketPayload)
    (own : Option TxFrame) : (applyPass origin p own s).WaitingSound := by
  have hview : (passedView origin p.ticket.toNat p.clerk.toNat s).WaitingSound := by
    obtain ⟨-, htkt, hclt⟩ := passedView_keeps origin p.ticket.toNat p.clerk.toNat s
    obtain ⟨-, hbinds⟩ := passedOrder_bindsNoMore origin p.clerk.toNat s
    refine hs.of_sublist (by rw [htkt]) (by rw [htkt]) fun e _ hfree => ?_
    rw [bound_congr hclt]
    exact hbinds e.ticket hfree
  have hlisted := requeuePassed_waitingSound hview p.ticket.toNat
    (readPasses p.ticket.toNat (Table.get s.tkt.passes p.clerk.toNat) + 1) own
  rw [applyPass_eq]
  exact hlisted.of_keepsViews (by simp)

/-- A frame of classes 1..7 applied leaves the waiting list sound. -/
theorem applyDayFrame_waitingSound {s : State} (hs : s.WaitingSound) (f : Frame) (own : Option TxFrame) :
    (applyDayFrame f own s).WaitingSound := by
  unfold applyDayFrame
  dsimp only
  split
  · exact applyCall_waitingSound hs ..
  · exact applyIssue_waitingSound hs ..
  · exact applyPass_waitingSound hs ..
  · exact hs.of_bindsNoMore (applyTxClose_bindsNoMore ..)
  · exact hs.of_bindsNoMore (applyTxCancel_bindsNoMore ..)
  · exact hs.of_bindsNoMore (applyVoid_bindsNoMore ..)
  · exact hs.of_bindsNoMore (applyItem_bindsNoMore ..)
  all_goals exact hs

/-! ### The list rebuilt (R87) -/

/-- Above the own range the successors are the numbers that follow. -/
theorem ticketsFrom_above {wrap n : Nat} (hn : wrap < n) (fuel : Nat) :
    ticketsFrom wrap n fuel = List.range' (n + 1) fuel := by
  induction fuel generalizing n with
  | zero => rfl
  | succ fuel ih =>
    have hnext : nextTicket wrap n = n + 1 := if_neg (Nat.ne_of_gt hn)
    rw [ticketsFrom, hnext, ih (by omega), List.range'_succ]

/-- No more successors than the wrap has numbers are all different (R71). -/
theorem ticketsFrom_nodup {wrap fuel : Nat} (hfuel : fuel ≤ wrap) (n : Nat) : (ticketsFrom wrap n fuel).Nodup := by
  rcases Nat.lt_or_ge wrap n with habove | hwithin
  · rw [ticketsFrom_above habove]
    exact List.nodup_range'
  · rcases Nat.eq_zero_or_pos wrap with hzero | hwrap
    · obtain rfl : fuel = 0 := by omega
      exact List.nodup_nil
    · rw [ticketsFrom_eq hwrap hwithin]
      refine List.nodup_range.map_on fun j hj k hk heq => ?_
      have hsame : n + j ≡ n + k [MOD wrap] := Nat.succ.inj heq
      exact (Nat.ModEq.add_left_cancel' n hsame).eq_of_lt_of_lt ((List.mem_range.mp hj).trans_le hfuel)
        ((List.mem_range.mp hk).trans_le hfuel)

@[simp] theorem ticketsFrom_length (wrap n fuel : Nat) : (ticketsFrom wrap n fuel).length = fuel := by
  induction fuel generalizing n with
  | zero => rfl
  | succ fuel ih => simp [ticketsFrom, ih]

/-- The tickets of a rebuilt list. -/
theorem rebuiltWaiting_tickets (s : State) (issued called : Nat) :
    (s.rebuiltWaiting issued called).map WaitEntry.ticket =
      (ticketsFrom s.ticketConfig.wrap called (min (waitingSpan s.ticketConfig.wrap issued called) 48)).filter
        fun n => !s.bound n := by
  simp [State.rebuiltWaiting, Function.comp_def]

/-- A joiner rebuilds its list from at most 48 successors, and leaves the bound ones out (R87). -/
theorem takeFigures_waitingSound {s : State} (hs : s.WaitingSound) (f : TicketFigures) :
    (takeFigures f s).WaitingSound := by
  have hbound : (takeFigures f s).bound = s.bound := bound_congr (by unfold takeFigures; dsimp only; split <;> simp)
  have hwrap := hs.wrap
  obtain ⟨hconfig, hlength, hnodup, hfree⟩ := hs
  rw [State.WaitingSound, hbound, takeFigures_tkt]
  refine ⟨hconfig, ?_⟩
  dsimp only
  split
  · generalize newest s.ticketConfig.wrap f.issued s.tkt.issued = issued
    generalize newest s.ticketConfig.wrap f.called s.tkt.called = called
    have htickets := rebuiltWaiting_tickets s issued called
    refine ⟨?_, ?_, fun e he => ?_⟩
    · have hle := List.length_filter_le (fun n => !s.bound n)
        (ticketsFrom s.ticketConfig.wrap called (min (waitingSpan s.ticketConfig.wrap issued called) 48))
      rw [← htickets, List.length_map, ticketsFrom_length] at hle
      omega
    · rw [htickets]
      exact (ticketsFrom_nodup (by omega) called).filter _
    · have hmem := List.mem_map_of_mem (f := WaitEntry.ticket) he
      rw [htickets] at hmem
      simpa using (List.mem_filter.mp hmem).2
  · exact ⟨hlength, hnodup, hfree⟩

theorem applyFigures_waitingSound {s : State} (hs : s.WaitingSound) (f : TicketFigures) :
    (applyFigures f s).WaitingSound := by
  unfold applyFigures
  split
  · exact hs.of_sublist (by simp) (by simp) fun e _ hfree => by
      rwa [bound_congr (s := s) (by simp)]
  · split
    · exact takeFigures_waitingSound hs f
    · exact hs

/-! ### The stub of a joiner (R88, R110) -/

/-- A stub's ticket leaves the list before the stub opens (R88). -/
theorem applyCensusTx_waitingSound {s : State} (hs : s.WaitingSound) (p : CensusTxPayload) :
    (applyCensusTx p s).WaitingSound := by
  unfold applyCensusTx
  split
  · by_cases hnone : p.ticket = 0
    · rw [if_pos hnone]
      exact hs.of_bindsNoMore (touchOrder_bindsNoMore (by simp [hnone, Order.opening]) ..)
    · rw [if_neg hnone]
      refine hs.of_sublist rfl List.filter_sublist fun e he hfree => touchOrder_bound hfree ?_
      have hother : e.ticket ≠ p.ticket.toNat := of_decide_eq_true (List.mem_filter.mp he).2
      dsimp only [Order.opening]
      rw [if_neg hnone]
      exact fun h => hother (Option.some.inj h).symm
  · exact hs

/-! ### Close starts (R90, R114, R167) -/

theorem applyDeferredFrame_waitingSound {s : State} (hs : s.WaitingSound) (f : Frame) :
    (applyDeferredFrame s f).WaitingSound := by
  have hrefreshed : (refreshRoster f.origin.toNat s).WaitingSound := hs.of_keepsViews (by simp)
  unfold applyDeferredFrame
  dsimp only
  split
  · exact applyDayFrame_waitingSound hrefreshed f none
  · exact hrefreshed

theorem applyDeferred_waitingSound {s : State} (hs : s.WaitingSound) : (applyDeferred s).WaitingSound := by
  have hfold (l : List Frame) {u : State} (hu : u.WaitingSound) : (l.foldl applyDeferredFrame u).WaitingSound := by
    induction l generalizing u with
    | nil => exact hu
    | cons f l ih => exact ih (applyDeferredFrame_waitingSound hu f)
  unfold applyDeferred
  exact hfold s.day.deferred (u := { s with day.deferred := [] }) hs

/-- A close start empties the list before the deferred frames are applied (R90, R166, R167). -/
theorem startClose_waitingSound {s : State} (hs : s.WaitingSound) (c : LatchedClose) :
    (startClose c s).WaitingSound := by
  have hadvanced : (advanceDay c s).WaitingSound := hs.of_emptyList (by simp [emptyDay]) (by simp [emptyDay])
  rw [startClose_eq]
  exact applyDeferred_waitingSound hadvanced

theorem startLatched_waitingSound {s : State} (hs : s.WaitingSound) : (startLatched s).WaitingSound := by
  unfold startLatched
  split
  · exact hs
  · split
    · exact startClose_waitingSound hs _
    · exact hs

theorem beginClose_waitingSound {s : State} (hs : s.WaitingSound) (c : LatchedClose) :
    (beginClose c s).WaitingSound := by
  unfold beginClose
  split
  · exact startClose_waitingSound hs c
  · exact hs

theorem applyDayClose_waitingSound {s : State} (hs : s.WaitingSound) (p : DayClosePayload) (own : Option TxFrame) :
    (applyDayClose p own s).WaitingSound := by
  have hcompleted {u : State} (hu : u.WaitingSound) (code : ResultCode) : (completeOwn own code none u).WaitingSound :=
    hu.of_keepsViews (by simp)
  unfold applyDayClose
  dsimp only
  split
  · refine hcompleted ?_ .ok
    split
    · exact hs
    · exact beginClose_waitingSound hs _
  · split
    · refine hcompleted ?_ .ok
      split
      · exact beginClose_waitingSound hs _
      · exact hs
    · exact hcompleted hs .dayClosed

/-! ### Accepted frames -/

theorem receiveDayFrame_waitingSound {s : State} (hs : s.WaitingSound) (f : Frame) (own : Option TxFrame) :
    (receiveDayFrame f own s).WaitingSound := by
  unfold receiveDayFrame
  split
  · exact applyDayFrame_waitingSound hs f own
  · obtain ⟨htkt, hclt, -⟩ := deferFrame_keeps f s
    exact hs.of_keepsViews ⟨htkt, hclt⟩
  · exact hs.of_keepsViews (by simp)
  · exact hs

/-- A frame heard leaves the views till it is applied (R56, R59). -/
theorem acceptFrame_cases (f : Frame) (apply : Option TxFrame → State → State) (s : State) :
    ∃ u : State, u.KeepsViews s ∧ (acceptFrame f apply s = u ∨ ∃ own, acceptFrame f apply s = apply own u) := by
  unfold acceptFrame
  dsimp only
  split
  · exact ⟨s, ⟨rfl, rfl⟩, .inl rfl⟩
  · split
    · exact ⟨_, discardDamaged_keepsViews _ s, .inl rfl⟩
    · refine ⟨_, ?_, .inr ⟨_, rfl⟩⟩
      split <;> simp

theorem acceptFrame_keepsViews (f : Frame) {apply : Option TxFrame → State → State}
    (ha : ∀ own u, (apply own u).KeepsViews u) (s : State) : (acceptFrame f apply s).KeepsViews s := by
  obtain ⟨u, hu, heq | ⟨own, heq⟩⟩ := acceptFrame_cases f apply s <;> rw [heq]
  · exact hu
  · exact ⟨(ha own u).1.trans hu.1, (ha own u).2.trans hu.2⟩

theorem acceptFrame_waitingSound {s : State} (hs : s.WaitingSound) (f : Frame) {apply : Option TxFrame → State → State}
    (ha : ∀ (own : Option TxFrame) (u : State), u.WaitingSound → (apply own u).WaitingSound) :
    (acceptFrame f apply s).WaitingSound := by
  obtain ⟨u, hu, heq | ⟨own, heq⟩⟩ := acceptFrame_cases f apply s <;> rw [heq]
  · exact hs.of_keepsViews hu
  · exact ha own u (hs.of_keepsViews hu)

theorem acceptDayFrame_waitingSound {s : State} (hs : s.WaitingSound) (f : Frame) : (acceptDayFrame f s).WaitingSound :=
  acceptFrame_waitingSound hs f fun own _ hu => receiveDayFrame_waitingSound hu f own

theorem applyCensusReply_waitingSound {s : State} (hs : s.WaitingSound) (origin : Nat) (p : CensusReplyPayload) :
    (applyCensusReply origin p s).WaitingSound := by
  have hfigures := applyFigures_waitingSound (hs.of_keepsViews (t := setRoster origin p.day.toNat none s) (by simp))
    (replyFigures p)
  exact (hfigures.of_bindsNoMore (noteOpenCount_bindsNoMore p.openOrders.toNat _)).of_keepsViews
    (by simp [applyCensusReply, replyFigures])

theorem applyBeacon_waitingSound {s : State} (hs : s.WaitingSound) (origin : Nat) (p : BeaconPayload) :
    (applyBeacon origin p s).WaitingSound := by
  have hfigures := applyFigures_waitingSound
    (hs.of_keepsViews (t := setRoster origin p.day.toNat (some p.lockedOut) s) (by simp)) (beaconFigures p)
  exact hfigures.of_keepsViews (by simp [applyBeacon, beaconFigures])

/-! ### Captures -/

theorem becomeIdle_waitingSound {s : State} (hs : s.WaitingSound) : (becomeIdle s).WaitingSound :=
  startLatched_waitingSound (s := s.idled) hs

theorem postItem_waitingSound {s : State} (hs : s.WaitingSound) (i : Item) (set : List Match) :
    (postItem i set s).WaitingSound := by
  have hnoted := hs.of_keepsViews (noted_keepsViews i set s)
  have hoffered := hnoted.of_keepsViews (offerItem_keepsViews i s.lbl.nextSerial _)
  rw [postItem_eq]
  exact becomeIdle_waitingSound (hoffered.of_keepsViews (by simp))

theorem endCapture_waitingSound {s : State} (hs : s.WaitingSound) (tag : Nat) (result : ResultCode) :
    (endCapture tag result s).WaitingSound := by
  obtain ⟨-, -, -, -, htkt, hclt, -⟩ := reported_keeps tag result s
  rw [endCapture_eq]
  exact becomeIdle_waitingSound (hs.of_keepsViews ⟨htkt, hclt⟩)

theorem completeCapture_waitingSound {s : State} (hs : s.WaitingSound) (r : CaptureRequest) (m : Measure) :
    (completeCapture r m s).WaitingSound := by
  unfold completeCapture
  extract_lets i set unit marked
  have hmarked : marked.WaitingSound := hs
  split
  · exact endCapture_waitingSound hs _ _
  · split
    · exact hmarked.of_keepsViews (by simp)
    · split
      · exact endCapture_waitingSound hmarked _ _
      · exact postItem_waitingSound hmarked _ _

theorem stableReading_waitingSound {s : State} (hs : s.WaitingSound) (gross : Int) :
    (stableReading gross s).WaitingSound := by
  unfold stableReading
  split
  · exact hs
  · exact hs
  · dsimp only
    split
    · exact endCapture_waitingSound hs _ _
    · split
      · exact hs
      · split
        · exact hs
        · exact completeCapture_waitingSound hs _ _

theorem offerReading_waitingSound {s : State} (hs : s.WaitingSound) : (offerReading s).WaitingSound := by
  unfold offerReading
  split
  · exact stableReading_waitingSound hs _
  · exact hs

theorem arrival_waitingSound {s : State} (hs : s.WaitingSound) (count : Int) : (arrival count s).WaitingSound := by
  unfold arrival
  split
  · exact hs.of_keepsViews (by simp [limitArrival])
  · split
    · exact hs.of_keepsViews (by simp [limitArrival])
    · unfold ordinaryArrival
      dsimp only
      split
      · exact hs.of_keepsViews (by simp)
      · exact offerReading_waitingSound (hs.of_keepsViews (by simp))

end Sys2Proof.Machine
end

section
/-! SUPPORT and the proof that every step keeps the waiting list sound: the requests, and the commands one by one. -/

namespace Sys2Proof.Machine

/-! ### Requests -/

/-- An owner that leaves the ticket view and binds no ticket has a request that does so too. -/
theorem serve_bindsNoMore (i : Instr) {owner : State → State} (ho : ∀ u : State, (owner u).BindsNoMore u) {s t : State}
    (h : serve i owner s = .next t) : t.BindsNoMore s := by
  obtain ⟨port, ht | ht⟩ := serve_port i owner s <;> obtain rfl := Host.Outcome.next.inj (ht.symm.trans h)
  · exact (ho { s with hpt := port }).trans (.of_keepsViews ⟨rfl, rfl⟩)
  · exact .of_keepsViews ⟨rfl, rfl⟩

theorem serve_bindsNoMore_of_keepsViews (i : Instr) {owner : State → State} (ho : ∀ u : State, (owner u).KeepsViews u)
    {s t : State} (h : serve i owner s = .next t) : t.BindsNoMore s :=
  serve_bindsNoMore i (fun u => .of_keepsViews (ho u)) h

theorem serve_waitingSound (i : Instr) {owner : State → State}
    (ho : ∀ u : State, u.WaitingSound → (owner u).WaitingSound) {s t : State} (hs : s.WaitingSound)
    (h : serve i owner s = .next t) : t.WaitingSound := by
  obtain ⟨port, ht | ht⟩ := serve_port i owner s <;> obtain rfl := Host.Outcome.next.inj (ht.symm.trans h)
  · exact ho _ hs
  · exact hs

/-- CONFIGURE takes no wrap but 99 and 999 (R70, R192). -/
theorem configureOwner_waitingSound {s : State} (hs : s.WaitingSound) (c : ConfigBlock) :
    (configureOwner c s).WaitingSound := by
  unfold configureOwner
  split
  · exact hs
  · split
    · next hrange =>
      have hwrap : c.wrap.toNat = 99 ∨ c.wrap.toNat = 999 := by
        simp only [configInRange, Bool.and_eq_true] at hrange
        simp_all
      obtain ⟨-, hlist⟩ := hs
      have hset : (takeSettings c (answer .ok [] s)).WaitingSound :=
        ⟨fun c' hc' => by obtain rfl := Option.some.inj hc'; exact hwrap, hlist⟩
      exact hset.of_keepsViews (by simp)
    · exact hs

/-- A station begins with the views that it has (R193). -/
theorem startOwner_bindsNoMore (s : State) : (startOwner s).BindsNoMore s := by
  unfold startOwner
  split
  · exact .of_keepsViews ⟨rfl, rfl⟩
  · exact ⟨rfl, fun _ hn => hn⟩

/-- RESTART empties the list (R194, Table 4-8). -/
theorem restartOwner_waitingSound {s : State} (hs : s.WaitingSound) : (restartOwner s).WaitingSound := by
  unfold restartOwner
  split
  · exact hs
  · have hreset : (softReset s).WaitingSound := hs.of_emptyList rfl rfl
    exact hreset.of_keepsViews (by simp)

theorem countItemOwner_waitingSound {s : State} (hs : s.WaitingSound) (clerk : Byte) (plu : BitVec 24) (dept : Byte)
    (price : BitVec 24) (quantity : Byte) : (countItemOwner clerk plu dept price quantity s).WaitingSound := by
  unfold countItemOwner
  dsimp only
  split
  · exact hs
  · exact completeCapture_waitingSound (hs.of_keepsViews (by simp)) _ _

theorem abortCaptureOwner_waitingSound {s : State} (hs : s.WaitingSound) : (abortCaptureOwner s).WaitingSound := by
  unfold abortCaptureOwner
  split
  · exact hs
  · split
    · exact hs
    · exact hs
    · exact endCapture_waitingSound (s := answer .ok [] s) hs _ _

theorem releaseHeldOwner_waitingSound {s : State} (hs : s.WaitingSound) : (releaseHeldOwner s).WaitingSound := by
  unfold releaseHeldOwner
  split
  · exact hs
  · split
    · exact hs
    · exact hs
    · split
      · exact hs
      · split
        · exact hs
        · exact postItem_waitingSound (s := answer .ok [] s) hs _ _

theorem discardHeldOwner_waitingSound {s : State} (hs : s.WaitingSound) : (discardHeldOwner s).WaitingSound := by
  unfold discardHeldOwner
  split
  · exact hs
  · split
    · exact hs
    · exact hs
    · exact becomeIdle_waitingSound (hs.of_keepsViews (by simp))

theorem joinDayOwner_waitingSound {s : State} (hs : s.WaitingSound) : (joinDayOwner s).WaitingSound := by
  unfold joinDayOwner
  split
  · exact hs
  · split
    · exact hs
    · exact startClose_waitingSound (s := answer .ok [] s) hs _

theorem failAttempt_keepsViews (s : State) : (failAttempt s).KeepsViews s := by
  obtain ⟨-, -, -, htkt, hclt, -⟩ := failAttempt_keeps s
  exact ⟨htkt, hclt⟩

end Sys2Proof.Machine

namespace Sys2Proof

/-- The commands that may change the ticket view or bind a ticket: the supply and the resets, CONFIGURE and RESTART, the
commands that may start a close, the accepted frames of classes 1..7, and the census frames that the ticket view
hears. -/
def Instr.movesTickets (i : Instr) : Bool :=
  match i with
  | .powerOn _ _ | .mainPowerFail | .resetAssert | .resetRelease _ | .configure _ | .restart
  | .countItem _ _ _ _ _ | .abortCapture | .releaseHeld | .discardHeld | .joinDay | .sampleArrival _ _
  | .captureTimerExpiry | .holdTimerExpiry | .dayCloseAccepted _ _ | .callAccepted _ _ | .issueAccepted _ _
  | .passAccepted _ _ | .txCloseAccepted _ _ | .txCancelAccepted _ _ | .voidAccepted _ _ | .itemAccepted _ _
  | .censusReplyAccepted _ _ | .censusTxAccepted _ _ | .beaconAccepted _ _ | .closeStart => true
  | _ => false

end Sys2Proof

namespace Sys2Proof.Machine

/-! ### The commands that move no ticket -/

/-- Every command outside that list leaves the ticket view, and binds no ticket. -/
theorem exec_bindsNoMore {i : Instr} {s t : State} (hi : i.movesTickets = false) (h : exec i s = .next t) :
    t.BindsNoMore s := by
  cases i with
  | powerOn | mainPowerFail | resetAssert | resetRelease | configure | restart | countItem | abortCapture | releaseHeld
  | discardHeld | joinDay | sampleArrival | captureTimerExpiry | holdTimerExpiry | dayCloseAccepted | callAccepted
  | issueAccepted | passAccepted | txCloseAccepted | txCancelAccepted | voidAccepted | itemAccepted
  | censusReplyAccepted | censusTxAccepted | beaconAccepted | closeStart => cases hi
  | verificationWalkEnd =>
    simp only [exec, execVerificationWalkEnd] at h
    split at h
    · split at h <;> obtain rfl := Host.Outcome.next.inj h
      · exact .of_keepsViews (by simp)
      · refine .of_keepsViews ?_
        split <;> simp
    · obtain rfl := Host.Outcome.next.inj h
      exact .of_keepsViews ⟨rfl, rfl⟩
  | initializationWalkEnd =>
    simp only [exec, execInitializationWalkEnd] at h
    split at h <;> obtain rfl := Host.Outcome.next.inj h
    · exact .of_keepsViews (by simp)
    · exact .refl s
  | selectionEnd mosi =>
    obtain rfl := Host.Outcome.next.inj h
    rw [selection_eq]
    exact .of_keepsViews ⟨rfl, rfl⟩
  | start => exact serve_bindsNoMore .start startOwner_bindsNoMore h
  | setTime time => exact serve_bindsNoMore_of_keepsViews (.setTime time) (setTimeOwner_keepsViews time) h
  | readStatus => exact serve_bindsNoMore_of_keepsViews .readStatus (owner := readStatusOwner) (fun _ => ⟨rfl, rfl⟩) h
  | takeEvent => exact serve_bindsNoMore_of_keepsViews .takeEvent takeEventOwner_keepsViews h
  | zero => exact serve_bindsNoMore_of_keepsViews .zero zeroOwner_keepsViews h
  | tareWeigh => exact serve_bindsNoMore_of_keepsViews .tareWeigh tareWeighOwner_keepsViews h
  | tareSet grams => exact serve_bindsNoMore_of_keepsViews (.tareSet grams) (tareSetOwner_keepsViews grams) h
  | tareClear => exact serve_bindsNoMore_of_keepsViews .tareClear tareClearOwner_keepsViews h
  | readWeight => exact serve_bindsNoMore_of_keepsViews .readWeight (owner := readWeightOwner) (fun _ => ⟨rfl, rfl⟩) h
  | weighItem clerk plu dept price given tare =>
    exact serve_bindsNoMore_of_keepsViews (.weighItem clerk plu dept price given tare)
      (weighItemOwner_keepsViews clerk plu dept price given tare) h
  | setWatch slot form kind value action enable =>
    exact serve_bindsNoMore_of_keepsViews (.setWatch slot form kind value action enable)
      (setWatchOwner_keepsViews slot form kind value action enable) h
  | clearWatchStatus slots =>
    exact serve_bindsNoMore_of_keepsViews (.clearWatchStatus slots) (clearWatchStatusOwner_keepsViews slots) h
  | readWatches =>
    exact serve_bindsNoMore_of_keepsViews .readWatches (owner := readWatchesOwner) (fun _ => ⟨rfl, rfl⟩) h
  | takeLabel => exact serve_bindsNoMore_of_keepsViews .takeLabel takeLabelOwner_keepsViews h
  | readJournal index =>
    exact serve_bindsNoMore_of_keepsViews (.readJournal index) (readJournalOwner_keepsViews index) h
  | issueTicket =>
    exact serve_bindsNoMore_of_keepsViews .issueTicket (owner := issueTicketOwner) (by simp [issueTicketOwner]) h
  | callNext clerk =>
    exact serve_bindsNoMore_of_keepsViews (.callNext clerk) (owner := callNextOwner clerk) (by simp [callNextOwner]) h
  | passTicket clerk =>
    exact serve_bindsNoMore_of_keepsViews (.passTicket clerk) (owner := passTicketOwner clerk)
      (by simp [passTicketOwner]) h
  | readTickets =>
    exact serve_bindsNoMore_of_keepsViews .readTickets (owner := readTicketsOwner) (fun _ => ⟨rfl, rfl⟩) h
  | totalOrder clerk =>
    exact serve_bindsNoMore_of_keepsViews (.totalOrder clerk) (owner := totalOrderOwner clerk)
      (by simp [totalOrderOwner]) h
  | cancelOrder clerk =>
    exact serve_bindsNoMore_of_keepsViews (.cancelOrder clerk) (owner := cancelOrderOwner clerk)
      (by simp [cancelOrderOwner]) h
  | voidLine clerk line =>
    exact serve_bindsNoMore_of_keepsViews (.voidLine clerk line) (owner := voidLineOwner clerk line)
      (by simp [voidLineOwner]) h
  | readOrder clerk => exact serve_bindsNoMore_of_keepsViews (.readOrder clerk) (readOrderOwner_keepsViews clerk) h
  | closeDay forced =>
    exact serve_bindsNoMore_of_keepsViews (.closeDay forced) (owner := closeDayOwner forced) (by simp [closeDayOwner]) h
  | askDaysum day =>
    exact serve_bindsNoMore_of_keepsViews (.askDaysum day) (owner := askDaysumOwner day) (by simp [askDaysumOwner]) h
  | readDayRecord index =>
    exact serve_bindsNoMore_of_keepsViews (.readDayRecord index) (readDayRecordOwner_keepsViews index) h
  | readTotals group =>
    exact serve_bindsNoMore_of_keepsViews (.readTotals group) (readTotalsOwner_keepsViews group) h
  | readHealth => exact serve_bindsNoMore_of_keepsViews .readHealth (owner := readHealthOwner) (fun _ => ⟨rfl, rfl⟩) h
  | readFaults index =>
    exact serve_bindsNoMore_of_keepsViews (.readFaults index) (readFaultsOwner_keepsViews index) h
  | clearStoreLatch =>
    exact serve_bindsNoMore_of_keepsViews .clearStoreLatch (owner := clearStoreLatchOwner) (fun _ => ⟨rfl, rfl⟩) h
  | readRoster => exact serve_bindsNoMore_of_keepsViews .readRoster (owner := readRosterOwner) (fun _ => ⟨rfl, rfl⟩) h
  | sampleWatchdogExpiry =>
    obtain rfl := Host.Outcome.next.inj h
    obtain ⟨-, -, -, -, htkt, hclt, -⟩ := loseSamples_keeps s
    split
    · exact .of_keepsViews ⟨htkt, hclt⟩
    · exact .refl s
  | beaconTimerExpiry =>
    obtain rfl := Host.Outcome.next.inj h
    split
    · split <;> exact .of_keepsViews ⟨rfl, rfl⟩
    · exact .refl s
  | censusTimerExpiry =>
    obtain rfl := Host.Outcome.next.inj h
    split
    · exact .of_keepsViews (by simp [endCensus])
    · exact .refl s
  | rosterAgeExpiry station =>
    obtain rfl := Host.Outcome.next.inj h
    split
    · exact .refl s
    · split <;> exact .of_keepsViews ⟨rfl, rfl⟩
  | orderExpiry clerk =>
    simp only [exec, execOrderExpiry] at h
    split at h <;> obtain rfl := Host.Outcome.next.inj h
    · exact .refl s
    · next o ho =>
      split
      · exact expireOrder_bindsNoMore ho
      · exact .refl s
  | timeOfDayTick =>
    obtain rfl := Host.Outcome.next.inj h
    split <;> exact .of_keepsViews ⟨rfl, rfl⟩
  | scrubRequest =>
    obtain rfl := Host.Outcome.next.inj h
    split
    · exact .of_keepsViews (scrubRequest_keepsViews s)
    · exact .refl s
  | storeRead | storeUpdate | itemPosting | journalAppend | takenFlagUpdate | counterUpdate | recordWrite | closeCopy =>
    exact performHead_bindsNoMore h
  | linkAttemptStart =>
    obtain rfl := Host.Outcome.next.inj h
    split
    · exact beginAttempt_bindsNoMore s
    · exact .refl s
  | arbitrationLost =>
    obtain rfl := Host.Outcome.next.inj h
    split <;> exact .of_keepsViews ⟨rfl, rfl⟩
  | attemptBitError =>
    obtain rfl := Host.Outcome.next.inj h
    have hfailed : (failAttempt { s with lnk.clash := s.lnk.clash + 1 }).BindsNoMore s :=
      .of_keepsViews (failAttempt_keepsViews _)
    split
    · exact .refl s
    · dsimp only
      split
      · obtain ⟨-, -, htkt, hclt, -⟩ := fallSilent_keeps (failAttempt { s with lnk.clash := s.lnk.clash + 1 })
        exact hfailed.thenKeeps ⟨htkt, hclt⟩
      · split
        · exact (dropFrame_bindsNoMore _).trans hfailed
        · exact hfailed
  | attemptObjected =>
    obtain rfl := Host.Outcome.next.inj h
    have hfailed : (failAttempt s).BindsNoMore s := .of_keepsViews (failAttempt_keepsViews s)
    split
    · exact .refl s
    · dsimp only
      split
      · exact (dropFrame_bindsNoMore _).trans hfailed
      · exact hfailed
  | frameDamaged frame =>
    obtain rfl := Host.Outcome.next.inj h
    split
    · exact .refl s
    · split
      · exact .of_keepsViews ⟨rfl, rfl⟩
      · exact .of_keepsViews (discardDamaged_keepsViews _ s)
  | daysumAccepted origin p =>
    obtain rfl := Host.Outcome.next.inj h
    exact .of_keepsViews (acceptFrame_keepsViews _ (fun _ u => applyDaysum_keepsViews origin.toNat p u) s)
  | daysumAskAccepted origin day =>
    obtain rfl := Host.Outcome.next.inj h
    exact .of_keepsViews (acceptFrame_keepsViews _ (applyDaysumAsk_keepsViews day) s)
  | censusAskAccepted origin =>
    obtain rfl := Host.Outcome.next.inj h
    exact .of_keepsViews (acceptFrame_keepsViews _ applyCensusAsk_keepsViews s)
  | vretDisturbance address flips =>
    obtain rfl := Host.Outcome.next.inj h
    exact .of_keepsViews ⟨rfl, rfl⟩

/-! ### Every step -/

theorem beginPreparation_waitingSound (kind : WalkKind) (straps : Straps) (m : Memory) (pending : List Instr) :
    (beginPreparation kind straps m pending).WaitingSound :=
  State.fresh_waitingSound ..

/-- A command that ends in a next state keeps the waiting list sound. -/
theorem exec_waitingSound {i : Instr} {s t : State} (hs : s.WaitingSound) (h : exec i s = .next t) :
    t.WaitingSound := by
  by_cases hi : i.movesTickets = false
  · exact hs.of_bindsNoMore (exec_bindsNoMore hi h)
  cases i with
  | powerOn straps retainOk =>
    obtain rfl := Host.Outcome.next.inj h
    split
    · exact State.fresh_waitingSound ..
    · exact beginPreparation_waitingSound ..
  | mainPowerFail =>
    obtain rfl := Host.Outcome.next.inj h
    exact State.fresh_waitingSound ..
  | resetAssert =>
    obtain rfl := Host.Outcome.next.inj h
    split
    · exact hs
    · exact hs
    · exact hs
    · exact State.fresh_waitingSound ..
  | resetRelease straps =>
    obtain rfl := Host.Outcome.next.inj h
    split
    · exact hs
    · exact hs
    · exact hs
    · exact beginPreparation_waitingSound ..
  | configure c => exact serve_waitingSound (.configure c) (fun _ hu => configureOwner_waitingSound hu c) hs h
  | restart => exact serve_waitingSound .restart (fun _ hu => restartOwner_waitingSound hu) hs h
  | countItem clerk plu dept price quantity =>
    exact serve_waitingSound (.countItem clerk plu dept price quantity)
      (fun _ hu => countItemOwner_waitingSound hu clerk plu dept price quantity) hs h
  | abortCapture => exact serve_waitingSound .abortCapture (fun _ hu => abortCaptureOwner_waitingSound hu) hs h
  | releaseHeld => exact serve_waitingSound .releaseHeld (fun _ hu => releaseHeldOwner_waitingSound hu) hs h
  | discardHeld => exact serve_waitingSound .discardHeld (fun _ hu => discardHeldOwner_waitingSound hu) hs h
  | joinDay => exact serve_waitingSound .joinDay (fun _ hu => joinDayOwner_waitingSound hu) hs h
  | sampleArrival bits value =>
    obtain rfl := Host.Outcome.next.inj h
    split
    · exact arrival_waitingSound hs _
    · exact hs
  | captureTimerExpiry =>
    simp only [exec, execCaptureTimerExpiry] at h
    split at h <;> obtain rfl := Host.Outcome.next.inj h
    · exact endCapture_waitingSound hs _ _
    · exact hs
    · exact hs
  | holdTimerExpiry =>
    simp only [exec, execHoldTimerExpiry] at h
    split at h <;> obtain rfl := Host.Outcome.next.inj h
    · exact becomeIdle_waitingSound (hs.of_keepsViews (by simp))
    · exact hs
    · exact hs
  | dayCloseAccepted origin p =>
    obtain rfl := Host.Outcome.next.inj h
    exact acceptFrame_waitingSound hs _ fun own _ hu => applyDayClose_waitingSound hu p own
  | callAccepted | issueAccepted | passAccepted | txCloseAccepted | txCancelAccepted | voidAccepted | itemAccepted =>
    obtain rfl := Host.Outcome.next.inj h
    exact acceptDayFrame_waitingSound hs _
  | censusReplyAccepted origin p =>
    obtain rfl := Host.Outcome.next.inj h
    exact acceptFrame_waitingSound hs _ fun _ _ hu => applyCensusReply_waitingSound hu origin.toNat p
  | censusTxAccepted origin p =>
    obtain rfl := Host.Outcome.next.inj h
    exact acceptFrame_waitingSound hs _ fun _ _ hu => applyCensusTx_waitingSound hu p
  | beaconAccepted origin p =>
    obtain rfl := Host.Outcome.next.inj h
    exact acceptFrame_waitingSound hs _ fun _ _ hu => applyBeacon_waitingSound hu origin.toNat p
  | closeStart =>
    obtain rfl := Host.Outcome.next.inj h
    exact startLatched_waitingSound hs
  | _ => exact absurd rfl hi

end Sys2Proof.Machine

namespace Sys2Proof.Machine

/-- Settles O9: every command keeps the list sound, and so does the passing of time. -/
theorem stepKeepsTheWaitingListSound : Obligations.StepKeepsTheWaitingListSound := by
  intro s t hs h
  unfold step at h
  split at h
  · obtain rfl := Host.Outcome.next.inj h
    exact hs.of_bindsNoMore (tick_bindsNoMore s)
  · next c rest _ => exact exec_waitingSound (i := c) (s := { s with pending := rest }) hs h

end Sys2Proof.Machine
end

section
/-! SUPPORT. A sound order at each change of its list: opened, a line added, a line voided, and the list lost (R92, R93, R96 to
R98). -/

namespace Sys2Proof.Machine

/-! ### Lines voided -/

/-- The lines with the ones of a number voided (R98). -/
def voidedLines (number : Nat) (lines : List Line) : List Line :=
  lines.map fun x => if x.number = number then { x with voided := true } else x

@[simp] theorem voidedLines_numbers (number : Nat) (lines : List Line) :
    (voidedLines number lines).map Line.number = lines.map Line.number := by
  rw [voidedLines, List.map_map]
  refine List.map_congr_left fun x _ => ?_
  dsimp only [Function.comp_apply]
  split <;> rfl

/-- No line is voided under a number that the list does not hold. -/
theorem voidedLines_of_notMem {number : Nat} {lines : List Line} (h : number ∉ lines.map Line.number) :
    voidedLines number lines = lines := by
  have hother (x : Line) (hx : x ∈ lines) : x.number ≠ number := fun hnumber => h (hnumber ▸ List.mem_map_of_mem hx)
  exact (List.map_congr_left fun x hx => if_neg (hother x hx)).trans (List.map_id lines)

/-- The live lines are the one that is voided and those that stay live (R98). -/
theorem liveLines_perm_voided {l : Line} {lines : List Line} (hl : l ∈ lines) (hlive : l.voided = false)
    (hnumbers : (lines.map Line.number).Nodup) :
    (liveLines lines).Perm (l :: liveLines (voidedLines l.number lines)) := by
  induction lines with
  | nil => cases hl
  | cons x rest ih =>
    obtain ⟨hx, hrest⟩ := List.nodup_cons.mp hnumbers
    rcases List.mem_cons.mp hl with rfl | hmem
    · have hsame : voidedLines l.number rest = rest := voidedLines_of_notMem hx
      have hvoided : voidedLines l.number (l :: rest) = { l with voided := true } :: voidedLines l.number rest := by
        simp [voidedLines]
      simp [hvoided, hsame, liveLines, hlive]
    · have hother : x.number ≠ l.number := fun h => hx (h ▸ List.mem_map_of_mem hmem)
      have hkept : voidedLines l.number (x :: rest) = x :: voidedLines l.number rest := by
        simp [voidedLines, hother]
      rw [hkept]
      cases hxvoid : x.voided with
      | true => simpa [liveLines, hxvoid] using ih hmem hrest
      | false =>
        have hswapped := ((ih hmem hrest).cons x).trans (.swap l x _)
        simpa [liveLines, hxvoid] using hswapped

/-! ### Sound orders -/

/-- A stub has no list to agree with (R92). -/
theorem Order.Sound.of_stub {o : Order} (h : o.lines = none) : o.Sound := by
  simp [Order.Sound, h]

/-- The numbers of a list are all different (R92). -/
theorem Order.Sound.numbers_nodup {o : Order} (ho : o.Sound) {lines : List Line} (h : o.lines = some lines) :
    (lines.map Line.number).Nodup := by
  obtain ⟨-, hnumbers, -⟩ := ho lines h
  rw [hnumbers]
  exact List.nodup_range'

/-- An order opens with an empty list (R94, R96). -/
theorem Order.opening_sound (ticket opened : Option Nat) : (Order.opening ticket opened).Sound := by
  intro lines hlines
  obtain rfl := Option.some.inj hlines
  simp [Order.opening, liveLines]

/-- A list with the line that follows its last one, and its figures with it (R93, R97). -/
theorem Order.Sound.addLine {o : Order} (ho : o.Sound) {l : Line} (hnumber : l.number = o.lineCount + 1)
    (hlive : l.voided = false) (hroom : l.number ≤ 40) :
    Order.Sound { o with
      lineCount := l.number
      itemCount := o.itemCount + 1
      amount := o.amount + l.price
      lines := o.lines.map (· ++ [l]) } := by
  intro lines' hlines'
  obtain ⟨lines, hlines, rfl⟩ := Option.map_eq_some_iff.mp hlines'
  obtain ⟨-, hnumbers, hcount, hamount⟩ := ho lines hlines
  have hall : liveLines (lines ++ [l]) = liveLines lines ++ [l] := by simp [liveLines, hlive]
  refine ⟨hroom, ?_, ?_, ?_⟩
  · simp [hnumbers, hnumber, List.range'_1_concat, Nat.add_comm]
  · simp [hall, hcount]
  · simp [hall, hamount]

/-- A list with one of its live lines voided, and its figures without it (R98). -/
theorem Order.Sound.voidOne {o : Order} (ho : o.Sound) {l : Line} {lines : List Line} (hlines : o.lines = some lines)
    (hl : l ∈ lines) (hlive : l.voided = false) :
    Order.Sound { o.less l.price with lines := some (voidedLines l.number lines) } := by
  have hperm := liveLines_perm_voided hl hlive (ho.numbers_nodup hlines)
  have hlength := hperm.length_eq
  have hsum := (hperm.map Line.price).sum_eq
  obtain ⟨hroom, hnumbers, hcount, hamount⟩ := ho lines hlines
  rw [List.length_cons] at hlength
  rw [List.map_cons, List.sum_cons] at hsum
  intro lines' hlines'
  obtain rfl := Option.some.inj hlines'
  refine ⟨hroom, by simpa [Order.less] using hnumbers, ?_, ?_⟩ <;> dsimp only [Order.less] <;> omega

/-- A VOID leaves an order sound (R98). -/
theorem voidLine_sound {o : Order} (ho : o.Sound) (p : VoidPayload) : (o.voidLine p).1.Sound := by
  cases hlines : o.lines with
  | none =>
    rw [voidLine_stub hlines]
    exact .of_stub hlines
  | some lines =>
    cases hl : o.line p.line.toNat with
    | none =>
      rw [voidLine_absent (by simp [hlines]) hl]
      exact .of_stub rfl
    | some l =>
      cases hvoid : l.voided with
      | true =>
        rw [voidLine_repeat hl hvoid]
        exact ho
      | false =>
        have hmem : l ∈ lines := by
          rw [Order.line, hlines] at hl
          exact List.mem_of_find?_eq_some hl
        rw [voidLine_voids hlines hl hvoid]
        exact ho.voidOne hlines hmem hvoid

end Sys2Proof.Machine
end

section
/-! SUPPORT. What the operations of the other blocks leave of the day unit, and so of the frames that wait to be applied. -/

namespace Sys2Proof.Machine

/-! ### The walks and the loads of store preparation -/

@[simp] theorem walkWord_day (s : State) : (walkWord s).day = s.day := by rw [walkWord_eq]

@[simp] theorem walkWords_day (n : Nat) (s : State) : (walkWords n s).day = s.day := by
  induction n generalizing s with
  | zero => rfl
  | succ n ih => exact (ih _).trans (walkWord_day s)

@[simp] theorem evaluateLowFlags_day (s : State) : (evaluateLowFlags s).day = s.day :=
  foldl_keeps (·.day) _ (fun acc a => by dsimp only; split <;> simp) allAttributes s

@[simp] theorem handleFinds_day (finds : List Find) (s : State) : (handleFinds finds s).day = s.day :=
  foldl_keeps (·.day) (fun acc f => handleFind f acc) (by simp) finds s

@[simp] theorem loadAttribute_day (a : Attribute) (s : State) : (loadAttribute a s).day = s.day := by
  unfold loadAttribute
  extract_lets j0 j1 bad raw n stored worst r health s'
  split <;> simp [s']

@[simp] theorem loadHealth_day (s : State) : (loadHealth s).day = s.day := by
  have h := foldl_keeps (·.day) (fun acc a => loadAttribute a acc) (by simp) allAttributes s
  unfold loadHealth loadFaultWord
  dsimp only at h ⊢
  split <;> simp [h]

/-- The day unit is loaded with nothing deferred (R160, Table 9-3). -/
@[simp] theorem loadDay_deferred (s : State) : (loadDay s).day.deferred = [] := by
  unfold loadDay
  extract_lets m j0 j2 held day newest fresh s1 s2
  have h : s2.day.deferred = [] := by
    unfold s2
    split <;> simp [s1, fresh, DayUnit.atReset]
  split <;> simp [h]

@[simp] theorem endPreparation_deferred (r : WalkResult) (s : State) : (endPreparation r s).day.deferred = [] := by
  unfold endPreparation
  dsimp only
  split <;> simp

/-! ### The totals store -/

@[simp] theorem scrubStep_day (s : State) : (scrubStep s).day = s.day := by
  unfold scrubStep
  dsimp only
  split <;> simp

@[simp] theorem runPending_day (s : State) : (runPending s).day = s.day := by
  have hsteps (n : Nat) (u : State) : (scrubSteps n u).day = u.day := by
    induction n generalizing u with
    | zero => rfl
    | succ n ih => exact (ih _).trans (scrubStep_day u)
  unfold runPending
  split
  · rfl
  · exact hsteps _ _

@[simp] theorem scrubAfterOp_day (s : State) : (scrubAfterOp s).day = s.day := by
  unfold scrubAfterOp
  dsimp only
  split <;> simp

@[simp] theorem scrubRequest_day (s : State) : (scrubRequest s).day = s.day := by
  unfold scrubRequest
  dsimp only
  split <;> simp

@[simp] theorem journalAnswer_day (newest slot : Nat) (words : List JudgedWord) (s : State) :
    (journalAnswer newest slot words s).day = s.day := by
  unfold journalAnswer
  dsimp only
  split <;> simp

@[simp] theorem totalsAnswer_day (g : TotalsGroup) (words : List JudgedWord) (s : State) :
    (totalsAnswer g words s).day = s.day := by
  cases g <;> rfl

@[simp] theorem dayRecordAnswer_day (slot : Nat) (words : List JudgedWord) (s : State) :
    (dayRecordAnswer slot words s).day = s.day := by
  unfold dayRecordAnswer
  dsimp only
  split <;> simp

@[simp] theorem faultAnswer_day (count newest slot : Nat) (words : List JudgedWord) (s : State) :
    (faultAnswer count newest slot words s).day = s.day := by
  unfold faultAnswer
  dsimp only
  split <;> simp

/-! ### The weighing channel and captures -/

@[simp] theorem trackingTest_day (s : State) : (trackingTest s).day = s.day := by
  unfold trackingTest
  dsimp only
  split
  · rfl
  · split <;> simp [trackingChange]

@[simp] theorem evaluateArrival_day (s : State) : (evaluateArrival s).day = s.day := by
  unfold evaluateArrival
  dsimp only
  split
  · simp
  · split <;> simp [takeInitialZero]

@[simp] theorem restoreSamples_day (s : State) : (restoreSamples s).day = s.day := by
  unfold restoreSamples
  split <;> simp

theorem offerItem_day (i : Item) (serial : Nat) (s : State) : (offerItem i serial s).day = s.day := by
  unfold offerItem
  split
  · simp
  · split <;> simp

theorem noted_day (i : Item) (set : List Match) (s : State) : (s.noted i set).day = s.day :=
  foldl_keeps (·.day) (fun acc k => queueEvent (.watchNote k s.lbl.nextSerial) acc) (by simp) _ _

/-! ### The link -/

@[simp] theorem discardDamaged_day (drive : LinkDrive) (s : State) : (discardDamaged drive s).day = s.day := by
  unfold discardDamaged
  dsimp only
  split <;> simp

@[simp] theorem judgeCensus_day (s : State) : (judgeCensus s).day = s.day := by
  unfold judgeCensus
  split <;> simp

@[simp] theorem applyDaysum_day (origin : Nat) (p : DaysumPayload) (s : State) :
    (applyDaysum origin p s).day = s.day := by
  unfold applyDaysum
  split <;> simp

@[simp] theorem applyCensusAsk_day (own : Option TxFrame) (s : State) : (applyCensusAsk own s).day = s.day := by
  unfold applyCensusAsk
  split <;> simp

end Sys2Proof.Machine
end

section
/-! SUPPORT. The orders at each operation that moves them: the frames applied, the ends of frames, the expiry timers, and the
close start with the frames that it applies (R94 to R100, R110 to R114, R166). -/

namespace Sys2Proof.Machine

/-! ### Sound orders carried over -/

theorem State.OrdersSound.of_same {s t : State} (hs : s.OrdersSound) (horders : t.clt.orders = s.clt.orders)
    (hdeferred : t.day.deferred = s.day.deferred) : t.OrdersSound := by
  rwa [State.OrdersSound, horders, hdeferred]

/-- The orders stay as they were when nothing is deferred any more. -/
theorem State.OrdersSound.of_noneDeferred {s t : State} (hs : s.OrdersSound) (horders : t.clt.orders = s.clt.orders)
    (hdeferred : t.day.deferred = []) : t.OrdersSound := by
  obtain ⟨hsorted, hsound, -⟩ := hs
  rw [State.OrdersSound, horders, hdeferred]
  exact ⟨hsorted, hsound, nofun⟩

/-- Orders that are all FREE are sound (R114). -/
theorem State.OrdersSound.of_allFree {s t : State} (hs : s.OrdersSound) (horders : t.clt.orders = [])
    (hdeferred : t.day.deferred = s.day.deferred) : t.OrdersSound := by
  obtain ⟨-, -, hrange⟩ := hs
  rw [State.OrdersSound, horders, hdeferred]
  exact ⟨rfl, nofun, hrange⟩

theorem State.OrdersSound.order {s : State} (hs : s.OrdersSound) {clerk : Nat} {o : Order}
    (ho : s.order clerk = some o) : o.Sound := by
  obtain ⟨-, hsound, -⟩ := hs
  exact hsound _ (Table.mem_of_get ho)

theorem putOrder_ordersSound {s : State} (hs : s.OrdersSound) {o : Order} (ho : o.Sound) (clerk : Nat) :
    (putOrder clerk o s).OrdersSound := by
  obtain ⟨hsorted, hsound, hrange⟩ := hs
  refine ⟨Table.sorted_put hsorted clerk o, fun e he => ?_, hrange⟩
  obtain rfl | hold := Table.mem_put he
  · exact ho
  · exact hsound e hold

theorem touchOrder_ordersSound {s : State} (hs : s.OrdersSound) {o : Order} (ho : o.Sound) (clerk holder : Nat) :
    (touchOrder clerk holder o s).OrdersSound :=
  putOrder_ordersSound hs (by exact ho) clerk

theorem freeOrder_ordersSound {s : State} (hs : s.OrdersSound) (clerk : Nat) : (freeOrder clerk s).OrdersSound := by
  obtain ⟨hsorted, hsound, hrange⟩ := hs
  exact ⟨Table.sorted_del hsorted clerk, fun e he => hsound e (Table.mem_del he).1, hrange⟩

/-! ### The ends of frames -/

theorem restartExpiry_ordersSound {s : State} (hs : s.OrdersSound) (clerk : Nat) :
    (restartExpiry clerk s).OrdersSound := by
  unfold restartExpiry
  split
  · exact hs
  · next o ho => exact putOrder_ordersSound hs (by exact hs.order (o := o) ho) clerk

/-- A frame that ends restarts an expiry timer at most (R113). -/
theorem endFrame_ordersSound {s : State} (hs : s.OrdersSound) (f : TxFrame) (e : FrameEnd) :
    (endFrame f e s).OrdersSound := by
  cases f with
  | cancelExpiry clerk =>
    unfold endFrame
    dsimp only
    split
    · exact restartExpiry_ordersSound hs clerk
    · exact hs
  | item i => cases h : e.lateReason <;> exact hs.of_same (by simp [endFrame, h]) (by simp)
  | _ => exact hs.of_same (by simp [endFrame]) (by simp)

theorem dropHead_ordersSound {s : State} (hs : s.OrdersSound) : (dropHead s).OrdersSound := hs

theorem moveBacklog_ordersSound {s : State} (hs : s.OrdersSound) : (moveBacklog s).OrdersSound :=
  hs.of_same (by simp) (by simp)

theorem formHeads_ordersSound (n : Nat) {s : State} (hs : s.OrdersSound) : (formHeads n s).OrdersSound := by
  induction n generalizing s with
  | zero => exact hs
  | succ n ih =>
    unfold formHeads
    split
    · exact hs
    · split
      · exact hs
      · exact ih (moveBacklog_ordersSound (endFrame_ordersSound (dropHead_ordersSound hs) _ _))
      · exact ih (moveBacklog_ordersSound (dropHead_ordersSound hs))
      · exact hs

theorem beginAttempt_ordersSound {s : State} (hs : s.OrdersSound) : (beginAttempt s).OrdersSound :=
  formHeads_ordersSound _ hs

theorem dropFrame_ordersSound {s : State} (hs : s.OrdersSound) : (dropFrame s).OrdersSound := by
  unfold dropFrame
  split
  · exact hs
  · refine moveBacklog_ordersSound (endFrame_ordersSound ?_ _ _)
    exact hs.of_same (by simp) (by simp)

theorem failAttempt_ordersSound {s : State} (hs : s.OrdersSound) : (failAttempt s).OrdersSound := by
  obtain ⟨-, -, -, -, hclt, hday, -⟩ := failAttempt_keeps s
  exact hs.of_same (by rw [hclt]) (by rw [hday])

theorem fallSilent_ordersSound {s : State} (hs : s.OrdersSound) : (fallSilent s).OrdersSound := by
  obtain ⟨-, -, -, hclt, hday, -⟩ := fallSilent_keeps s
  exact hs.of_same (by rw [hclt]) (by rw [hday])

/-! ### Frames applied (R94 to R100) -/

/-- A CALL binds its ticket and leaves the list of the order (R94). -/
theorem calledOrder_sound {s : State} (hs : s.OrdersSound) (ticket clerk : Nat) :
    (s.calledOrder ticket clerk).Sound := by
  unfold State.calledOrder
  split
  · exact Order.opening_sound _ _
  · next o ho => exact hs.order (o := o) ho

/-- A PASS takes the ticket off an order with items, and frees one without (R95). -/
theorem passedOrder_ordersSound {s : State} (hs : s.OrdersSound) (origin clerk : Nat) :
    (passedOrder origin clerk s).OrdersSound := by
  unfold passedOrder
  split
  · exact hs
  · next o ho =>
    split
    · exact putOrder_ordersSound hs (by exact hs.order (o := o) ho) clerk
    · exact freeOrder_ordersSound hs clerk

/-- An ITEM opens an order with its line, adds it as the next line, or leaves a stub (R96, R97); its line number is at
most 40 (R93). -/
theorem itemOrder_sound {s : State} (hs : s.OrdersSound) (origin : Nat) {p : ItemPayload} (hroom : p.line.toNat ≤ 40) :
    (s.itemOrder origin p).Sound := by
  unfold State.itemOrder
  split
  · by_cases hline : p.line.toNat = 1
    · have hadded := (Order.opening_sound none (some s.hpt.timeOfDay)).addLine (l := itemLine origin p)
        hline rfl hroom
      simpa [hline, Order.opening, itemLine] using hadded
    · exact .of_stub (if_neg hline)
  · next o ho =>
    by_cases hline : p.line.toNat = o.lineCount + 1
    · cases hlines : o.lines with
      | none => exact .of_stub (by simp)
      | some lines =>
        have hadded := (hs.order ho).addLine (l := itemLine origin p) hline rfl hroom
        simpa [hline, hlines, itemLine] using hadded
    · exact .of_stub (if_neg hline)

/-- The line number of an ITEM in range is at most 40 (R93). -/
theorem item_line_le {p : ItemPayload} (h : payloadInRange (.item p) = true) : p.line.toNat ≤ 40 := by
  simp only [payloadInRange, within, Bool.and_eq_true, decide_eq_true_eq] at h
  omega

theorem voidedView_ordersSound {s : State} (hs : s.OrdersSound) (origin : Nat) (p : VoidPayload) :
    (voidedView origin p s).OrdersSound := by
  unfold voidedView
  split
  · exact hs
  · next o ho => exact touchOrder_ordersSound hs (voidLine_sound (hs.order ho) p) ..

theorem settleClose_ordersSound {s : State} (hs : s.OrdersSound) (p : TxClosePayload) (own : Option TxFrame)
    (order : Option Order) : (settleClose p own order s).OrdersSound := by
  unfold settleClose
  split
  · split <;> exact hs.of_same (by simp) (by simp)
  · refine freeOrder_ordersSound ?_ _
    split <;> exact hs.of_same (by simp) (by simp)

theorem applyCall_ordersSound {s : State} (hs : s.OrdersSound) (origin : Nat) (p : TicketPayload)
    (own : Option TxFrame) : (applyCall origin p own s).OrdersSound :=
  (touchOrder_ordersSound hs (calledOrder_sound hs p.ticket.toNat p.clerk.toNat) p.clerk.toNat origin).of_same
    (by rw [applyCall_clt]) (by simp)

theorem applyIssue_ordersSound {s : State} (hs : s.OrdersSound) (origin : Nat) (p : IssuePayload)
    (own : Option TxFrame) : (applyIssue origin p own s).OrdersSound := by
  refine hs.of_same ?_ (by simp)
  unfold applyIssue
  dsimp only
  split <;> simp

theorem passedOrder_day (origin clerk : Nat) (s : State) : (passedOrder origin clerk s).day = s.day := by
  unfold passedOrder
  split
  · rfl
  · split <;> simp

theorem applyPass_ordersSound {s : State} (hs : s.OrdersSound) (origin : Nat) (p : TicketPayload)
    (own : Option TxFrame) : (applyPass origin p own s).OrdersSound := by
  have hclt : (applyPass origin p own s).clt = (passedOrder origin p.clerk.toNat s).clt := by
    simp [applyPass_eq, requeuePassed_keeps]
  exact (passedOrder_ordersSound hs origin p.clerk.toNat).of_same (by rw [hclt]) (by simp [passedOrder_day])

theorem applyTxClose_ordersSound {s : State} (hs : s.OrdersSound) (p : TxClosePayload) (own : Option TxFrame) :
    (applyTxClose p own s).OrdersSound := by
  have hraised : (raiseAt p.clerk.toNat (s.closeMismatch p) s).OrdersSound := hs.of_same (by simp) (by simp)
  rw [applyTxClose_eq]
  exact (settleClose_ordersSound hraised p own (s.order p.clerk.toNat)).of_same (by simp) (by simp)

theorem applyTxCancel_ordersSound {s : State} (hs : s.OrdersSound) (p : TxCancelPayload) (own : Option TxFrame) :
    (applyTxCancel p own s).OrdersSound := by
  cases ho : s.order p.clerk.toNat with
  | none =>
    rw [applyTxCancel_free ho]
    exact hs.of_same (by simp) (by simp)
  | some o =>
    have hposted : (if own.isSome then postCancel o.amount s else s).OrdersSound := by
      split <;> exact hs.of_same (by simp) (by simp)
    rw [applyTxCancel_open ho]
    exact (freeOrder_ordersSound hposted p.clerk.toNat).of_same (by simp) (by simp)

theorem applyVoid_ordersSound {s : State} (hs : s.OrdersSound) (origin : Nat) (p : VoidPayload) (own : Option TxFrame) :
    (applyVoid origin p own s).OrdersSound :=
  (voidedView_ordersSound hs origin p).of_same (by rw [applyVoid_clt]) (by simp)

theorem applyItem_ordersSound {s : State} (hs : s.OrdersSound) (origin : Nat) {p : ItemPayload}
    (hroom : p.line.toNat ≤ 40) : (applyItem origin p s).OrdersSound :=
  (touchOrder_ordersSound hs (itemOrder_sound hs origin hroom) p.clerk.toNat origin).of_same
    (by rw [applyItem_clt]) (by simp)

/-- A frame of classes 1..7 with its fields in range leaves the orders sound. -/
theorem applyDayFrame_ordersSound {s : State} (hs : s.OrdersSound) {f : Frame} (hf : payloadInRange f.payload = true)
    (own : Option TxFrame) : (applyDayFrame f own s).OrdersSound := by
  unfold applyDayFrame
  dsimp only
  split
  · exact applyCall_ordersSound hs ..
  · exact applyIssue_ordersSound hs ..
  · exact applyPass_ordersSound hs ..
  · exact applyTxClose_ordersSound hs ..
  · exact applyTxCancel_ordersSound hs ..
  · exact applyVoid_ordersSound hs ..
  · next p hp => exact applyItem_ordersSound hs _ (item_line_le (hp ▸ hf))
  all_goals exact hs

/-- The stub of a joiner opens without a list (R110). -/
theorem applyCensusTx_ordersSound {s : State} (hs : s.OrdersSound) (p : CensusTxPayload) :
    (applyCensusTx p s).OrdersSound := by
  unfold applyCensusTx
  split
  · refine touchOrder_ordersSound ?_ (.of_stub rfl) ..
    split <;> exact hs
  · exact hs

/-! ### Close starts (R114, R166, R167) -/

theorem applyDeferredFrame_ordersSound {s : State} (hs : s.OrdersSound) {f : Frame}
    (hf : payloadInRange f.payload = true) : (applyDeferredFrame s f).OrdersSound := by
  have hrefreshed : (refreshRoster f.origin.toNat s).OrdersSound := hs.of_same (by simp) (by simp)
  unfold applyDeferredFrame
  dsimp only
  split
  · exact applyDayFrame_ordersSound hrefreshed hf none
  · exact hrefreshed

/-- The deferred frames were accepted with their fields in range (R166). -/
theorem applyDeferred_ordersSound {s : State} (hs : s.OrdersSound) : (applyDeferred s).OrdersSound := by
  have hfold {l : List Frame} (hl : ∀ f ∈ l, payloadInRange f.payload = true) {u : State} (hu : u.OrdersSound) :
      (l.foldl applyDeferredFrame u).OrdersSound := by
    induction l generalizing u with
    | nil => exact hu
    | cons f l ih =>
      obtain ⟨hf, hrest⟩ := List.forall_mem_cons.mp hl
      exact ih hrest (applyDeferredFrame_ordersSound hu hf)
  have hemptied : { s with day.deferred := [] }.OrdersSound := hs.of_noneDeferred rfl rfl
  obtain ⟨-, -, hrange⟩ := hs
  exact hfold hrange hemptied

/-- A close start frees every order before the deferred frames are applied (R114, R166, R167). -/
theorem startClose_ordersSound {s : State} (hs : s.OrdersSound) (c : LatchedClose) : (startClose c s).OrdersSound := by
  have hadvanced : (advanceDay c s).OrdersSound := hs.of_allFree (by simp [emptyDay]) (by simp)
  rw [startClose_eq]
  exact applyDeferred_ordersSound hadvanced

theorem startLatched_ordersSound {s : State} (hs : s.OrdersSound) : (startLatched s).OrdersSound := by
  unfold startLatched
  split
  · exact hs
  · split
    · exact startClose_ordersSound hs _
    · exact hs

theorem beginClose_ordersSound {s : State} (hs : s.OrdersSound) (c : LatchedClose) : (beginClose c s).OrdersSound := by
  unfold beginClose
  split
  · exact startClose_ordersSound hs c
  · exact hs

theorem applyDayClose_ordersSound {s : State} (hs : s.OrdersSound) (p : DayClosePayload) (own : Option TxFrame) :
    (applyDayClose p own s).OrdersSound := by
  have hcompleted {u : State} (hu : u.OrdersSound) (code : ResultCode) : (completeOwn own code none u).OrdersSound :=
    hu.of_same (by simp) (by simp)
  unfold applyDayClose
  dsimp only
  split
  · refine hcompleted ?_ .ok
    split
    · exact hs
    · exact beginClose_ordersSound hs _
  · split
    · refine hcompleted ?_ .ok
      split
      · exact beginClose_ordersSound hs _
      · exact hs
    · exact hcompleted hs .dayClosed

/-! ### Accepted frames -/

/-- A frame is deferred with its fields in range (R166). -/
theorem deferFrame_ordersSound {s : State} (hs : s.OrdersSound) {f : Frame} (hf : payloadInRange f.payload = true) :
    (deferFrame f s).OrdersSound := by
  unfold deferFrame
  split
  · obtain ⟨hsorted, hsound, hrange⟩ := hs
    exact ⟨hsorted, hsound, List.forall_mem_append.mpr ⟨hrange, List.forall_mem_singleton.mpr hf⟩⟩
  · exact hs.of_same (by simp) (by simp)

theorem receiveDayFrame_ordersSound {s : State} (hs : s.OrdersSound) {f : Frame} (hf : payloadInRange f.payload = true)
    (own : Option TxFrame) : (receiveDayFrame f own s).OrdersSound := by
  unfold receiveDayFrame
  split
  · exact applyDayFrame_ordersSound hs hf own
  · exact deferFrame_ordersSound hs hf
  · exact hs.of_same (by simp) (by simp)
  · exact hs

/-- Only a frame with its fields in range is applied (R56, R58). -/
theorem acceptFrame_ordersSound {s : State} (hs : s.OrdersSound) {f : Frame} {apply : Option TxFrame → State → State}
    (ha : payloadInRange f.payload = true →
      ∀ (own : Option TxFrame) (u : State), u.OrdersSound → (apply own u).OrdersSound) :
    (acceptFrame f apply s).OrdersSound := by
  unfold acceptFrame
  dsimp only
  split
  · exact hs
  · split
    · exact hs.of_same (by simp) (by simp)
    · next hrange =>
      refine ha (by simpa using hrange) _ _ ?_
      split <;> exact hs.of_same (by simp [takeOwnFrame]) (by simp [takeOwnFrame])

theorem acceptDayFrame_ordersSound {s : State} (hs : s.OrdersSound) (f : Frame) : (acceptDayFrame f s).OrdersSound :=
  acceptFrame_ordersSound hs fun hf own _ hu => receiveDayFrame_ordersSound hu hf own

theorem applyCensusReply_ordersSound {s : State} (hs : s.OrdersSound) (origin : Nat) (p : CensusReplyPayload) :
    (applyCensusReply origin p s).OrdersSound := by
  unfold applyCensusReply noteOpenCount
  split <;> exact hs.of_same (by simp) (by simp)

theorem applyBeacon_ordersSound {s : State} (hs : s.OrdersSound) (origin : Nat) (p : BeaconPayload) :
    (applyBeacon origin p s).OrdersSound :=
  hs.of_same (by simp [applyBeacon]) (by simp [applyBeacon])

/-! ### Expiry and time (R111, R112) -/

theorem offerExpiry_ordersSound {s : State} (hs : s.OrdersSound) {o : Order} (ho : o.Sound) (clerk : Nat) :
    (offerExpiry clerk o s).OrdersSound := by
  have hput (timer : Option Nat) : (putOrder clerk { o with timer := timer } s).OrdersSound :=
    putOrder_ordersSound hs (by exact ho) clerk
  unfold offerExpiry
  split
  · exact (hput none).of_same (by simp) (by simp)
  · exact hput _

theorem expireOrder_ordersSound {s : State} (hs : s.OrdersSound) {o : Order} (ho : o.Sound) (clerk : Nat) :
    (expireOrder clerk o s).OrdersSound := by
  unfold expireOrder
  dsimp only
  refine offerExpiry_ordersSound ?_ (by exact ho) clerk
  split
  · exact hs
  · exact hs.of_same (by simp) (by simp)

/-- The passing of time runs the timers of the orders (R111). -/
theorem tick_ordersSound {s : State} (hs : s.OrdersSound) : (tick s).OrdersSound := by
  unfold tick
  split
  · obtain ⟨hsorted, hsound, hrange⟩ := hs.of_same (t := walkWord s) (by simp) (by simp)
    refine ⟨Table.sorted_mapValues hsorted fun o => { o with timer := countDown o.timer }, fun e he => ?_, hrange⟩
    obtain ⟨e', he', rfl⟩ := List.mem_map.mp he
    exact hsound e' he'
  · exact hs

/-! ### Operations of the store -/

theorem finishRead_ordersSound {s : State} (hs : s.OrdersSound) (purpose : ReadPurpose) (words : List JudgedWord) :
    (finishRead purpose words s).OrdersSound := by
  have hfilled (read : Nat) : (fillDaysum read (daysumFigures words) s).OrdersSound := hs.of_same (by simp) (by simp)
  have hanswered {answered : State → State} (h : (answered s).OrdersSound) :
      (answerAwaited answered s).OrdersSound := by
    unfold answerAwaited
    split
    · exact h
    · exact hs
  cases purpose with
  | daysum read =>
    unfold finishRead
    dsimp only
    split
    · exact beginAttempt_ordersSound (hfilled read)
    · exact hfilled read
  | journal | totals | dayRecord | fault => exact hanswered (hs.of_same (by simp) (by simp))

theorem finishOp_ordersSound {s : State} (hs : s.OrdersSound) (op : Op) (e : OpEffect) :
    (finishOp op e s).OrdersSound := by
  cases op with
  | read addresses purpose => exact finishRead_ordersSound hs purpose e.words
  | counterUpdate slot day station figures =>
    unfold finishOp
    dsimp only
    split <;> exact hs.of_same (by simp) (by simp)
  | _ => exact hs.of_same (by simp [finishOp]) (by simp [finishOp])

theorem performOp_ordersSound {s : State} (hs : s.OrdersSound) (op : Op) (rest : List Op) :
    (performOp op rest s).OrdersSound := by
  have hfound : (handleFinds (runOp s.tst.mem op).finds
      { s with tst.mem := (runOp s.tst.mem op).mem, tst.ops := rest }).OrdersSound := hs.of_same (by simp) (by simp)
  exact (finishOp_ordersSound hfound op (runOp s.tst.mem op)).of_same (by simp [performOp]) (by simp [performOp])

theorem performHead_ordersSound {isKind : Op → Bool} {s t : State} (hs : s.OrdersSound)
    (h : performHead isKind s = .next t) : t.OrdersSound := by
  unfold performHead at h
  split at h <;> obtain rfl := Host.Outcome.next.inj h
  · exact hs
  · split
    · exact performOp_ordersSound hs ..
    · exact hs

/-! ### Captures -/

theorem becomeIdle_ordersSound {s : State} (hs : s.OrdersSound) : (becomeIdle s).OrdersSound :=
  startLatched_ordersSound (s := s.idled) hs

theorem postItem_ordersSound {s : State} (hs : s.OrdersSound) (i : Item) (set : List Match) :
    (postItem i set s).OrdersSound := by
  have hnoted := hs.of_same (t := s.noted i set) (by rw [(noted_keepsViews i set s).2]) (by rw [noted_day])
  have hoffered := hnoted.of_same (t := offerItem i s.lbl.nextSerial (s.noted i set))
    (by rw [(offerItem_keepsViews ..).2]) (by rw [offerItem_day])
  rw [postItem_eq]
  exact becomeIdle_ordersSound (hoffered.of_same (by simp) (by simp))

theorem endCapture_ordersSound {s : State} (hs : s.OrdersSound) (tag : Nat) (result : ResultCode) :
    (endCapture tag result s).OrdersSound := by
  obtain ⟨-, -, -, -, -, hclt, hday, -⟩ := reported_keeps tag result s
  rw [endCapture_eq]
  exact becomeIdle_ordersSound (hs.of_same (by rw [hclt]) (by rw [hday]))

theorem completeCapture_ordersSound {s : State} (hs : s.OrdersSound) (r : CaptureRequest) (m : Measure) :
    (completeCapture r m s).OrdersSound := by
  unfold completeCapture
  extract_lets i set unit marked
  have hmarked : marked.OrdersSound := hs
  split
  · exact endCapture_ordersSound hs _ _
  · split
    · exact hmarked.of_same (by simp) (by simp)
    · split
      · exact endCapture_ordersSound hmarked _ _
      · exact postItem_ordersSound hmarked _ _

theorem stableReading_ordersSound {s : State} (hs : s.OrdersSound) (gross : Int) :
    (stableReading gross s).OrdersSound := by
  unfold stableReading
  split
  · exact hs
  · exact hs
  · dsimp only
    split
    · exact endCapture_ordersSound hs _ _
    · split
      · exact hs
      · split
        · exact hs
        · exact completeCapture_ordersSound hs _ _

theorem offerReading_ordersSound {s : State} (hs : s.OrdersSound) : (offerReading s).OrdersSound := by
  unfold offerReading
  split
  · exact stableReading_ordersSound hs _
  · exact hs

theorem arrival_ordersSound {s : State} (hs : s.OrdersSound) (count : Int) : (arrival count s).OrdersSound := by
  have hlimit (state : WeighState) : (limitArrival state s).OrdersSound :=
    hs.of_same (by simp [limitArrival]) (by simp [limitArrival])
  unfold arrival
  split
  · exact hlimit .over
  · split
    · exact hlimit .under
    · unfold ordinaryArrival
      dsimp only
      split
      · exact hs.of_same (by simp) (by simp)
      · exact offerReading_ordersSound (hs.of_same (by simp) (by simp))

end Sys2Proof.Machine
end

section
/-! SUPPORT and the proof that every step keeps the orders sound: the requests, and the commands one by one. -/

namespace Sys2Proof.Machine

/-! ### Requests -/

theorem serve_ordersSound (i : Instr) {owner : State → State}
    (ho : ∀ u : State, u.OrdersSound → (owner u).OrdersSound) {s t : State} (hs : s.OrdersSound)
    (h : serve i owner s = .next t) : t.OrdersSound := by
  obtain ⟨port, ht | ht⟩ := serve_port i owner s <;> obtain rfl := Host.Outcome.next.inj (ht.symm.trans h)
  · exact ho _ hs
  · exact hs

/-- A request that places a frame waits for the link: no order moves till the frame is accepted (R104, R105). -/
theorem requestFrame_ordersSound {s : State} (hs : s.OrdersSound) (refusals : List (Bool × ResultCode))
    {claim : State → State} (hclaim : (claim s).OrdersSound) (frame : Nat → TxFrame) :
    (requestFrame refusals claim frame s).OrdersSound := by
  obtain ⟨r, -, -, h⟩ | ⟨code, -, h⟩ | ⟨-, -, h⟩ := requestFrame_cases refusals claim frame s <;> rw [h]
  · exact hs
  · exact hs
  · exact hclaim.of_same (by simp) (by simp)

theorem configureOwner_ordersSound {s : State} (hs : s.OrdersSound) (c : ConfigBlock) :
    (configureOwner c s).OrdersSound := by
  have hset : (takeSettings c (answer .ok [] s)).OrdersSound := hs
  unfold configureOwner
  split
  · exact hs
  · split
    · exact hset.of_same (by simp) (by simp)
    · exact hs

theorem startOwner_ordersSound {s : State} (hs : s.OrdersSound) : (startOwner s).OrdersSound := by
  unfold startOwner
  split <;> exact hs

/-- RESTART frees every order and empties the deferred receive list (R194, Tables 5-7 and 9-3). -/
theorem softReset_ordersSound (s : State) : (softReset s).OrdersSound :=
  ⟨rfl, nofun, nofun⟩

theorem restartOwner_ordersSound {s : State} (hs : s.OrdersSound) : (restartOwner s).OrdersSound := by
  unfold restartOwner
  split
  · exact hs
  · exact (softReset_ordersSound s).of_same (by simp) (by simp)

theorem countItemOwner_ordersSound {s : State} (hs : s.OrdersSound) (clerk : Byte) (plu : BitVec 24) (dept : Byte)
    (price : BitVec 24) (quantity : Byte) : (countItemOwner clerk plu dept price quantity s).OrdersSound := by
  unfold countItemOwner
  dsimp only
  split
  · exact hs
  · exact completeCapture_ordersSound (hs.of_same (by simp) (by simp)) _ _

theorem abortCaptureOwner_ordersSound {s : State} (hs : s.OrdersSound) : (abortCaptureOwner s).OrdersSound := by
  unfold abortCaptureOwner
  split
  · exact hs
  · split
    · exact hs
    · exact hs
    · exact endCapture_ordersSound (s := answer .ok [] s) hs _ _

theorem releaseHeldOwner_ordersSound {s : State} (hs : s.OrdersSound) : (releaseHeldOwner s).OrdersSound := by
  unfold releaseHeldOwner
  split
  · exact hs
  · split
    · exact hs
    · exact hs
    · split
      · exact hs
      · split
        · exact hs
        · exact postItem_ordersSound (s := answer .ok [] s) hs _ _

theorem discardHeldOwner_ordersSound {s : State} (hs : s.OrdersSound) : (discardHeldOwner s).OrdersSound := by
  unfold discardHeldOwner
  split
  · exact hs
  · split
    · exact hs
    · exact hs
    · exact becomeIdle_ordersSound (hs.of_same (by simp) (by simp))

theorem joinDayOwner_ordersSound {s : State} (hs : s.OrdersSound) : (joinDayOwner s).OrdersSound := by
  unfold joinDayOwner
  split
  · exact hs
  · split
    · exact hs
    · exact startClose_ordersSound (s := answer .ok [] s) hs _

/-- A request answers, places its frame, or is one that may start a close, configures or resets: each keeps the orders
sound. -/
theorem exec_request_ordersSound {i : Instr} (hi : (requestBlock i).isSome = true) {s t : State} (hs : s.OrdersSound)
    (h : exec i s = .next t) : t.OrdersSound := by
  cases i with
  | configure c => exact serve_ordersSound (.configure c) (fun _ hu => configureOwner_ordersSound hu c) hs h
  | start => exact serve_ordersSound .start (fun _ hu => startOwner_ordersSound hu) hs h
  | restart => exact serve_ordersSound .restart (fun _ hu => restartOwner_ordersSound hu) hs h
  | countItem clerk plu dept price quantity =>
    exact serve_ordersSound (.countItem clerk plu dept price quantity)
      (fun _ hu => countItemOwner_ordersSound hu clerk plu dept price quantity) hs h
  | abortCapture => exact serve_ordersSound .abortCapture (fun _ hu => abortCaptureOwner_ordersSound hu) hs h
  | releaseHeld => exact serve_ordersSound .releaseHeld (fun _ hu => releaseHeldOwner_ordersSound hu) hs h
  | discardHeld => exact serve_ordersSound .discardHeld (fun _ hu => discardHeldOwner_ordersSound hu) hs h
  | joinDay => exact serve_ordersSound .joinDay (fun _ hu => joinDayOwner_ordersSound hu) hs h
  | issueTicket | callNext | passTicket | totalOrder | cancelOrder | voidLine | closeDay | askDaysum =>
    simp only [exec, execIssueTicket, execCallNext, execPassTicket, execTotalOrder, execCancelOrder, execVoidLine,
      execCloseDay, execAskDaysum] at h
    exact serve_ordersSound _ (fun _ hu => requestFrame_ordersSound hu _ (by exact hu) _) hs h
  | readStatus | readWeight | readWatches | readTickets | readHealth | clearStoreLatch | readRoster =>
    simp only [exec, execReadStatus, execReadWeight, execReadWatches, execReadTickets, execReadHealth,
      execClearStoreLatch, execReadRoster] at h
    exact serve_ordersSound _ (fun _ hu => by exact hu) hs h
  | setTime | takeEvent | zero | tareWeigh | tareSet | tareClear | weighItem | setWatch | clearWatchStatus | takeLabel
  | readJournal | readOrder | readTotals | readDayRecord | readFaults =>
    simp only [exec, execSetTime, execTakeEvent, execZero, execTareWeigh, execTareSet, execTareClear, execWeighItem,
      execSetWatch, execClearWatchStatus, execTakeLabel, execReadJournal, execReadOrder, execReadTotals,
      execReadDayRecord, execReadFaults] at h
    refine serve_ordersSound _ (fun u hu => ?_) hs h
    -- Every branch of these owners ends in an answer, a refusal or a read handed, and none moves an order.
    simp only [setTimeOwner, takeEventOwner, zeroOwner, tareWeighOwner, tareSetOwner, tareClearOwner, weighItemOwner,
      setWatchOwner, clearWatchStatusOwner, takeLabelOwner, readJournalOwner, readOrderOwner, readTotalsOwner,
      readDayRecordOwner, readFaultsOwner]
    repeat' split
    all_goals exact hu.of_same (by simp) (by simp)
  | _ => cases hi

/-! ### Every step -/

theorem beginPreparation_ordersSound (kind : WalkKind) (straps : Straps) (m : Memory) (pending : List Instr) :
    (beginPreparation kind straps m pending).OrdersSound :=
  State.fresh_ordersSound ..

/-- A command that ends in a next state keeps the orders sound. -/
theorem exec_ordersSound {i : Instr} {s t : State} (hs : s.OrdersSound) (h : exec i s = .next t) : t.OrdersSound := by
  by_cases hi : (requestBlock i).isSome = true
  · exact exec_request_ordersSound hi hs h
  cases i with
  | powerOn straps retainOk =>
    obtain rfl := Host.Outcome.next.inj h
    split
    · exact State.fresh_ordersSound ..
    · exact beginPreparation_ordersSound ..
  | mainPowerFail =>
    obtain rfl := Host.Outcome.next.inj h
    exact State.fresh_ordersSound ..
  | resetAssert =>
    obtain rfl := Host.Outcome.next.inj h
    split
    · exact hs
    · exact hs
    · exact hs
    · exact State.fresh_ordersSound ..
  | resetRelease straps =>
    obtain rfl := Host.Outcome.next.inj h
    split
    · exact hs
    · exact hs
    · exact hs
    · exact beginPreparation_ordersSound ..
  | verificationWalkEnd =>
    simp only [exec, execVerificationWalkEnd] at h
    split at h
    · split at h <;> obtain rfl := Host.Outcome.next.inj h
      · exact hs.of_same (by simp) (by simp)
      · refine hs.of_noneDeferred ?_ (by simp)
        split <;> simp
    · obtain rfl := Host.Outcome.next.inj h
      exact hs
  | initializationWalkEnd =>
    simp only [exec, execInitializationWalkEnd] at h
    split at h <;> obtain rfl := Host.Outcome.next.inj h
    · exact hs.of_noneDeferred (by simp) (by simp)
    · exact hs
  | selectionEnd mosi =>
    obtain rfl := Host.Outcome.next.inj h
    rw [selection_eq]
    exact hs
  | sampleArrival bits value =>
    obtain rfl := Host.Outcome.next.inj h
    split
    · exact arrival_ordersSound hs _
    · exact hs
  | sampleWatchdogExpiry =>
    obtain rfl := Host.Outcome.next.inj h
    obtain ⟨-, -, -, -, -, hclt, hday, -⟩ := loseSamples_keeps s
    split
    · exact hs.of_same (by rw [hclt]) (by rw [hday])
    · exact hs
  | captureTimerExpiry =>
    simp only [exec, execCaptureTimerExpiry] at h
    split at h <;> obtain rfl := Host.Outcome.next.inj h
    · exact endCapture_ordersSound hs _ _
    · exact hs
    · exact hs
  | holdTimerExpiry =>
    simp only [exec, execHoldTimerExpiry] at h
    split at h <;> obtain rfl := Host.Outcome.next.inj h
    · exact becomeIdle_ordersSound (hs.of_same (by simp) (by simp))
    · exact hs
    · exact hs
  | beaconTimerExpiry =>
    obtain rfl := Host.Outcome.next.inj h
    split
    · split <;> exact hs
    · exact hs
  | censusTimerExpiry =>
    obtain rfl := Host.Outcome.next.inj h
    split
    · exact hs.of_same (by simp [endCensus]) (by simp [endCensus])
    · exact hs
  | rosterAgeExpiry station =>
    obtain rfl := Host.Outcome.next.inj h
    split
    · exact hs
    · split <;> exact hs
  | orderExpiry clerk =>
    simp only [exec, execOrderExpiry] at h
    split at h <;> obtain rfl := Host.Outcome.next.inj h
    · exact hs
    · next o ho =>
      split
      · exact expireOrder_ordersSound hs (hs.order ho) _
      · exact hs
  | timeOfDayTick =>
    obtain rfl := Host.Outcome.next.inj h
    split <;> exact hs
  | scrubRequest =>
    obtain rfl := Host.Outcome.next.inj h
    split
    · exact hs.of_same (by simp) (by simp)
    · exact hs
  | storeRead | storeUpdate | itemPosting | journalAppend | takenFlagUpdate | counterUpdate | recordWrite | closeCopy =>
    exact performHead_ordersSound hs h
  | linkAttemptStart =>
    obtain rfl := Host.Outcome.next.inj h
    split
    · exact beginAttempt_ordersSound hs
    · exact hs
  | arbitrationLost =>
    obtain rfl := Host.Outcome.next.inj h
    split <;> exact hs
  | attemptBitError =>
    obtain rfl := Host.Outcome.next.inj h
    have hfailed := failAttempt_ordersSound (s := { s with lnk.clash := s.lnk.clash + 1 }) hs
    split
    · exact hs
    · dsimp only
      split
      · exact fallSilent_ordersSound hfailed
      · split
        · exact dropFrame_ordersSound hfailed
        · exact hfailed
  | attemptObjected =>
    obtain rfl := Host.Outcome.next.inj h
    have hfailed := failAttempt_ordersSound hs
    split
    · exact hs
    · dsimp only
      split
      · exact dropFrame_ordersSound hfailed
      · exact hfailed
  | frameDamaged frame =>
    obtain rfl := Host.Outcome.next.inj h
    split
    · exact hs
    · split
      · exact hs
      · exact hs.of_same (by simp) (by simp)
  | dayCloseAccepted origin p =>
    obtain rfl := Host.Outcome.next.inj h
    exact acceptFrame_ordersSound hs fun _ own _ hu => applyDayClose_ordersSound hu p own
  | callAccepted | issueAccepted | passAccepted | txCloseAccepted | txCancelAccepted | voidAccepted | itemAccepted =>
    obtain rfl := Host.Outcome.next.inj h
    exact acceptDayFrame_ordersSound hs _
  | daysumAccepted =>
    obtain rfl := Host.Outcome.next.inj h
    exact acceptFrame_ordersSound hs fun _ _ _ hu => hu.of_same (by simp) (by simp)
  | daysumAskAccepted =>
    obtain rfl := Host.Outcome.next.inj h
    exact acceptFrame_ordersSound hs fun _ _ _ hu => hu.of_same (by simp) (by simp [applyDaysumAsk_keeps])
  | censusAskAccepted =>
    obtain rfl := Host.Outcome.next.inj h
    exact acceptFrame_ordersSound hs fun _ _ _ hu => hu.of_same (by simp) (by simp)
  | censusReplyAccepted origin p =>
    obtain rfl := Host.Outcome.next.inj h
    exact acceptFrame_ordersSound hs fun _ _ _ hu => applyCensusReply_ordersSound hu origin.toNat p
  | censusTxAccepted origin p =>
    obtain rfl := Host.Outcome.next.inj h
    exact acceptFrame_ordersSound hs fun _ _ _ hu => applyCensusTx_ordersSound hu p
  | beaconAccepted origin p =>
    obtain rfl := Host.Outcome.next.inj h
    exact acceptFrame_ordersSound hs fun _ _ _ hu => applyBeacon_ordersSound hu origin.toNat p
  | closeStart =>
    obtain rfl := Host.Outcome.next.inj h
    exact startLatched_ordersSound hs
  | vretDisturbance =>
    obtain rfl := Host.Outcome.next.inj h
    exact hs
  | _ => exact absurd rfl hi

/-- Settles O10: every command keeps the orders sound, and so does the passing of time. -/
theorem stepKeepsTheOrdersSound : Obligations.StepKeepsTheOrdersSound := by
  intro s t hs h
  unfold step at h
  split at h
  · obtain rfl := Host.Outcome.next.inj h
    exact tick_ordersSound hs
  · next c rest _ => exact exec_ordersSound (i := c) (s := { s with pending := rest }) hs h

end Sys2Proof.Machine
end

section
/-! SUPPORT and the proofs about the watch slots: what SET_WATCH and CLEAR_WATCH_STATUS write (R116, R117, R120). -/

namespace Sys2Proof.Machine

/-! ### SET_WATCH (R117) -/

theorem watchKind_unknown {kind : Byte} (h : 4 < kind.toNat) : watchKind kind = none := by
  unfold watchKind
  split
  case h_6 => rfl
  all_goals omega

/-- The form EMPTY is taken whatever bytes follow it (assumption 20). -/
theorem watchOperands_empty {form : Byte} (h : form.toNat = 0) (kind : Byte) (value : BitVec 24)
    (action enable : Byte) : watchOperands form kind value action enable = some none := by
  simp [watchOperands, h]

/-- The contents of a slot programmed with a known kind, for fields in range (R117). -/
theorem watchOperands_programmed {form kind : Byte} {k : WatchKind} (hform : form.toNat = 1)
    (hkind : watchKind kind = some k) (value : BitVec 24) (action enable : Byte) :
    watchOperands form kind value action enable =
      if k.valueInRange value.toNat = true ∧ action.toNat ≤ 1 ∧ enable.toNat ≤ 1 then
        some (some ⟨k, value.toNat, if action.toNat = 0 then .note else .hold, decide (enable.toNat = 1)⟩)
      else none := by
  simp [watchOperands, hform, hkind, and_assoc]

/-- A kind that has no name is out of range (Table 6-1). -/
theorem watchOperands_unknown {form kind : Byte} (hform : form.toNat = 1) (hkind : 4 < kind.toNat) (value : BitVec 24)
    (action enable : Byte) : watchOperands form kind value action enable = none := by
  simp [watchOperands, hform, watchKind_unknown hkind]

/-- The ranges of Table 6-1: a value within that of its kind. -/
theorem watchKind_inRange {kind : Byte} {value : Nat} {k : WatchKind}
    (h : (kind.toNat = 0 ∧ k = .pluEqual ∧ 1 ≤ value ∧ value ≤ 99999)
      ∨ (kind.toNat = 1 ∧ k = .deptEqual ∧ 1 ≤ value ∧ value ≤ 8)
      ∨ (kind.toNat = 2 ∧ k = .clerkEqual ∧ value ≤ 24)
      ∨ (kind.toNat = 3 ∧ k = .priceAtLeast ∧ value ≤ 999999)
      ∨ (kind.toNat = 4 ∧ k = .weightAtLeast ∧ 1 ≤ value ∧ value ≤ 30000)) :
    watchKind kind = some k ∧ k.valueInRange value = true := by
  rcases h with ⟨hkind, rfl, hrange⟩ | ⟨hkind, rfl, hrange⟩ | ⟨hkind, rfl, hrange⟩ | ⟨hkind, rfl, hrange⟩
    | ⟨hkind, rfl, hrange⟩ <;> exact ⟨by simp [watchKind, hkind], by simp [WatchKind.valueInRange, hrange]⟩

/-- The ranges of Table 6-1: a value outside that of its kind. -/
theorem watchKind_outOfRange {kind : Byte} {value : Nat}
    (h : (kind.toNat = 0 ∧ (value = 0 ∨ 99999 < value)) ∨ (kind.toNat = 1 ∧ (value = 0 ∨ 8 < value))
      ∨ (kind.toNat = 2 ∧ 24 < value) ∨ (kind.toNat = 3 ∧ 999999 < value)
      ∨ (kind.toNat = 4 ∧ (value = 0 ∨ 30000 < value))) :
    ∃ k, watchKind kind = some k ∧ k.valueInRange value = false := by
  rcases h with ⟨hkind, hrange⟩ | ⟨hkind, hrange⟩ | ⟨hkind, hrange⟩ | ⟨hkind, hrange⟩ | ⟨hkind, hrange⟩ <;>
  · refine ⟨_, (by simp only [watchKind, hkind]; rfl), ?_⟩
    simp only [WatchKind.valueInRange, decide_eq_false_iff_not]
    omega

section
variable {slot form kind : Byte} {value : BitVec 24} {action enable : Byte} {s : State}

theorem exec_setWatch (h : s.asked (.setWatch slot form kind value action enable)) :
    exec (.setWatch slot form kind value action enable) s
      = .next (setWatchOwner slot form kind value action enable s) := serve_asked h

theorem setWatchOwner_noSlot (h : 3 < slot.toNat) :
    setWatchOwner slot form kind value action enable s = refuse .param s := if_pos h

theorem setWatchOwner_param (h : watchOperands form kind value action enable = none) :
    setWatchOwner slot form kind value action enable s = refuse .param s := by
  simp [setWatchOwner, h]

theorem setWatchOwner_writes (hslot : slot.toNat ≤ 3) {contents : Option Watch}
    (h : watchOperands form kind value action enable = some contents) :
    setWatchOwner slot form kind value action enable s = { s with
      hpt.slot := .ready { result := .ok, data := [] }
      cap.slots := s.cap.slots.set slot.toNat { watch := contents, matched := false, serial := 0 } } := by
  rw [setWatchOwner, if_neg (Nat.not_lt.mpr hslot), h]
  rfl

/-- An unknown kind, an action that has no name, or a value outside the range of its kind (R117, Table 6-1). -/
theorem watchOperands_outOfRange (hform : form.toNat = 1)
    (h : 1 < action.toNat ∨ 4 < kind.toNat
      ∨ (kind.toNat = 0 ∧ (value.toNat = 0 ∨ 99999 < value.toNat))
      ∨ (kind.toNat = 1 ∧ (value.toNat = 0 ∨ 8 < value.toNat))
      ∨ (kind.toNat = 2 ∧ 24 < value.toNat)
      ∨ (kind.toNat = 3 ∧ 999999 < value.toNat)
      ∨ (kind.toNat = 4 ∧ (value.toNat = 0 ∨ 30000 < value.toNat))) :
    watchOperands form kind value action enable = none := by
  rcases h with haction | hkind | hvalue
  · cases hkind : watchKind kind with
    | none => simp [watchOperands, hform, hkind]
    | some k =>
      rw [watchOperands_programmed hform hkind]
      exact if_neg fun ⟨_, hnamed, _⟩ => absurd haction (Nat.not_lt.mpr hnamed)
  · exact watchOperands_unknown hform hkind value action enable
  · obtain ⟨k, hkind, hout⟩ := watchKind_outOfRange hvalue
    rw [watchOperands_programmed hform hkind]
    exact if_neg fun ⟨hin, _⟩ => by simp [hout] at hin

end

/-! ### CLEAR_WATCH_STATUS (R120) -/

section
variable {set : Byte} {s : State}

theorem exec_clearWatchStatus (h : s.asked (.clearWatchStatus set)) :
    exec (.clearWatchStatus set) s = .next (clearWatchStatusOwner set s) := serve_asked h

/-- A selection that is empty or names a slot above 3 (R120, assumption 14). -/
theorem exec_clearWatchStatus_param (ha : s.asked (.clearWatchStatus set)) (h : set.toNat = 0 ∨ 15 < set.toNat) :
    exec (.clearWatchStatus set) s = .next (refuse .param s) := by
  rw [exec_clearWatchStatus ha, clearWatchStatusOwner, if_pos h]

theorem exec_clearWatchStatus_clears (ha : s.asked (.clearWatchStatus set)) (h : 1 ≤ set.toNat) (h' : set.toNat ≤ 15) :
    exec (.clearWatchStatus set) s = .next { s with
      hpt.slot := .ready { result := .ok, data := [] }
      cap.slots := s.cap.slots.update fun k v => if (slotsOf set).contains k then v.cleared else v } := by
  rw [exec_clearWatchStatus ha, clearWatchStatusOwner, if_neg (by omega)]
  rfl

end

/-- A slot is selected by its bit (R187). -/
theorem slotsOf_contains (set : Byte) {k : Nat} (hk : k < 4) : (slotsOf set).contains k = set.getLsbD k := by
  rw [Bool.eq_iff_iff]
  simp [slotsOf, hk]

/-- Settles O38: the operands are judged as Table 6-1 lists the kinds, and what they spell is written into the slot. -/
theorem setWatchWritesTheSlot : Obligations.SetWatchWritesTheSlot := by
  refine ⟨fun slot form kind value action enable s ha => ?_, fun set s ha h => exec_clearWatchStatus_param ha (.inr h)⟩
  rw [exec_setWatch ha]
  refine ⟨fun hslot => ?_, fun hslot hform => ?_, fun hslot hform haction henable k hk => ?_, fun _ hform hout => ?_⟩
  · rw [setWatchOwner_noSlot hslot]
  · rw [setWatchOwner_writes hslot (watchOperands_empty hform ..)]
  · obtain ⟨hkind, hrange⟩ := watchKind_inRange hk
    have hoperands := watchOperands_programmed hform hkind value action enable
    rw [if_pos ⟨hrange, haction, henable⟩] at hoperands
    rw [setWatchOwner_writes hslot hoperands]
  · rw [setWatchOwner_param (watchOperands_outOfRange hform hout)]

/-- Settles O39: the slots are rewritten one by one, and a slot is selected by its bit. -/
theorem clearWatchStatusClearsTheSelected : Obligations.ClearWatchStatusClearsTheSelected := by
  refine fun set s ha => ⟨fun h => exec_clearWatchStatus_param ha (.inl h), fun hlow hhigh =>
    ⟨_, exec_clearWatchStatus_clears ha hlow hhigh, fun k hk => ?_⟩⟩
  rw [get_update _ _ hk, slotsOf_contains set hk]
  rfl

end Sys2Proof.Machine
end

section
/-! SUPPORT and the proofs about the held item: what a posting and a drop leave, and the latched close that starts
within the same step (R121, R124 to R126, R131, R135, R165, R167). -/

namespace Sys2Proof.Machine

/-! ### The label queue at a close start -/

/-- A receiver of a frame of classes 1..7 places no record and frees no reservation (R98, R99, R130). -/
theorem applyDayFrame_receiver_lbl (f : Frame) (s : State) : (applyDayFrame f none s).lbl = s.lbl := by
  unfold applyDayFrame
  dsimp only
  cases f.payload with
  | call p => exact applyCall_lbl ..
  | issue p => simp [applyIssue_eq, listIssued_keeps]
  | pass p => exact applyPass_lbl ..
  | txClose p => simp [applyTxClose_eq, settleClose_receiver]
  | txCancel p =>
    simp only [applyTxCancel]
    split <;> simp
  | voidLine p => simp [applyVoid_lbl, settleVoid]
  | item p => simp [applyItem_eq]
  | _ => rfl

theorem applyDeferred_lbl (s : State) : (applyDeferred s).lbl = s.lbl := by
  refine foldl_keeps (·.lbl) applyDeferredFrame (fun u f => ?_) s.day.deferred _
  unfold applyDeferredFrame
  dsimp only
  split <;> simp [applyDayFrame_receiver_lbl]

/-- A close start keeps the label records (R132, R167). -/
theorem startClose_records (c : LatchedClose) (s : State) : (startClose c s).lbl.records = s.lbl.records := by
  have hlbl : (advanceDay c s).lbl = (clearDay c s).lbl := by simp
  rw [startClose_eq, applyDeferred_lbl, hlbl, clearDay_lbl]

/-- No frame of classes 1..7 stays queued (R57, R167). -/
theorem startClose_queue_notDayScoped {c : LatchedClose} {s : State} {f : TxFrame}
    (hf : f ∈ (startClose c s).lnk.queue) : f.isDayScoped = false := by
  rw [startClose_lnk] at hf
  simpa using (List.mem_filter.mp hf).2

/-- A latched close starts as the unit comes to IDLE (R165, assumption 15). -/
theorem becomeIdle_starts {s : State} {c : LatchedClose} (h : s.day.latch = some c) :
    becomeIdle s = startClose c s.idled := by
  simp [becomeIdle, startLatched, State.idled, h]

/-! ### The held item posted (R124) -/

/-- The label record of an item posted now (R131 to R133). -/
def State.itemRecord (i : Item) (s : State) : LabelRecord :=
  { serial := s.lbl.nextSerial, station := s.hpt.straps.station.toNat, day := s.day.day, time := s.hpt.timeOfDay,
    clerk := i.request.clerk, body := .item i, slot := ringNext 128 s.lbl.newest }

theorem posted_records (i : Item) (set : List Match) (s : State) :
    (s.posted i set).lbl.records = s.lbl.records ++ [s.itemRecord i] := rfl

theorem posted_ops (i : Item) (set : List Match) (s : State) : (s.posted i set).tst.ops = s.tst.ops
    ++ [(s.itemRecord i).appended (if 999999 ≤ s.lbl.nextSerial then 1 else s.lbl.nextSerial + 1),
        .itemPosting i.request.dept i.price i.measure.weight?] :=
  List.append_assoc ..

theorem noted_lbl (i : Item) (set : List Match) (s : State) : (s.noted i set).lbl = (s.posted i set).lbl :=
  foldl_keeps (·.lbl) (fun acc k => queueEvent (.watchNote k s.lbl.nextSerial) acc) (by simp) (noteSlots set) _

theorem offerItem_lbl (i : Item) (serial : Nat) (s : State) : (offerItem i serial s).lbl = s.lbl := by
  unfold offerItem
  split
  · rfl
  · split <;> simp

/-- A posting before the unit comes to IDLE: CAPTURE_DONE is queued last (R44). -/
def State.itemDone (i : Item) (set : List Match) (s : State) : State :=
  queueEvent (.captureDone i.request.tag .ok s.lbl.nextSerial) (offerItem i s.lbl.nextSerial (s.noted i set))

theorem itemDone_addsTo (i : Item) (set : List Match) (s : State) : (s.itemDone i set).AddsTo (s.posted i set) :=
  ((noted_addsTo i set s).trans (offerItem_addsTo i s.lbl.nextSerial _)).trans (by simp [State.itemDone])

theorem itemDone_lbl (i : Item) (set : List Match) (s : State) : (s.itemDone i set).lbl = (s.posted i set).lbl := by
  simp [State.itemDone, offerItem_lbl, noted_lbl]

/-- A posting while a close is latched: the item is of the day closed, and then the latch's day begins (R131, R165). -/
theorem postItem_latched {i : Item} {set : List Match} {s : State} {c : LatchedClose} (h : s.day.latch = some c) :
    (postItem i set s).hpt.slot = s.hpt.slot
      ∧ (postItem i set s).lbl.records = s.lbl.records ++ [s.itemRecord i]
      ∧ (s.posted i set).tst.ops <+: (postItem i set s).tst.ops
      ∧ (postItem i set s).cap.capture = .idle
      ∧ (postItem i set s).day.day = c.newDay ∧ (postItem i set s).day.latch = none
      ∧ ∀ f ∈ (postItem i set s).lnk.queue, f.isDayScoped = false := by
  obtain ⟨hslot, -, -, hlatch, -, hops⟩ := itemDone_addsTo i set s
  have hstarts : postItem i set s = startClose c (s.itemDone i set).idled := becomeIdle_starts (hlatch.trans h)
  obtain ⟨hcap, hnone, hday, hslot'⟩ := startClose_movesDay c (s.itemDone i set).idled
  obtain ⟨-, -, -, -, -, hops'⟩ := startClose_addsTo c (s.itemDone i set).idled
  rw [hstarts]
  refine ⟨hslot'.trans hslot, ?_, (isPrefix_hand hops _).trans hops', by rw [hcap, State.idled], hday, hnone,
    fun f hf => startClose_queue_notDayScoped hf⟩
  have hlbl : (s.itemDone i set).idled.lbl = (s.posted i set).lbl := itemDone_lbl i set s
  rw [startClose_records, hlbl, posted_records]

/-- The serial written back into the slots of a matching set whose flag is set with serial 0 (R119). -/
theorem get_writeSerials (set : List Match) (serial : Nat) (w : WatchSlots) {k : Nat} (hk : k < 4) :
    (writeSerials set serial w).get k =
      if (w.get k).matched = true ∧ (w.get k).serial = 0 ∧ (set.any fun m => decide (m.slot = k)) = true then
        { w.get k with serial := serial }
      else w.get k := by
  rw [writeSerials, get_update _ _ hk]
  refine if_congr ?_ rfl rfl
  simp only [Bool.and_eq_true, decide_eq_true_eq]
  tauto

theorem weight?_isSome_iff (m : Measure) :
    m.weight?.isSome = true ↔ ∃ g a b c d e, m = .weight g a b c d e := by
  cases m <;> simp [Measure.weight?]

/-! ### RELEASE_HELD (R124) -/

section
variable {s : State} {i : Item} {set : List Match} {n : Nat}

theorem exec_releaseHeld (h : s.asked .releaseHeld) : exec .releaseHeld s = .next (releaseHeldOwner s) := serve_asked h

theorem exec_releaseHeld_wrongState (ha : s.asked .releaseHeld) (h : s.hpt.runState ≠ .running) :
    exec .releaseHeld s = .next (refuse .wrongState s) := by
  simp [exec_releaseHeld ha, releaseHeldOwner, State.notRunning, h]

theorem exec_releaseHeld_notHeld (ha : s.asked .releaseHeld) (hrun : s.hpt.runState = .running)
    (h : ∀ i set n, s.cap.capture ≠ .held i set n) : exec .releaseHeld s = .next (refuse .notHeld s) := by
  cases hc : s.cap.capture with
  | held i set n => exact absurd hc (h i set n)
  | _ => simp [exec_releaseHeld ha, releaseHeldOwner, State.notRunning, hrun, hc]

/-- The refusals that concern the held item, in their order, and then its posting (R124). -/
theorem exec_releaseHeld_held (ha : s.asked .releaseHeld) (hrun : s.hpt.runState = .running)
    (hc : s.cap.capture = .held i set n) : exec .releaseHeld s = .next
      (if i.measure.weight?.isSome && s.lockedOut then refuse .locked s
       else if s.lbl.free = 0 then refuse .labelFull s
       else postItem i set (answer .ok [] s)) := by
  simp [exec_releaseHeld ha, releaseHeldOwner, State.notRunning, hrun, hc]

theorem exec_releaseHeld_locked (ha : s.asked .releaseHeld) (hrun : s.hpt.runState = .running)
    (hc : s.cap.capture = .held i set n) (hlocked : s.lockedOut = true) (hweight : i.measure.weight?.isSome = true) :
    exec .releaseHeld s = .next (refuse .locked s) := by
  rw [exec_releaseHeld_held ha hrun hc, if_pos (by simp [hlocked, hweight])]

/-- The lockout concerns items by weight alone (R124). -/
theorem unlocked_of_count (h : s.lockedOut = false ∨ ∃ q, i.measure = .count q) :
    (i.measure.weight?.isSome && s.lockedOut) = false := by
  rcases h with hopen | ⟨q, hq⟩
  · simp [hopen]
  · simp [hq, Measure.weight?]

theorem exec_releaseHeld_labelFull (ha : s.asked .releaseHeld) (hrun : s.hpt.runState = .running)
    (hc : s.cap.capture = .held i set n) (hopen : (i.measure.weight?.isSome && s.lockedOut) = false)
    (hfull : 8 ≤ s.lbl.records.length + s.lbl.reservations) :
    exec .releaseHeld s = .next (refuse .labelFull s) := by
  rw [exec_releaseHeld_held ha hrun hc, hopen, if_neg Bool.false_ne_true, if_pos ((free_eq_zero_iff ..).mpr hfull)]

theorem exec_releaseHeld_posts (ha : s.asked .releaseHeld) (hrun : s.hpt.runState = .running)
    (hc : s.cap.capture = .held i set n) (hopen : (i.measure.weight?.isSome && s.lockedOut) = false)
    (hfree : s.lbl.records.length + s.lbl.reservations < 8) :
    exec .releaseHeld s = .next (postItem i set (answer .ok [] s)) := by
  rw [exec_releaseHeld_held ha hrun hc, hopen, if_neg Bool.false_ne_true,
    if_neg (mt (free_eq_zero_iff ..).mp (not_le.mpr hfree))]

end

/-- Settles O36: the refusals in their order, then the posting from the answered state, and a latched close
after it. -/
theorem releaseHeldPostsTheItem : Obligations.ReleaseHeldPostsTheItem := by
  refine ⟨fun s ha hnone => ⟨exec_releaseHeld_wrongState ha, fun hrun => exec_releaseHeld_notHeld ha hrun hnone⟩,
    fun s i set n ha hc => ⟨exec_releaseHeld_wrongState ha, fun hrun => ⟨fun hlocked hweight =>
      exec_releaseHeld_locked ha hrun hc hlocked ((weight?_isSome_iff _).mpr hweight), fun hopen =>
      ⟨exec_releaseHeld_labelFull ha hrun hc (unlocked_of_count hopen), fun hfree hlatch hroom hset => ?_,
        fun c hfree hlatch => ?_⟩⟩⟩⟩
  · have hnotes : (noteSlots set).length ≤ 4 := by
      rw [noteSlots, List.length_map]
      exact (List.length_filter_le ..).trans hset
    obtain ⟨hposts, hhpt, hslots, hwch⟩ := postItem_posts (i := i) (set := set) (s := answer .ok [] s) hlatch
      (show s.hpt.events.length + (noteSlots set).length + 2 ≤ 32 by omega)
    refine ⟨_, exec_releaseHeld_posts ha hrun hc (unlocked_of_count hopen) hfree, hposts, hhpt, fun k hk => ?_, hwch⟩
    rw [hslots]
    exact get_writeSerials set s.lbl.nextSerial s.cap.slots hk
  · obtain ⟨hslot, hrecords, hops, hrest⟩ := postItem_latched (i := i) (set := set) (s := answer .ok [] s) hlatch
    rw [posted_ops] at hops
    exact ⟨_, s.itemRecord i, exec_releaseHeld_posts ha hrun hc (unlocked_of_count hopen) hfree, hslot, hrecords, rfl,
      rfl, rfl, rfl, rfl, hops, hrest⟩

/-! ### DISCARD_HELD and HOLD_TIMER_EXPIRY (R125, R126) -/

/-- With a close latched the unit comes to IDLE and the latch's day begins, after what was handed and queued (R165). -/
theorem becomeIdle_closes {s : State} {c : LatchedClose} (h : s.day.latch = some c) :
    (becomeIdle s).hpt.slot = s.hpt.slot ∧ (becomeIdle s).cap = { s.cap with capture := .idle }
      ∧ (becomeIdle s).day.day = c.newDay ∧ (becomeIdle s).day.latch = none
      ∧ s.hpt.events <+: (becomeIdle s).hpt.events ∧ s.tst.ops <+: (becomeIdle s).tst.ops := by
  obtain ⟨hslot, hcap, hday, hlatch, hevents, -⟩ := becomeIdle_latched h
  exact ⟨hslot, hcap, hday, hlatch, hevents, isPrefix_becomeIdle (List.prefix_refl _)⟩

/-- An operation handed first stays in front of what is handed after it (R144). -/
theorem exists_ops_of_prefix {ops more : List Op} {op : Op} (h : ops ++ [op] <+: more) :
    ∃ before, more = ops ++ op :: before := by
  obtain ⟨before, hbefore⟩ := h
  exact ⟨before, by rw [← hbefore, List.append_assoc, List.singleton_append]⟩

section
variable {s : State}

theorem exec_discardHeld (h : s.asked .discardHeld) : exec .discardHeld s = .next (discardHeldOwner s) := serve_asked h

theorem exec_discardHeld_wrongState (ha : s.asked .discardHeld) (h : s.hpt.runState ≠ .running) :
    exec .discardHeld s = .next (refuse .wrongState s) := by
  simp [exec_discardHeld ha, discardHeldOwner, State.notRunning, h]

theorem exec_discardHeld_notHeld (ha : s.asked .discardHeld) (hrun : s.hpt.runState = .running)
    (h : ∀ i set n, s.cap.capture ≠ .held i set n) : exec .discardHeld s = .next (refuse .notHeld s) := by
  cases hc : s.cap.capture with
  | held i set n => exact absurd hc (h i set n)
  | _ => simp [exec_discardHeld ha, discardHeldOwner, State.notRunning, hrun, hc]

theorem exec_discardHeld_held (ha : s.asked .discardHeld) (hrun : s.hpt.runState = .running)
    (h : ∃ i set n, s.cap.capture = .held i set n) :
    exec .discardHeld s = .next (becomeIdle (postHeldDiscarded (answer .ok [] s))) := by
  obtain ⟨i, set, n, hc⟩ := h
  simp [exec_discardHeld ha, discardHeldOwner, State.notRunning, hrun, hc]

theorem exec_holdTimerExpiry (h : ∃ i set n, s.cap.capture = .held i set n) :
    exec .holdTimerExpiry s = .next (becomeIdle (queueEvent .holdExpired (postHeldDiscarded s))) := by
  obtain ⟨i, set, n, hc⟩ := h
  simp [exec, execHoldTimerExpiry, hc]

end

/-- Settles O37: both commands hand one update and bring the unit to IDLE; a latched close follows. -/
theorem heldItemIsDropped : Obligations.HeldItemIsDropped := by
  refine fun s => ⟨fun ha => ⟨exec_discardHeld_wrongState ha, exec_discardHeld_notHeld ha, fun hrun hheld =>
    ⟨fun hlatch => ?_, fun c hlatch => ?_⟩⟩, fun hheld => ⟨fun hlatch hroom => ?_, fun c hlatch => ?_⟩⟩
  · rw [exec_discardHeld_held ha hrun hheld, becomeIdle_quiet (by exact hlatch)]
    rfl
  · obtain ⟨hslot, hcap, hday, hnone, -, hops⟩ :=
      becomeIdle_closes (s := postHeldDiscarded (answer .ok [] s)) (c := c) hlatch
    obtain ⟨before, hbefore⟩ := exists_ops_of_prefix hops
    exact ⟨_, before, exec_discardHeld_held ha hrun hheld, hslot, hcap, hday, hnone, hbefore⟩
  · rw [exec_holdTimerExpiry hheld, queueEvent_room (s := postHeldDiscarded s) hroom,
      becomeIdle_quiet (by exact hlatch)]
    rfl
  · obtain ⟨-, hcap, hday, hnone, hevents, hops⟩ :=
      becomeIdle_closes (s := queueEvent .holdExpired (postHeldDiscarded s)) (c := c) (by simpa using hlatch)
    obtain ⟨before, hbefore⟩ := exists_ops_of_prefix
      ((isPrefix_queueEvent (s := postHeldDiscarded s) (List.prefix_refl _) .holdExpired).trans hops)
    refine ⟨_, before, exec_holdTimerExpiry hheld, hcap.trans (by simp), hday, hnone, hbefore, fun hroom => ?_⟩
    have hqueued : (queueEvent .holdExpired (postHeldDiscarded s)).hpt.events
        = s.hpt.events ++ [s.record .holdExpired] := by
      rw [queueEvent_room (s := postHeldDiscarded s) hroom]
      rfl
    rwa [hqueued] at hevents

end Sys2Proof.Machine
end

section
/-! SUPPORT. The label places held, as each operation of the link and of the label unit leaves them (R129, R130). -/

namespace Sys2Proof.Machine

/-! ### Places held and places owed -/

/-- The label places that a queued frame holds (R129). -/
def TxFrame.places (f : TxFrame) : Nat := if f.reserves then 1 else 0

/-- What `State.LabelsSound` says, with `owing` reservations beside those of the frames queued: the reservation of a frame
that is off the queue and not yet settled, or that is about to join it (R129, R130). -/
def State.HoldsPlaces (s : State) (owing : Nat) : Prop :=
  s.lbl.records.length + s.lbl.reservations ≤ 8
    ∧ s.lbl.reservations = (s.lnk.queue.filter TxFrame.reserves).length + owing
    ∧ s.AttemptSound
    ∧ (s.hpt.runState = .storePrep ∨ s.hpt.runState = .config → s.lnk.state = .off)
    ∧ (s.lnk.state = .off → s.lnk.queue = [])

theorem labelsSound_iff (s : State) : s.LabelsSound ↔ s.HoldsPlaces 0 := Iff.rfl

/-- The label places, the queue, the attempt and the state of the link, the day, the straps and the run state are the
same. -/
@[simp] abbrev State.KeepsPlaces (t s : State) : Prop :=
  t.lbl.records = s.lbl.records ∧ t.lbl.reservations = s.lbl.reservations ∧ t.lnk.queue = s.lnk.queue
    ∧ t.lnk.attempt = s.lnk.attempt ∧ t.lnk.state = s.lnk.state ∧ t.day.day = s.day.day
    ∧ t.hpt.straps = s.hpt.straps ∧ t.hpt.runState = s.hpt.runState

theorem State.KeepsPlaces.trans {s t u : State} (h : t.KeepsPlaces s) (g : u.KeepsPlaces t) : u.KeepsPlaces s := by
  simp_all

/-- What each step of a fold keeps of the places, the fold keeps. -/
theorem foldl_keepsPlaces {α : Type} (f : State → α → State) (hf : ∀ s a, (f s a).KeepsPlaces s) (l : List α)
    (s : State) : (l.foldl f s).KeepsPlaces s := by
  induction l generalizing s with
  | nil => simp
  | cons a l ih => exact (hf s a).trans (ih (f s a))

theorem State.HoldsPlaces.of_keeps {s t : State} {owing : Nat} (hs : s.HoldsPlaces owing) (h : t.KeepsPlaces s) :
    t.HoldsPlaces owing := by
  obtain ⟨hrecords, hreservations, hqueue, hattempt, hlink, hday, hstraps, hrun⟩ := h
  unfold State.HoldsPlaces State.AttemptSound at *
  rwa [hrecords, hreservations, hqueue, hattempt, hlink, hday, hstraps, hrun]

theorem State.LabelsSound.of_keeps {s t : State} (hs : s.LabelsSound) (h : t.KeepsPlaces s) : t.LabelsSound :=
  State.HoldsPlaces.of_keeps (owing := 0) hs h

/-- A link with a frame queued is not OFF (R58). -/
theorem State.HoldsPlaces.link_on {s : State} {owing : Nat} (hs : s.HoldsPlaces owing) (hq : s.lnk.queue ≠ []) :
    s.lnk.state ≠ .off := by
  obtain ⟨-, -, -, -, hoff⟩ := hs
  exact mt hoff hq

/-- A frame is taken only while the link is JOINING or LIVE (R49). -/
theorem link_on_of_offer {s : State} (h : s.offerRefusal = none) : s.lnk.state ≠ .off := by
  obtain ⟨hlive | hjoining, -⟩ := (offerRefusal_none_iff s).mp h
  · simp [hlive]
  · simp [hjoining]

theorem attemptSound_of_none {s : State} (h : s.lnk.attempt = none) : s.AttemptSound := by
  simp [State.AttemptSound, h]

/-- An attempt has its head queued. -/
theorem State.AttemptSound.queue_ne_nil {s : State} (hs : s.AttemptSound) (h : s.lnk.attempt.isSome = true) :
    s.lnk.queue ≠ [] := by
  obtain ⟨f, hf⟩ := Option.isSome_iff_exists.mp h
  obtain ⟨head, hhead, -⟩ := hs f hf
  rintro hnil
  simp [hnil] at hhead

/-! ### The queue -/

/-- Frames that join the tail leave the head of an attempt where it is. -/
theorem State.AttemptSound.append {s t : State} (hs : s.AttemptSound) {joined : List TxFrame}
    (hqueue : t.lnk.queue = s.lnk.queue ++ joined) (hattempt : t.lnk.attempt = s.lnk.attempt)
    (hstraps : t.hpt.straps = s.hpt.straps) (hday : t.day.day = s.day.day) : t.AttemptSound := by
  intro f hf
  obtain ⟨head, hhead, hsent⟩ := hs f (hattempt ▸ hf)
  refine ⟨head, ?_, by rwa [hstraps, hday]⟩
  rw [hqueue, List.head?_append, hhead]
  rfl

/-- A frame whose place is reserved joins the queue. -/
theorem enqueue_holdsPlaces {s : State} {f : TxFrame} {owing : Nat} (hs : s.HoldsPlaces (owing + f.places))
    (hlink : s.lnk.state ≠ .off) : (enqueue f s).HoldsPlaces owing := by
  obtain ⟨hfit, hcount, hattempt, hrun, -⟩ := hs
  refine ⟨hfit, ?_, hattempt.append (joined := [f]) rfl rfl rfl rfl, hrun, fun h => absurd h hlink⟩
  have hfilter : ([f].filter TxFrame.reserves).length = f.places := by
    cases h : f.reserves <;> simp [TxFrame.places, h]
  rw [enqueue_queue, List.filter_append, List.length_append, hfilter]
  simp only [enqueue_keeps, hcount]
  omega

/-- A frame without a place of its own joins the queue. -/
theorem enqueue_labelsSound {s : State} {f : TxFrame} (hs : s.LabelsSound) (hf : f.reserves = false)
    (hlink : s.lnk.state ≠ .off) : (enqueue f s).LabelsSound :=
  enqueue_holdsPlaces (owing := 0) (by rwa [TxFrame.places, hf]) hlink

theorem reserves_of_station {f : TxFrame} (h : f.isRequest = false) : f.reserves = false := by
  cases f <;> simp_all [TxFrame.isRequest, TxFrame.reserves, TxFrame.cls]

/-- Station frames that move up hold no place. -/
theorem State.HoldsPlaces.movesUp {s t : State} {owing : Nat} (hs : s.HoldsPlaces owing) (h : s.MovesUp t)
    (hlink : s.lnk.state ≠ .off) : t.HoldsPlaces owing := by
  obtain ⟨moved, reads, backlog, rfl, hmoved, -⟩ := h
  obtain ⟨hfit, hcount, hattempt, hrun, -⟩ := hs
  refine ⟨hfit, ?_, hattempt.append rfl rfl rfl rfl, hrun, fun h => absurd h hlink⟩
  have hnone : moved.filter TxFrame.reserves = [] :=
    List.filter_eq_nil_iff.mpr fun f hf => by simp [reserves_of_station (hmoved f hf)]
  simpa [hnone] using hcount

theorem moveBacklog_holdsPlaces {s : State} {owing : Nat} (hs : s.HoldsPlaces owing) (hlink : s.lnk.state ≠ .off) :
    (moveBacklog s).HoldsPlaces owing :=
  hs.movesUp (moveBacklog_movesUp s) hlink

theorem makeDaysumDue_labelsSound {s : State} (hs : s.LabelsSound) (day : Nat) : (makeDaysumDue day s).LabelsSound := by
  unfold makeDaysumDue
  split
  · exact hs
  · next hlink =>
    split
    · exact hs
    · exact moveBacklog_holdsPlaces (owing := 0) (State.LabelsSound.of_keeps hs (by simp)) fun h => hlink (.inr h)

theorem makeCensusDue_labelsSound {s : State} (hs : s.LabelsSound) (hlink : s.lnk.state ≠ .off) :
    (makeCensusDue s).LabelsSound :=
  moveBacklog_holdsPlaces (owing := 0) (State.LabelsSound.of_keeps hs (by simp)) hlink

/-- The head that leaves the queue between attempts owes its place. -/
theorem dropHead_holdsPlaces {s : State} {f : TxFrame} {rest : List TxFrame} {owing : Nat} (hs : s.HoldsPlaces owing)
    (hq : s.lnk.queue = f :: rest) (hattempt : s.lnk.attempt = none) : (dropHead s).HoldsPlaces (owing + f.places) := by
  obtain ⟨hfit, hcount, -, hrun, hoff⟩ := hs
  have hdropped : (dropHead s).lnk.queue = rest := by simp [dropHead, hq]
  refine ⟨hfit, ?_, attemptSound_of_none hattempt, hrun, fun h => ?_⟩
  · rw [hdropped]
    rw [hq] at hcount
    cases h : f.reserves <;> simp [h, TxFrame.places] at hcount ⊢ <;> omega
  · exact absurd (hoff h) (by simp [hq])

/-! ### The ends of frames -/

/-- The end of a frame frees the place that it owes (R130). -/
theorem endFrame_holdsPlaces {s : State} {f : TxFrame} {owing : Nat} (hs : s.HoldsPlaces (owing + f.places))
    (e : FrameEnd) : (endFrame f e s).HoldsPlaces owing := by
  obtain ⟨hfit, hcount, hattempt, hrun, hoff⟩ := hs
  have hfreed : (endFrame f e s).lbl.reservations = s.lbl.reservations - f.places := by
    rw [endFrame_lbl]
    rfl
  refine ⟨?_, ?_, ?_, by simpa using hrun, by simpa using hoff⟩
  · rw [hfreed]
    simp only [endFrame_keeps]
    omega
  · rw [hfreed]
    simp only [endFrame_keeps]
    omega
  · simpa [State.AttemptSound] using hattempt

/-- The ends of a list of frames free every place that they owe. -/
theorem endFrames_holdsPlaces {l : List TxFrame} {s : State} {owing : Nat}
    (hs : s.HoldsPlaces (owing + (l.filter TxFrame.reserves).length)) (e : FrameEnd) :
    (endFrames e l s).HoldsPlaces owing := by
  induction l generalizing s with
  | nil => exact hs
  | cons f l ih =>
    refine ih (endFrame_holdsPlaces ?_ e)
    have hsplit : ((f :: l).filter TxFrame.reserves).length = (l.filter TxFrame.reserves).length + f.places := by
      cases h : f.reserves <;> simp [TxFrame.places, h]
    rwa [hsplit, ← Nat.add_assoc] at hs

/-! ### Attempts -/

theorem stopSending_labelsSound {s : State} (hs : s.LabelsSound) : (stopSending s).LabelsSound := by
  obtain ⟨hfit, hcount, -, hrun, hoff⟩ := hs
  exact ⟨hfit, hcount, attemptSound_of_none rfl, hrun, hoff⟩

theorem failAttempt_labelsSound {s : State} (hs : s.LabelsSound) : (failAttempt s).LabelsSound :=
  (stopSending_labelsSound hs).of_keeps (by simp [failAttempt])

theorem dayTag_lt (day : Nat) : dayTag day < 256 := by unfold dayTag; omega

theorem formedTag_toNat (s : State) : s.formedTag.toNat = dayTag s.day.day := by
  simp [State.formedTag, Nat.mod_eq_of_lt (dayTag_lt s.day.day)]

/-- A payload that fits its frame: of its class, and of the present day if that is one of classes 1..7 (R51, R159). -/
def TxFrame.SentAs (f : TxFrame) (p : Payload) (s : State) : Prop :=
  f.cls = payloadClass p ∧ (f.isDayScoped = true → dayTagOf p = dayTag s.day.day)

/-- What is formed of a frame, if anything is, fits it (R51). -/
def Formation.Fits (m : Formation) (f : TxFrame) (s : State) : Prop := ∀ p, m = .formed p → f.SentAs p s

@[simp] theorem formed_fits (p : Payload) (f : TxFrame) (s : State) : (Formation.formed p).Fits f s ↔ f.SentAs p s := by
  simp [Formation.Fits]

@[simp] theorem ended_fits (e : FrameEnd) (f : TxFrame) (s : State) : (Formation.ended e).Fits f s := nofun

@[simp] theorem quiet_fits (f : TxFrame) (s : State) : Formation.quiet.Fits f s := nofun

@[simp] theorem waiting_fits (f : TxFrame) (s : State) : Formation.waiting.Fits f s := nofun

theorem formation_fits (f : TxFrame) (s : State) : (formation f s).Fits f s := by
  have htag := formedTag_toNat s
  cases f with
  | daysumAsk | censusAsk | censusReply | beacon =>
    simp [formation, TxFrame.SentAs, TxFrame.cls, TxFrame.isDayScoped, within, payloadClass]
  | _ =>
    simp only [formation, formCall, formIssue, formPass, formTxClose, formCancelHost, formCancelExpiry, formVoid, formItem,
      itemPayload, formDaysum, formCensusTx]
    repeat' split
    all_goals simp [TxFrame.SentAs, TxFrame.cls, TxFrame.isDayScoped, within, payloadClass, dayTagOf, htag]

/-- Only frames without a place of their own are removed without a word (R51). -/
theorem reserves_of_quiet {f : TxFrame} {s : State} (h : formation f s = .quiet) : f.reserves = false := by
  cases f with
  | txClose tag clerk =>
    simp only [formation, formTxClose] at h
    repeat' split at h
    all_goals cases h
  | voidLine tag clerk line =>
    simp only [formation, formVoid] at h
    repeat' split at h
    all_goals cases h
  | _ => rfl

/-- Heads removed between attempts free the places that they hold, and the one that is formed is of its class and day
(R51). -/
theorem formHeads_labelsSound (n : Nat) {s : State} (hs : s.LabelsSound) (hattempt : s.lnk.attempt = none) :
    (formHeads n s).LabelsSound := by
  induction n generalizing s with
  | zero => exact hs
  | succ n ih =>
    unfold formHeads
    split
    · exact hs
    · next f rest hq =>
      have hlink : s.lnk.state ≠ .off := State.HoldsPlaces.link_on (owing := 0) hs (by simp [hq])
      have hdropped := dropHead_holdsPlaces (owing := 0) hs hq hattempt
      split
      · next p hp =>
        obtain ⟨hclass, htag⟩ := formation_fits f s p hp
        obtain ⟨hfit, hcount, -, hrun, hoff⟩ := hs
        refine ⟨hfit, hcount, ?_, hrun, hoff⟩
        rintro _ ⟨rfl⟩
        exact ⟨f, by simp [hq], hclass, rfl, htag⟩
      · next e _ =>
        exact ih (moveBacklog_holdsPlaces (endFrame_holdsPlaces hdropped e) (by simpa using hlink))
          (by simpa using hattempt)
      · next hquiet =>
        have hnone : f.places = 0 := by simp [TxFrame.places, reserves_of_quiet hquiet]
        rw [hnone] at hdropped
        exact ih (moveBacklog_holdsPlaces hdropped (by simpa using hlink)) (by simpa using hattempt)
      · exact hs.of_keeps (by simp)

theorem beginAttempt_labelsSound {s : State} (hs : s.LabelsSound) (hattempt : s.lnk.attempt = none) :
    (beginAttempt s).LabelsSound :=
  formHeads_labelsSound _ hs hattempt

/-- The frame of the sixteenth failure frees its place (R55, R130). -/
theorem dropFrame_labelsSound {s : State} (hs : s.LabelsSound) (hattempt : s.lnk.attempt = none) :
    (dropFrame s).LabelsSound := by
  unfold dropFrame
  split
  · exact hs
  · next f rest hq =>
    have hlink : s.lnk.state ≠ .off := State.HoldsPlaces.link_on (owing := 0) hs (by simp [hq])
    have hdropped := dropHead_holdsPlaces (owing := 0) hs hq hattempt
    exact moveBacklog_holdsPlaces (owing := 0) (endFrame_holdsPlaces (hdropped.of_keeps (by simp)) _)
      (by simpa using hlink)

/-- A clash that silences the link frees every place held for a frame (R67, R130). -/
theorem fallSilent_labelsSound {s : State} (hs : s.LabelsSound)
    (hrun : ¬(s.hpt.runState = .storePrep ∨ s.hpt.runState = .config)) : (fallSilent s).LabelsSound := by
  obtain ⟨hfit, hcount, -⟩ := hs
  rw [fallSilent_eq]
  refine endFrames_holdsPlaces (owing := 0) (State.HoldsPlaces.of_keeps (s := { s with
    lnk.state := .silent, lnk.queue := [], lnk.attempt := none }) ?_ (by simp [silenced])) .silent
  exact ⟨hfit, by simpa using hcount, attemptSound_of_none rfl, fun h => absurd h hrun, nofun⟩

end Sys2Proof.Machine
end

section
/-! SUPPORT. The label places at the frames that are accepted, at a day close and at a posting (R124, R130, R131, R167). -/

namespace Sys2Proof.Machine

/-! ### Labels -/

/-- The reservation of a frame taken off the queue ends, with or without its record (R130). -/
theorem State.HoldsPlaces.settle {s t : State} (hs : s.HoldsPlaces 1)
    (hreservations : t.lbl.reservations = s.lbl.reservations - 1)
    (hrecords : t.lbl.records.length ≤ s.lbl.records.length + 1)
    (hothers : ({ t with lbl := s.lbl } : State).KeepsPlaces s) : t.LabelsSound := by
  obtain ⟨hfit, hcount, hkept⟩ := hs.of_keeps hothers
  refine ⟨?_, ?_, hkept⟩
  · dsimp only at hfit hcount
    omega
  · dsimp only at hcount
    omega

theorem fillReservation_lbl (clerk : Nat) (body : LabelBody) (s : State) :
    (fillReservation clerk body s).lbl.reservations = s.lbl.reservations - 1
      ∧ (fillReservation clerk body s).lbl.records.length = s.lbl.records.length + 1 :=
  ⟨rfl, List.length_append ..⟩

/-- The own VOID fills its reservation (R98). -/
theorem applyVoid_own_lbl (origin : Nat) (p : VoidPayload) (head : TxFrame) (s : State) :
    (applyVoid origin p (some head) s).lbl.reservations = s.lbl.reservations - 1
      ∧ (applyVoid origin p (some head) s).lbl.records.length ≤ s.lbl.records.length + 1 := by
  rw [applyVoid_lbl]
  simp [settleVoid, fillReservation_lbl]

/-- The own TXCLOSE fills its reservation, or frees it when the order is FREE (R99, assumption 23). -/
theorem applyTxClose_own_lbl (p : TxClosePayload) (head : TxFrame) (s : State) :
    (applyTxClose p (some head) s).lbl.reservations = s.lbl.reservations - 1
      ∧ (applyTxClose p (some head) s).lbl.records.length ≤ s.lbl.records.length + 1 := by
  rw [applyTxClose_eq]
  cases s.order p.clerk.toNat with
  | none => simp [settleClose, freeReservation]
  | some o => simp [settleClose, fillReservation_lbl]

/-- A frame that is neither TXCLOSE nor VOID leaves the labels, also at its sender. -/
theorem applyDayFrame_other_lbl {f : Frame} (hclass : payloadClass f.payload ≠ 4 ∧ payloadClass f.payload ≠ 6)
    (own : Option TxFrame) (s : State) : (applyDayFrame f own s).lbl = s.lbl := by
  unfold applyDayFrame
  dsimp only
  cases hp : f.payload with
  | call p => exact applyCall_lbl ..
  | issue p => simp [applyIssue_eq, listIssued_keeps]
  | pass p => exact applyPass_lbl ..
  | txClose p => simp [hp, payloadClass] at hclass
  | txCancel p =>
    simp only [applyTxCancel]
    split
    · simp
    · split <;> simp
  | voidLine p => simp [hp, payloadClass] at hclass
  | item p => simp [applyItem_eq]
  | _ => rfl

/-- Whatever a frame does at its sender and at a receiver, it does not touch the queue, the day or the settings. -/
theorem applyDayFrame_keepsOthers (f : Frame) (own : Option TxFrame) (s : State) :
    ({ applyDayFrame f own s with lbl := s.lbl } : State).KeepsPlaces s := by
  simp

/-! ### The frame taken off the queue -/

/-- The places that the frame taken off the queue owes; a receiver owes none. -/
def placesOf (own : Option TxFrame) : Nat := own.elim 0 TxFrame.places

/-- The station that has heard its own frame still owes the frame's place (R56, R130). -/
theorem heard_holdsPlaces {s : State} (hs : s.LabelsSound) (f : Frame) :
    (s.heard f).HoldsPlaces (placesOf (s.ownFrame f)) := by
  cases hsends : s.sends f with
  | false =>
    have hheard : s.heard f = refreshRoster f.origin.toNat (stopSending s) := by simp [State.heard, hsends]
    rw [hheard, ownFrame_receiver hsends]
    exact (stopSending_labelsSound hs).of_keeps (by simp)
  | true =>
    have hattempt : s.lnk.attempt = some f := by simpa [State.sends] using hsends
    have ⟨_, _, hsound, _⟩ := hs
    obtain ⟨head, hhead, -⟩ := hsound f hattempt
    obtain ⟨rest, hq⟩ := List.head?_eq_some_iff.mp hhead
    have hlink : s.lnk.state ≠ .off := State.HoldsPlaces.link_on (owing := 0) hs (by simp [hq])
    have hstopped : (stopSending s).HoldsPlaces 0 := stopSending_labelsSound hs
    have hheard : s.heard f = refreshRoster f.origin.toNat (takeOwnFrame s) := by simp [State.heard, hsends]
    rw [hheard, ownFrame_sender hsends hq]
    have hdropped : (dropHead (stopSending s)).HoldsPlaces (0 + head.places) :=
      dropHead_holdsPlaces hstopped (by simpa using hq) rfl
    rw [Nat.zero_add] at hdropped
    refine State.HoldsPlaces.of_keeps (s := takeOwnFrame s) ?_ (by simp)
    exact moveBacklog_holdsPlaces (State.HoldsPlaces.of_keeps hdropped (by simp [stopSending, dropHead]))
      (by simpa using hlink)

/-- The frame taken off the queue is of the class of the accepted frame, and of the present day if that is one of classes
1..7 (R51). -/
theorem ownFrame_sentAs {s : State} (hs : s.LabelsSound) {f : Frame} {head : TxFrame} (h : s.ownFrame f = some head) :
    head.SentAs f.payload s := by
  cases hsends : s.sends f with
  | false => simp [ownFrame_receiver hsends] at h
  | true =>
    have hattempt : s.lnk.attempt = some f := by simpa [State.sends] using hsends
    obtain ⟨-, -, hsound, -⟩ := hs
    obtain ⟨head', hhead, hclass, -, htag⟩ := hsound f hattempt
    rw [State.ownFrame, if_pos hsends, hhead] at h
    obtain rfl := Option.some.inj h
    exact ⟨hclass, htag⟩

theorem discardDamaged_labelsSound {s : State} (hs : s.LabelsSound) (drive : LinkDrive) :
    (discardDamaged drive s).LabelsSound := by
  refine (stopSending_labelsSound hs).of_keeps ?_
  unfold discardDamaged
  dsimp only
  split <;> simp

/-- A frame that is accepted leaves the places sound when its application settles what the frame taken off the queue
owes. -/
theorem acceptFrame_labelsSound {s : State} (hs : s.LabelsSound) {f : Frame} {apply : Option TxFrame → State → State}
    (ha : ∀ own u, u.HoldsPlaces (placesOf own) → (∀ head, own = some head → head.SentAs f.payload u) →
      (apply own u).LabelsSound) : (acceptFrame f apply s).LabelsSound := by
  cases hr : s.receives with
  | false => rwa [acceptFrame_deaf hr]
  | true =>
    cases hp : payloadInRange f.payload with
    | false =>
      rw [acceptFrame, hr, hp]
      exact discardDamaged_labelsSound hs .objectionSlot
    | true =>
      rw [acceptFrame_heard hr hp]
      refine ha _ _ (heard_holdsPlaces hs f) fun head hhead => ?_
      simpa [TxFrame.SentAs] using ownFrame_sentAs hs hhead

/-- A frame of another class owes no place. -/
theorem placesOf_other {own : Option TxFrame} {f : Frame} {s : State}
    (hown : ∀ head, own = some head → head.SentAs f.payload s)
    (hclass : payloadClass f.payload ≠ 4 ∧ payloadClass f.payload ≠ 6) : placesOf own = 0 := by
  cases own with
  | none => rfl
  | some head =>
    obtain ⟨hcls, -⟩ := hown head rfl
    have hnone : head.reserves = false := by simpa [TxFrame.reserves, hcls] using hclass
    simp [placesOf, TxFrame.places, hnone]

/-- What `acceptFrame_labelsSound` asks of a frame that holds no place. -/
theorem acceptOther_labelsSound {s : State} (hs : s.LabelsSound) {f : Frame} {apply : Option TxFrame → State → State}
    (hclass : payloadClass f.payload ≠ 4 ∧ payloadClass f.payload ≠ 6)
    (ha : ∀ own u, u.LabelsSound → (apply own u).LabelsSound) : (acceptFrame f apply s).LabelsSound :=
  acceptFrame_labelsSound hs fun own u hu hown => ha own u (by rwa [placesOf_other hown hclass] at hu)

/-- A TXCLOSE or VOID settles at its sender the place that it owes (R98, R99). -/
theorem applyDayFrame_labelsSound {s : State} {f : Frame} {own : Option TxFrame} (hs : s.HoldsPlaces (placesOf own))
    (hown : ∀ head, own = some head → head.SentAs f.payload s) : (applyDayFrame f own s).LabelsSound := by
  by_cases hclass : payloadClass f.payload ≠ 4 ∧ payloadClass f.payload ≠ 6
  · rw [placesOf_other hown hclass] at hs
    exact hs.of_keeps (by simp [applyDayFrame_other_lbl hclass])
  · cases own with
    | none => exact State.HoldsPlaces.of_keeps (owing := 0) hs (by simp [applyDayFrame_receiver_lbl])
    | some head =>
      obtain ⟨hcls, -⟩ := hown head rfl
      have hplace : placesOf (some head) = 1 := by
        simp only [placesOf, Option.elim_some, TxFrame.places, TxFrame.reserves, hcls, ite_eq_left_iff, decide_eq_true_eq]
        omega
      rw [hplace] at hs
      obtain ⟨hreservations, hrecords⟩ : (applyDayFrame f (some head) s).lbl.reservations = s.lbl.reservations - 1
          ∧ (applyDayFrame f (some head) s).lbl.records.length ≤ s.lbl.records.length + 1 := by
        unfold applyDayFrame
        cases hp : f.payload with
        | txClose p => exact applyTxClose_own_lbl p head s
        | voidLine p => exact applyVoid_own_lbl _ p head s
        | _ => simp [hp, payloadClass] at hclass
      exact hs.settle hreservations hrecords (applyDayFrame_keepsOthers f _ s)

theorem judgeTag_now_iff (tag : Nat) (d : DayUnit) : judgeTag tag d = .now ↔ tag = dayTag d.day := by
  unfold judgeTag
  split
  · simp_all
  · repeat' split
    all_goals simp_all

/-- A frame that is deferred or discarded is no frame of the own queue that holds a place: those are of the present day. -/
theorem receiveDayFrame_labelsSound {s : State} {f : Frame} {own : Option TxFrame} (hs : s.HoldsPlaces (placesOf own))
    (hown : ∀ head, own = some head → head.SentAs f.payload s) : (receiveDayFrame f own s).LabelsSound := by
  by_cases htoday : dayTagOf f.payload = dayTag s.day.day
  · have hnow : receiveDayFrame f own s = applyDayFrame f own s := by simp [receiveDayFrame, judgeTag, htoday]
    rw [hnow]
    exact applyDayFrame_labelsSound hs hown
  · have hnone : placesOf own = 0 := by
      cases own with
      | none => rfl
      | some head =>
        obtain ⟨-, htag⟩ := hown head rfl
        have hscope : ¬head.isDayScoped = true := fun h => htoday (htag h)
        cases head <;> simp_all [placesOf, TxFrame.places, TxFrame.reserves, TxFrame.isDayScoped, TxFrame.cls, within]
    rw [hnone] at hs
    unfold receiveDayFrame
    split
    · next hnow => exact absurd ((judgeTag_now_iff ..).mp hnow) htoday
    · refine hs.of_keeps ?_
      unfold deferFrame
      split <;> simp
    · exact hs.of_keeps (by simp)
    · exact hs

theorem acceptDayFrame_labelsSound {s : State} (hs : s.LabelsSound) (f : Frame) : (acceptDayFrame f s).LabelsSound :=
  acceptFrame_labelsSound hs fun _ _ hu hown => receiveDayFrame_labelsSound hu hown

/-! ### Day close -/

/-- A close frees the place of every frame that holds one: those are frames of classes 1..7 (R130, R167). -/
theorem startClose_labelsSound {s : State} (hs : s.LabelsSound) (c : LatchedClose) : (startClose c s).LabelsSound := by
  obtain ⟨hfit, hcount, hsound, hrun, hoff⟩ := hs
  have hlnk := startClose_lnk c s
  have hreservations : (startClose c s).lbl.reservations = 0 := by
    have hadvanced : (advanceDay c s).lbl = (clearDay c s).lbl := by simp
    rw [startClose_eq, applyDeferred_lbl, hadvanced, clearDay_lbl, dayFrames_reserves]
    dsimp only
    omega
  have hqueue : (startClose c s).lnk.queue = s.lnk.queue.filter fun f => !f.isDayScoped := by
    rw [hlnk]
    rfl
  have hstate : (startClose c s).lnk.state = s.lnk.state := by
    rw [hlnk]
    rfl
  refine ⟨?_, ?_, ?_, by simpa [hstate] using hrun, fun h => ?_⟩
  · rw [startClose_records, hreservations]
    omega
  · have hnone : ((startClose c s).lnk.queue.filter TxFrame.reserves) = [] := by
      rw [hqueue, List.filter_filter, List.filter_eq_nil_iff]
      intro f _
      cases f <;> simp [TxFrame.reserves, TxFrame.isDayScoped, TxFrame.cls, within]
    rw [hreservations, hnone]
    rfl
  · intro f hf
    rw [hlnk] at hf
    obtain ⟨hscope, hattempt⟩ : s.lnk.queue.head?.any TxFrame.isDayScoped = false ∧ s.lnk.attempt = some f := by
      simpa [Link.closed] using hf
    obtain ⟨head, hhead, hclass, horigin, -⟩ := hsound f hattempt
    obtain ⟨rest, hq⟩ := List.head?_eq_some_iff.mp hhead
    have hother : head.isDayScoped = false := by simpa [hhead] using hscope
    exact ⟨head, by simp [hqueue, hq, hother], hclass, by simpa using horigin, by simp [hother]⟩
  · rw [hqueue, hoff (hstate ▸ h)]
    rfl

end Sys2Proof.Machine
end

section
/-! SUPPORT. The label places at a posting, at the operations of the store, and at the end of store preparation. -/

namespace Sys2Proof.Machine

/-! ### Closes and captures -/

theorem startLatched_labelsSound {s : State} (hs : s.LabelsSound) : (startLatched s).LabelsSound := by
  unfold startLatched
  split
  · exact hs
  · split
    · exact startClose_labelsSound hs _
    · exact hs

theorem beginClose_labelsSound {s : State} (hs : s.LabelsSound) (c : LatchedClose) : (beginClose c s).LabelsSound := by
  unfold beginClose
  split
  · exact startClose_labelsSound hs c
  · exact hs.of_keeps (by simp)

theorem applyDayClose_labelsSound {s : State} (hs : s.LabelsSound) (p : DayClosePayload) (own : Option TxFrame) :
    (applyDayClose p own s).LabelsSound := by
  have hcompleted {u : State} (hu : u.LabelsSound) (code : ResultCode) : (completeOwn own code none u).LabelsSound :=
    hu.of_keeps (by simp)
  unfold applyDayClose
  dsimp only
  split
  · refine hcompleted ?_ .ok
    split
    · exact hs
    · exact beginClose_labelsSound hs _
  · split
    · refine hcompleted ?_ .ok
      split
      · exact beginClose_labelsSound hs _
      · exact hs.of_keeps (by simp)
    · exact hcompleted hs .dayClosed

theorem becomeIdle_labelsSound {s : State} (hs : s.LabelsSound) : (becomeIdle s).LabelsSound :=
  startLatched_labelsSound (hs.of_keeps (by simp))

theorem endCapture_labelsSound {s : State} (hs : s.LabelsSound) (tag : Nat) (result : ResultCode) :
    (endCapture tag result s).LabelsSound := by
  rw [endCapture_eq]
  refine becomeIdle_labelsSound (hs.of_keeps ?_)
  unfold State.reported
  split <;> simp

/-- An ITEM frame holds no place (R43, R129). -/
theorem offerItem_labelsSound {s : State} (hs : s.LabelsSound) (i : Item) (serial : Nat) :
    (offerItem i serial s).LabelsSound := by
  unfold offerItem
  split
  · exact hs
  · split
    · next hoffer =>
      exact enqueue_labelsSound hs rfl (link_on_of_offer hoffer)
    · exact hs.of_keeps (by simp)

/-- A posting takes a free place for its record (R130, R131). -/
theorem posted_labelsSound {s : State} (hs : s.LabelsSound) (hfree : s.lbl.free ≠ 0) (i : Item) (set : List Match) :
    (s.posted i set).LabelsSound := by
  obtain ⟨-, hcount, hsound, hrun, hoff⟩ := hs
  have hplace := mt (free_eq_zero_iff _).mpr hfree
  refine ⟨?_, hcount, hsound, hrun, hoff⟩
  have hreservations : (s.posted i set).lbl.reservations = s.lbl.reservations := rfl
  rw [posted_records, hreservations, List.length_append, List.length_singleton]
  omega

theorem postItem_labelsSound {s : State} (hs : s.LabelsSound) (hfree : s.lbl.free ≠ 0) (i : Item) (set : List Match) :
    (postItem i set s).LabelsSound := by
  have hnoted : (s.noted i set).KeepsPlaces (s.posted i set) :=
    foldl_keepsPlaces (fun acc k => queueEvent (.watchNote k s.lbl.nextSerial) acc) (by simp) _ _
  have hoffered := offerItem_labelsSound ((posted_labelsSound hs hfree i set).of_keeps hnoted) i s.lbl.nextSerial
  rw [postItem_eq]
  exact becomeIdle_labelsSound (hoffered.of_keeps (by simp))

theorem completeCapture_labelsSound {s : State} (hs : s.LabelsSound) (r : CaptureRequest) (m : Measure) :
    (completeCapture r m s).LabelsSound := by
  unfold completeCapture
  extract_lets i set unit marked
  have hmarked : marked.LabelsSound := hs.of_keeps (by simp [marked])
  split
  · exact endCapture_labelsSound hs _ _
  · split
    · exact hmarked.of_keeps (by simp)
    · split
      · exact endCapture_labelsSound hmarked _ _
      · next hfree => exact postItem_labelsSound hmarked hfree _ _

theorem offerReading_labelsSound {s : State} (hs : s.LabelsSound) : (offerReading s).LabelsSound := by
  unfold offerReading
  split
  · unfold stableReading
    split
    · exact hs
    · exact hs
    · dsimp only
      split
      · exact endCapture_labelsSound hs _ _
      · split
        · exact hs.of_keeps (by simp)
        · split
          · exact hs.of_keeps (by simp)
          · exact completeCapture_labelsSound hs _ _
  · exact hs

theorem arrival_labelsSound {s : State} (hs : s.LabelsSound) (count : Int) : (arrival count s).LabelsSound := by
  have hlimit (state : WeighState) : (limitArrival state s).LabelsSound := hs.of_keeps (by simp [limitArrival])
  have hevaluated (u : State) : (evaluateArrival u).KeepsPlaces u := by
    obtain ⟨⟨-, -, hstraps, -, hrun⟩, -, -, hlbl, hlnk, -⟩ := evaluateArrival_keeps u
    simp [hstraps, hrun, hlbl, hlnk]
  have hrestored (u : State) : (restoreSamples u).KeepsPlaces u := by
    obtain ⟨⟨-, -, hstraps, -, hrun⟩, -, hlbl, hlnk, -⟩ := restoreSamples_keeps u
    simp [hstraps, hrun, hlbl, hlnk]
  unfold arrival
  split
  · exact hlimit .over
  · split
    · exact hlimit .under
    · unfold ordinaryArrival
      dsimp only
      split
      · exact hs.of_keeps (by simp)
      · exact offerReading_labelsSound
          ((State.LabelsSound.of_keeps (hs.of_keeps (by simp)) (hevaluated _)).of_keeps (hrestored _))

/-! ### Operations of the store -/

@[simp] theorem handleFinds_keepsPlaces (finds : List Find) (s : State) : (handleFinds finds s).KeepsPlaces s :=
  foldl_keepsPlaces (fun acc f => handleFind f acc) (by simp) finds s

@[simp] theorem scrubStep_keepsPlaces (s : State) : (scrubStep s).KeepsPlaces s := by
  unfold scrubStep
  dsimp only
  split <;> simp

@[simp] theorem scrubSteps_keepsPlaces (n : Nat) (s : State) : (scrubSteps n s).KeepsPlaces s := by
  induction n generalizing s with
  | zero => simp [scrubSteps]
  | succ n ih => exact (scrubStep_keepsPlaces s).trans (ih _)

@[simp] theorem runPending_keepsPlaces (s : State) : (runPending s).KeepsPlaces s := by
  unfold runPending
  split <;> simp

@[simp] theorem scrubAfterOp_keepsPlaces (s : State) : (scrubAfterOp s).KeepsPlaces s := by
  unfold scrubAfterOp
  dsimp only
  split <;> simp

@[simp] theorem scrubRequest_keepsPlaces (s : State) : (scrubRequest s).KeepsPlaces s := by
  unfold scrubRequest
  dsimp only
  split <;> simp

/-- The figures of a DAYSUM leave it the frame of its class. -/
@[simp] theorem filled_cls (read : Nat) (figures : DayFigures) (f : TxFrame) : (f.filled read figures).cls = f.cls := by
  unfold TxFrame.filled
  split <;> rfl

@[simp] theorem filled_reserves (read : Nat) (figures : DayFigures) (f : TxFrame) :
    (f.filled read figures).reserves = f.reserves := by
  simp [TxFrame.reserves]

theorem fillDaysum_labelsSound {s : State} (hs : s.LabelsSound) (read : Nat) (figures : DayFigures) :
    (fillDaysum read figures s).LabelsSound := by
  obtain ⟨hfit, hcount, hsound, hrun, hoff⟩ := hs
  refine ⟨hfit, ?_, fun f hf => ?_, hrun, fun h => by simp [fillDaysum, hoff h]⟩
  · simpa [fillDaysum, List.filter_map, Function.comp_def] using hcount
  · obtain ⟨head, hhead, hclass, hsent⟩ := hsound f hf
    refine ⟨head.filled read figures, by simp [fillDaysum, hhead], by simpa using hclass, ?_⟩
    simpa [TxFrame.isDayScoped] using hsent

theorem finishRead_labelsSound {s : State} (hs : s.LabelsSound) (purpose : ReadPurpose) (words : List JudgedWord) :
    (finishRead purpose words s).LabelsSound := by
  have hanswered {answered : State → State} (h : (answered s).KeepsPlaces s) :
      (answerAwaited answered s).LabelsSound := by
    unfold answerAwaited
    split
    · exact hs.of_keeps h
    · exact hs
  cases purpose with
  | daysum read =>
    have hfilled := fillDaysum_labelsSound hs read (daysumFigures words)
    unfold finishRead
    dsimp only
    split
    · next hidle =>
      obtain ⟨⟨-, hattempt⟩, -⟩ := by simpa only [Bool.and_eq_true, Option.isNone_iff_eq_none] using hidle
      exact beginAttempt_labelsSound (hfilled.of_keeps (by simp)) hattempt
    · exact hfilled
  | journal newest slot =>
    refine hanswered ?_
    unfold journalAnswer
    dsimp only
    split <;> simp
  | totals g => exact hanswered (by cases g <;> simp [totalsAnswer])
  | dayRecord slot =>
    refine hanswered ?_
    unfold dayRecordAnswer
    dsimp only
    split <;> simp
  | fault count newest slot =>
    refine hanswered ?_
    unfold faultAnswer
    dsimp only
    split <;> simp

theorem finishOp_labelsSound {s : State} (hs : s.LabelsSound) (op : Op) (e : OpEffect) :
    (finishOp op e s).LabelsSound := by
  cases op with
  | read addresses purpose => exact finishRead_labelsSound hs purpose e.words
  | closeCopy c => exact makeDaysumDue_labelsSound (hs.of_keeps (by simp)) c.day
  | counterUpdate slot day station figures =>
    unfold finishOp
    dsimp only
    split
    · exact hs.of_keeps (by simp)
    · exact hs
  | _ => exact hs

theorem performHead_labelsSound {isKind : Op → Bool} {s t : State} (hs : s.LabelsSound)
    (h : performHead isKind s = .next t) : t.LabelsSound := by
  unfold performHead at h
  split at h <;> obtain rfl := Host.Outcome.next.inj h
  · exact hs
  · split
    · exact (finishOp_labelsSound (hs.of_keeps (by simp)) _ _).of_keeps (scrubAfterOp_keepsPlaces _)
    · exact hs

/-! ### Store preparation -/

/-- The records and the reservations are the same. -/
@[simp] abbrev State.KeepsLabels (t s : State) : Prop :=
  t.lbl.records = s.lbl.records ∧ t.lbl.reservations = s.lbl.reservations

/-- While the link is OFF the day and the run state are free to move: nothing is queued and nothing sent (R58, R64). -/
theorem State.LabelsSound.of_off {s t : State} (hs : s.LabelsSound) (hoff : s.lnk.state = .off) (hlnk : t.lnk = s.lnk)
    (hlbl : t.KeepsLabels s) : t.LabelsSound := by
  obtain ⟨hfit, hcount, hsound, -, hempty⟩ := hs
  obtain ⟨hrecords, hreservations⟩ := hlbl
  have hqueue := hempty hoff
  have hattempt : s.lnk.attempt = none := by
    by_contra h
    exact hsound.queue_ne_nil (Option.isSome_iff_ne_none.mpr h) hqueue
  refine ⟨by rwa [hrecords, hreservations], by rwa [hreservations, hlnk], ?_, ?_, ?_⟩
  · exact attemptSound_of_none (by rw [hlnk, hattempt])
  · exact fun _ => by rw [hlnk, hoff]
  · exact fun _ => by rw [hlnk, hqueue]

@[simp] theorem loadAttribute_lbl (a : Attribute) (s : State) : (loadAttribute a s).lbl = s.lbl := by
  unfold loadAttribute
  extract_lets j0 j1 bad raw n stored worst r health s'
  split <;> simp [s']

@[simp] theorem loadHealth_lbl (s : State) : (loadHealth s).lbl = s.lbl := by
  have hloaded := foldl_keeps (·.lbl) (fun acc a => loadAttribute a acc) (fun acc a => loadAttribute_lbl a acc)
    allAttributes s
  unfold loadHealth loadFaultWord
  dsimp only at hloaded ⊢
  split <;> simp [hloaded]

@[simp] theorem loadDay_lbl (s : State) : (loadDay s).lbl = s.lbl := by
  unfold loadDay
  extract_lets m j0 j2 held day newest fresh s1 s2
  have h : s2.lbl = s.lbl := by
    unfold s2
    split <;> simp [s1]
  split <;> simp [h]

theorem loadLabels_keepsLabels (s : State) : (loadLabels s).KeepsLabels s := by
  unfold loadLabels
  dsimp only
  split <;> simp

theorem endPreparation_keepsLabels (r : WalkResult) (s : State) : (endPreparation r s).KeepsLabels s := by
  have hloaded := loadLabels_keepsLabels s
  unfold endPreparation
  dsimp only
  split <;> simpa using hloaded

@[simp] theorem walkWord_keepsPlaces (s : State) : (walkWord s).KeepsPlaces s := by
  rw [walkWord_eq]
  simp

@[simp] theorem walkWords_keepsPlaces (n : Nat) (s : State) : (walkWords n s).KeepsPlaces s := by
  induction n generalizing s with
  | zero => simp [walkWords]
  | succ n ih => exact (walkWord_keepsPlaces s).trans (ih _)

/-- Store preparation ends with the link OFF (R191). -/
theorem endPreparation_labelsSound {s : State} (hs : s.LabelsSound) (hprep : s.hpt.runState = .storePrep)
    (r : WalkResult) : (endPreparation r s).LabelsSound := by
  have ⟨_, _, _, hrun, _⟩ := hs
  exact hs.of_off (hrun (.inl hprep)) (endPreparation_lnk r s) (endPreparation_keepsLabels r s)

theorem runState_of_preparing {s : State} (h : s.preparing = true) : s.hpt.runState = .storePrep := by
  simp only [State.preparing, Bool.and_eq_true, decide_eq_true_eq] at h
  exact h.2

end Sys2Proof.Machine
end

section
/-! SUPPORT and the proof that every step keeps records and reservations within the label places: the requests, and the
commands one by one. -/

namespace Sys2Proof.Machine

/-! ### Requests -/

@[simp] theorem selection_keepsPlaces (mosi : List Byte) (s : State) : (selection mosi s).KeepsPlaces s := by
  have hkept := selection_keepsRecords mosi s
  rw [selection_eq] at hkept ⊢
  simp_all

theorem serve_labelsSound (i : Instr) {owner : State → State}
    (ho : ∀ u : State, u.LabelsSound → (owner u).LabelsSound) {s t : State} (hs : s.LabelsSound)
    (h : serve i owner s = .next t) : t.LabelsSound := by
  unfold serve at h
  split at h <;> obtain rfl := Host.Outcome.next.inj h
  · exact hs
  · next b _ =>
    have hselected : (if s.hpt.slot = .taken b then s else selection (blockBytes b) s).LabelsSound := by
      split
      · exact hs
      · exact hs.of_keeps (selection_keepsPlaces _ s)
    have htaken (u : State) (hu : u.LabelsSound) : (if u.hpt.slot = .taken b then owner u else u).LabelsSound := by
      split
      · exact ho u hu
      · exact hu
    exact htaken _ hselected

@[simp] theorem evaluateLowFlags_keepsPlaces (s : State) : (evaluateLowFlags s).KeepsPlaces s :=
  foldl_keepsPlaces _ (fun u a => by dsimp only; split <;> simp) allAttributes s

/-- A request places its frame on a link that is JOINING or LIVE (R49). -/
theorem requestFrame_labelsSound {s : State} (hs : s.LabelsSound) {refusals : List (Bool × ResultCode)}
    {frame : Nat → TxFrame} (hframe : ∀ tag, (frame tag).reserves = false) :
    (requestFrame refusals id frame s).LabelsSound := by
  obtain ⟨r, -, -, h⟩ | ⟨code, -, h⟩ | ⟨hoffer, -, h⟩ := requestFrame_cases refusals id frame s <;> rw [h]
  · exact hs.of_keeps (by simp)
  · exact hs.of_keeps (by simp)
  · exact (enqueue_labelsSound hs (hframe s.hpt.nextTag) (link_on_of_offer hoffer)).of_keeps (by simp [placeFrame])

/-- A request whose frame holds a place is refused when no place is free, and reserves one otherwise (R129, R130). -/
theorem reservingFrame_labelsSound {s : State} (hs : s.LabelsSound) {refusals : List (Bool × ResultCode)}
    (hfull : (decide (s.lbl.free = 0), .labelFull) ∈ refusals)
    {frame : Nat → TxFrame} (hframe : ∀ tag, (frame tag).reserves = true) :
    (requestFrame refusals reserveLabel frame s).LabelsSound := by
  obtain ⟨r, -, -, h⟩ | ⟨code, -, h⟩ | ⟨hoffer, hrefusals, h⟩ := requestFrame_cases refusals reserveLabel frame s <;>
    rw [h]
  · exact hs.of_keeps (by simp)
  · exact hs.of_keeps (by simp)
  · have hfree : s.lbl.free ≠ 0 := by simpa using hrefusals _ hfull
    have hplace := mt (free_eq_zero_iff _).mpr hfree
    obtain ⟨hfit, hcount, hkept⟩ := hs
    have hreserved : (reserveLabel s).HoldsPlaces (0 + (frame s.hpt.nextTag).places) := by
      rw [TxFrame.places, hframe]
      refine ⟨?_, ?_, hkept⟩
      · simp only [reserveLabel]
        omega
      · simp only [reserveLabel]
        rw [hcount]
        rfl
    exact State.LabelsSound.of_keeps (enqueue_holdsPlaces (owing := 0) hreserved (link_on_of_offer hoffer))
      (by simp [placeFrame])

/-- A station begins with its CENSUS_ASK queued alone, and no place is held for it (R64). -/
theorem beginStation_labelsSound {s : State} (hfit : s.lbl.records.length ≤ 8) (hnone : s.lbl.reservations = 0) :
    (beginStation s).LabelsSound := by
  refine ⟨?_, ?_, attemptSound_of_none rfl, nofun, nofun⟩
  · simpa [beginStation, beginWeighing, hnone] using hfit
  · simpa [beginStation, beginWeighing, Link.joining, TxFrame.reserves, TxFrame.cls] using hnone

theorem startOwner_labelsSound {s : State} (hs : s.LabelsSound) : (startOwner s).LabelsSound := by
  unfold startOwner
  split
  · exact hs.of_keeps (by simp)
  · next hconfig =>
    have hrun : s.hpt.runState = .config := by
      by_contra h
      exact hconfig (.inl h)
    obtain ⟨hfit, hcount, -, hoff, hempty⟩ := hs
    rw [hempty (hoff (.inr hrun))] at hcount
    exact beginStation_labelsSound (by simp; omega) (by simpa using hcount)

theorem restartOwner_labelsSound {s : State} (hs : s.LabelsSound) : (restartOwner s).LabelsSound := by
  unfold restartOwner
  split
  · exact hs.of_keeps (by simp)
  · have hreset : (softReset s).LabelsSound := beginStation_labelsSound (Nat.zero_le 8) rfl
    exact hreset.of_keeps (by simp)

theorem configureOwner_labelsSound {s : State} (hs : s.LabelsSound) (c : ConfigBlock) :
    (configureOwner c s).LabelsSound := by
  unfold configureOwner
  split
  · exact hs.of_keeps (by simp)
  · split
    · exact hs.of_keeps (by simp [takeSettings])
    · exact hs.of_keeps (by simp)

theorem countItemOwner_labelsSound {s : State} (hs : s.LabelsSound) (clerk : Byte) (plu : BitVec 24) (dept : Byte)
    (price : BitVec 24) (quantity : Byte) : (countItemOwner clerk plu dept price quantity s).LabelsSound := by
  unfold countItemOwner
  dsimp only
  split
  · exact hs.of_keeps (by simp)
  · exact completeCapture_labelsSound (hs.of_keeps (by simp)) _ _

theorem abortCaptureOwner_labelsSound {s : State} (hs : s.LabelsSound) : (abortCaptureOwner s).LabelsSound := by
  unfold abortCaptureOwner
  split
  · exact hs.of_keeps (by simp)
  · split
    · exact hs.of_keeps (by simp)
    · exact hs.of_keeps (by simp)
    · exact endCapture_labelsSound (hs.of_keeps (by simp)) _ _

theorem releaseHeldOwner_labelsSound {s : State} (hs : s.LabelsSound) : (releaseHeldOwner s).LabelsSound := by
  unfold releaseHeldOwner
  split
  · exact hs.of_keeps (by simp)
  · split
    · exact hs.of_keeps (by simp)
    · exact hs.of_keeps (by simp)
    · split
      · exact hs.of_keeps (by simp)
      · split
        · exact hs.of_keeps (by simp)
        · next hfree => exact postItem_labelsSound (hs.of_keeps (by simp)) (by simpa using hfree) _ _

theorem discardHeldOwner_labelsSound {s : State} (hs : s.LabelsSound) : (discardHeldOwner s).LabelsSound := by
  unfold discardHeldOwner
  split
  · exact hs.of_keeps (by simp)
  · split
    · exact hs.of_keeps (by simp)
    · exact hs.of_keeps (by simp)
    · exact becomeIdle_labelsSound (hs.of_keeps (by simp))

theorem joinDayOwner_labelsSound {s : State} (hs : s.LabelsSound) : (joinDayOwner s).LabelsSound := by
  unfold joinDayOwner
  split
  · exact hs.of_keeps (by simp)
  · split
    · exact hs.of_keeps (by simp)
    · exact startClose_labelsSound (hs.of_keeps (by simp)) _

/-- TAKE_LABEL frees the place of the record that it takes (R134). -/
theorem takeLabelOwner_labelsSound {s : State} (hs : s.LabelsSound) : (takeLabelOwner s).LabelsSound := by
  unfold takeLabelOwner
  split
  · exact hs.of_keeps (by simp)
  · next r rest hrecords =>
    obtain ⟨hfit, hkept⟩ := hs
    rw [hrecords, List.length_cons] at hfit
    have htaken : ({ s with lbl.records := rest } : State).LabelsSound := ⟨by dsimp only; omega, hkept⟩
    exact htaken.of_keeps (by simp)

/-- A request answers, places its frame, or is one that may post an item, start a close or begin the station: each keeps
the label places. -/
theorem exec_request_labelsSound {i : Instr} (hi : (requestBlock i).isSome = true) {s t : State} (hs : s.LabelsSound)
    (h : exec i s = .next t) : t.LabelsSound := by
  cases i with
  | configure c => exact serve_labelsSound (.configure c) (fun _ hu => configureOwner_labelsSound hu c) hs h
  | start => exact serve_labelsSound .start (fun _ hu => startOwner_labelsSound hu) hs h
  | restart => exact serve_labelsSound .restart (fun _ hu => restartOwner_labelsSound hu) hs h
  | countItem clerk plu dept price quantity =>
    exact serve_labelsSound (.countItem clerk plu dept price quantity)
      (fun _ hu => countItemOwner_labelsSound hu clerk plu dept price quantity) hs h
  | abortCapture => exact serve_labelsSound .abortCapture (fun _ hu => abortCaptureOwner_labelsSound hu) hs h
  | releaseHeld => exact serve_labelsSound .releaseHeld (fun _ hu => releaseHeldOwner_labelsSound hu) hs h
  | discardHeld => exact serve_labelsSound .discardHeld (fun _ hu => discardHeldOwner_labelsSound hu) hs h
  | joinDay => exact serve_labelsSound .joinDay (fun _ hu => joinDayOwner_labelsSound hu) hs h
  | takeLabel => exact serve_labelsSound .takeLabel (fun _ hu => takeLabelOwner_labelsSound hu) hs h
  | totalOrder clerk =>
    refine serve_labelsSound (.totalOrder clerk) (fun u hu => ?_) hs h
    exact reservingFrame_labelsSound hu (by simp) fun _ => rfl
  | voidLine clerk line =>
    refine serve_labelsSound (.voidLine clerk line) (fun u hu => ?_) hs h
    exact reservingFrame_labelsSound hu (by simp) fun _ => rfl
  | issueTicket | callNext | passTicket | cancelOrder | closeDay | askDaysum =>
    simp only [exec, execIssueTicket, execCallNext, execPassTicket, execCancelOrder, execCloseDay, execAskDaysum] at h
    exact serve_labelsSound _ (fun _ hu => requestFrame_labelsSound hu fun _ => rfl) hs h
  | readStatus | readWeight | readWatches | readTickets | readHealth | clearStoreLatch | readRoster | setTime | takeEvent
  | zero | tareWeigh | tareSet | tareClear | weighItem | setWatch | clearWatchStatus | readJournal | readOrder | readTotals
  | readDayRecord | readFaults =>
    simp only [exec, execReadStatus, execReadWeight, execReadWatches, execReadTickets, execReadHealth,
      execClearStoreLatch, execReadRoster, execSetTime, execTakeEvent, execZero, execTareWeigh, execTareSet, execTareClear,
      execWeighItem, execSetWatch, execClearWatchStatus, execReadJournal, execReadOrder, execReadTotals,
      execReadDayRecord, execReadFaults] at h
    refine serve_labelsSound _ (fun u hu => hu.of_keeps ?_) hs h
    -- Every branch of these owners ends in an answer, a refusal or a read handed, and none moves a place.
    simp only [readStatusOwner, readWeightOwner, readWatchesOwner, readTicketsOwner, readHealthOwner, clearStoreLatchOwner,
      readRosterOwner, setTimeOwner, takeEventOwner, zeroOwner, tareWeighOwner, tareSetOwner, tareClearOwner,
      weighItemOwner, setWatchOwner, clearWatchStatusOwner, readJournalOwner, readOrderOwner, readTotalsOwner,
      readDayRecordOwner, readFaultsOwner]
    repeat' split
    all_goals simp
  | _ => cases hi

/-! ### Every step -/

theorem tick_labelsSound {s : State} (hs : s.LabelsSound) : (tick s).LabelsSound := by
  unfold tick
  split
  · exact (hs.of_keeps (walkWord_keepsPlaces s)).of_keeps (by simp)
  · exact hs

theorem beginPreparation_labelsSound (kind : WalkKind) (straps : Straps) (m : Memory) (pending : List Instr) :
    (beginPreparation kind straps m pending).LabelsSound :=
  State.fresh_labelsSound ..

theorem restartBeacon_keepsPlaces (s : State) : (restartBeacon s).KeepsPlaces s := by simp

theorem loseSamples_keepsPlaces (s : State) : (loseSamples s).KeepsPlaces s := by
  cases h : s.wch.restorePending with
  | true => simp [loseSamples_again h]
  | false => simp [loseSamples_first h]

theorem judgeCensus_keepsPlaces (s : State) : (judgeCensus s).KeepsPlaces s := by
  unfold judgeCensus
  split <;> simp

/-- The census window ends, and a link that is OFF stays OFF (R66). -/
theorem endCensus_labelsSound {s : State} (hs : s.LabelsSound) : (endCensus s).LabelsSound := by
  obtain ⟨hfit, hcount, hsound, -, hoff⟩ := hs
  have hended : State.LabelsSound { s with
      hpt.runState := .running
      lnk := { s.lnk with
        state := if decide (s.lnk.state = .joining) then .live else s.lnk.state
        censusTimer := none
        beaconTimer := if decide (s.lnk.state = .joining) then some beaconTime else s.lnk.beaconTimer } } := by
    refine ⟨hfit, hcount, hsound, nofun, fun h => hoff ?_⟩
    dsimp only at h
    split at h
    · cases h
    · exact h
  exact hended.of_keeps (judgeCensus_keepsPlaces _)

theorem offerExpiry_labelsSound {s : State} (hs : s.LabelsSound) (clerk : Nat) (o : Order) :
    (offerExpiry clerk o s).LabelsSound := by
  unfold offerExpiry
  split
  · next hoffer =>
    exact enqueue_labelsSound (hs.of_keeps (by simp)) rfl (by simpa using link_on_of_offer hoffer)
  · exact hs.of_keeps (by simp)

theorem expireOrder_labelsSound {s : State} (hs : s.LabelsSound) (clerk : Nat) (o : Order) :
    (expireOrder clerk o s).LabelsSound := by
  unfold expireOrder
  dsimp only
  refine offerExpiry_labelsSound ?_ _ _
  split
  · exact hs
  · exact hs.of_keeps (by simp)

theorem completeOwn_keepsPlaces (own : Option TxFrame) (code : ResultCode) (ticket : Option Nat) (s : State) :
    (completeOwn own code ticket s).KeepsPlaces s := by simp

theorem applyDaysumAsk_labelsSound {s : State} (hs : s.LabelsSound) (day : BitVec 16) (own : Option TxFrame) :
    (applyDaysumAsk day own s).LabelsSound := by
  unfold applyDaysumAsk
  refine State.LabelsSound.of_keeps ?_ (completeOwn_keepsPlaces own .ok none _)
  split
  · exact makeDaysumDue_labelsSound hs _
  · exact hs

theorem applyCensusAsk_labelsSound {s : State} (hs : s.LabelsSound) (own : Option TxFrame) :
    (applyCensusAsk own s).LabelsSound := by
  unfold applyCensusAsk
  split
  · next h =>
    obtain ⟨-, -, hlive⟩ := h
    exact makeCensusDue_labelsSound hs (by simp [hlive])
  · exact hs

@[simp] theorem applyFigures_keepsPlaces (f : TicketFigures) (s : State) : (applyFigures f s).KeepsPlaces s := by
  simp [applyFigures_lnk]

theorem applyCensusTx_keepsPlaces (p : CensusTxPayload) (s : State) : (applyCensusTx p s).KeepsPlaces s := by
  unfold applyCensusTx openStub
  split
  · split <;> simp
  · simp

/-- A command that ends in a next state keeps the label places. -/
theorem exec_labelsSound {i : Instr} {s t : State} (hs : s.LabelsSound) (h : exec i s = .next t) : t.LabelsSound := by
  by_cases hi : (requestBlock i).isSome = true
  · exact exec_request_labelsSound hi hs h
  have hheads (hattempt : ¬s.lnk.attempt.isNone = true) : ¬(s.hpt.runState = .storePrep ∨ s.hpt.runState = .config) := by
    have ⟨_, _, hsound, hrun, _⟩ := hs
    refine mt hrun (State.HoldsPlaces.link_on (owing := 0) hs (hsound.queue_ne_nil ?_))
    simpa [Option.isSome_iff_ne_none] using hattempt
  cases i with
  | powerOn straps retainOk =>
    obtain rfl := Host.Outcome.next.inj h
    split
    · exact State.fresh_labelsSound ..
    · exact beginPreparation_labelsSound ..
  | mainPowerFail =>
    obtain rfl := Host.Outcome.next.inj h
    exact State.fresh_labelsSound ..
  | resetAssert =>
    obtain rfl := Host.Outcome.next.inj h
    split
    · exact hs
    · exact hs
    · exact hs
    · exact State.fresh_labelsSound ..
  | resetRelease straps =>
    obtain rfl := Host.Outcome.next.inj h
    split
    · exact hs
    · exact hs
    · exact hs
    · exact beginPreparation_labelsSound ..
  | verificationWalkEnd =>
    simp only [exec, execVerificationWalkEnd] at h
    split at h
    · next hprep _ =>
      split at h <;> obtain rfl := Host.Outcome.next.inj h
      · exact hs.of_keeps (walkWords_keepsPlaces _ s)
      · refine endPreparation_labelsSound ?_ ?_ _
        · split <;> exact hs.of_keeps (by simp)
        · split <;> simpa using runState_of_preparing hprep
    · obtain rfl := Host.Outcome.next.inj h
      exact hs
  | initializationWalkEnd =>
    simp only [exec, execInitializationWalkEnd] at h
    split at h <;> obtain rfl := Host.Outcome.next.inj h
    · next hprep _ =>
      exact endPreparation_labelsSound (hs.of_keeps (by simp)) (by simpa using runState_of_preparing hprep) _
    · exact hs
  | selectionEnd mosi =>
    obtain rfl := Host.Outcome.next.inj h
    exact hs.of_keeps (selection_keepsPlaces mosi s)
  | sampleArrival bits value =>
    obtain rfl := Host.Outcome.next.inj h
    split
    · exact arrival_labelsSound hs _
    · exact hs
  | sampleWatchdogExpiry =>
    obtain rfl := Host.Outcome.next.inj h
    split
    · exact hs.of_keeps (loseSamples_keepsPlaces s)
    · exact hs
  | captureTimerExpiry =>
    simp only [exec, execCaptureTimerExpiry] at h
    split at h <;> obtain rfl := Host.Outcome.next.inj h
    · exact endCapture_labelsSound hs _ _
    · exact hs
    · exact hs
  | holdTimerExpiry =>
    simp only [exec, execHoldTimerExpiry] at h
    split at h <;> obtain rfl := Host.Outcome.next.inj h
    · exact becomeIdle_labelsSound (hs.of_keeps (by simp))
    · exact hs
    · exact hs
  | beaconTimerExpiry =>
    obtain rfl := Host.Outcome.next.inj h
    split
    · next hlive =>
      refine State.LabelsSound.of_keeps ?_ (restartBeacon_keepsPlaces _)
      split
      · exact enqueue_labelsSound hs rfl (by simp_all)
      · exact hs
    · exact hs
  | censusTimerExpiry =>
    obtain rfl := Host.Outcome.next.inj h
    split
    · exact endCensus_labelsSound hs
    · exact hs
  | rosterAgeExpiry station =>
    obtain rfl := Host.Outcome.next.inj h
    split
    · exact hs
    · split
      · exact hs
      · exact hs.of_keeps (by simp)
  | orderExpiry clerk =>
    simp only [exec, execOrderExpiry] at h
    split at h <;> obtain rfl := Host.Outcome.next.inj h
    · exact hs
    · split
      · exact expireOrder_labelsSound hs _ _
      · exact hs
  | timeOfDayTick =>
    obtain rfl := Host.Outcome.next.inj h
    split
    · exact hs.of_keeps (by simp)
    · exact hs
  | scrubRequest =>
    obtain rfl := Host.Outcome.next.inj h
    split
    · exact hs.of_keeps (scrubRequest_keepsPlaces s)
    · exact hs
  | storeRead | storeUpdate | itemPosting | journalAppend | takenFlagUpdate | counterUpdate | recordWrite | closeCopy =>
    exact performHead_labelsSound hs h
  | linkAttemptStart =>
    obtain rfl := Host.Outcome.next.inj h
    split
    · next hidle =>
      obtain ⟨-, hattempt⟩ := by simpa only [Bool.and_eq_true, Option.isNone_iff_eq_none] using hidle
      exact beginAttempt_labelsSound hs hattempt
    · exact hs
  | arbitrationLost =>
    obtain rfl := Host.Outcome.next.inj h
    split
    · exact stopSending_labelsSound hs
    · exact hs
  | attemptBitError =>
    obtain rfl := Host.Outcome.next.inj h
    have hfailed : (failAttempt { s with lnk.clash := s.lnk.clash + 1 }).LabelsSound :=
      failAttempt_labelsSound (hs.of_keeps (by simp))
    split
    · exact hs
    · next hattempt =>
      dsimp only
      split
      · exact fallSilent_labelsSound hfailed (by simpa [failAttempt] using hheads hattempt)
      · split
        · exact dropFrame_labelsSound hfailed (by simp [failAttempt_lnk])
        · exact hfailed
  | attemptObjected =>
    obtain rfl := Host.Outcome.next.inj h
    have hfailed := failAttempt_labelsSound hs
    split
    · exact hs
    · dsimp only
      split
      · exact dropFrame_labelsSound hfailed (by simp [failAttempt_lnk])
      · exact hfailed
  | frameDamaged frame =>
    obtain rfl := Host.Outcome.next.inj h
    split
    · exact hs
    · split
      · exact stopSending_labelsSound hs
      · exact discardDamaged_labelsSound hs _
  | dayCloseAccepted origin p =>
    obtain rfl := Host.Outcome.next.inj h
    exact acceptOther_labelsSound hs (by simp [payloadClass]) fun own _ hu => applyDayClose_labelsSound hu p own
  | callAccepted | issueAccepted | passAccepted | txCloseAccepted | txCancelAccepted | voidAccepted | itemAccepted =>
    obtain rfl := Host.Outcome.next.inj h
    exact acceptDayFrame_labelsSound hs _
  | daysumAccepted origin p =>
    obtain rfl := Host.Outcome.next.inj h
    refine acceptOther_labelsSound hs (by simp [payloadClass]) fun _ u hu => hu.of_keeps ?_
    unfold applyDaysum
    split <;> simp
  | daysumAskAccepted origin day =>
    obtain rfl := Host.Outcome.next.inj h
    exact acceptOther_labelsSound hs (by simp [payloadClass]) fun own _ hu => applyDaysumAsk_labelsSound hu day own
  | censusAskAccepted origin =>
    obtain rfl := Host.Outcome.next.inj h
    exact acceptOther_labelsSound hs (by simp [payloadClass]) fun own _ hu => applyCensusAsk_labelsSound hu own
  | censusReplyAccepted origin p =>
    obtain rfl := Host.Outcome.next.inj h
    exact acceptOther_labelsSound hs (by simp [payloadClass]) fun _ u hu =>
      hu.of_keeps (by simp [applyCensusReply, noteOpenCount_lnk])
  | censusTxAccepted origin p =>
    obtain rfl := Host.Outcome.next.inj h
    exact acceptOther_labelsSound hs (by simp [payloadClass]) fun _ u hu => hu.of_keeps (applyCensusTx_keepsPlaces p u)
  | beaconAccepted origin p =>
    obtain rfl := Host.Outcome.next.inj h
    exact acceptOther_labelsSound hs (by simp [payloadClass]) fun _ u hu => hu.of_keeps (by simp [applyBeacon])
  | closeStart =>
    obtain rfl := Host.Outcome.next.inj h
    exact startLatched_labelsSound hs
  | vretDisturbance address flips =>
    obtain rfl := Host.Outcome.next.inj h
    exact hs.of_keeps (by simp)
  | _ => exact absurd rfl hi

/-- Settles O11: every command keeps the label places, and so does the passing of time. -/
theorem stepKeepsTheLabelPlaces : Obligations.StepKeepsTheLabelPlaces := by
  intro s t hs h
  unfold step at h
  split at h
  · obtain rfl := Host.Outcome.next.inj h
    exact tick_labelsSound hs
  · next c rest _ => exact exec_labelsSound (i := c) (s := { s with pending := rest }) (hs.of_keeps (by simp)) h

end Sys2Proof.Machine
end

section
/-! SUPPORT and the proof about the requests that read the store: the slot counted back, the read handed, and the answer at
the end of the read (R138, R157, R171, R184). -/

namespace Sys2Proof.Machine

/-! ### The slot counted back -/

/-- Counting back over the ring is subtraction modulo its size (R138, R171, R184). -/
theorem ringBack_eq {size newest index k : Nat} (hnewest : 1 ≤ newest) (hindex : index < size)
    (hk : (k : Int) = ((newest : Int) - 1 - index) % size + 1) : ringBack size newest index = k := by
  have hshift : ((newest : Int) - 1 - index) % size = ((newest + size - 1 - index : Nat) : Int) % size := by
    have hcast : ((newest + size - 1 - index : Nat) : Int) = (newest : Int) - 1 - index + size := by omega
    rw [hcast, Int.add_emod_right]
  rw [hshift] at hk
  unfold ringBack
  exact_mod_cast hk.symm

/-! ### The reads handed -/

section
variable {s : State} {n : Byte}

theorem exec_readJournal (h : s.asked (.readJournal n)) : exec (.readJournal n) s = .next (readJournalOwner n s) :=
  serve_asked h

theorem exec_readDayRecord (h : s.asked (.readDayRecord n)) :
    exec (.readDayRecord n) s = .next (readDayRecordOwner n s) := serve_asked h

theorem exec_readFaults (h : s.asked (.readFaults n)) : exec (.readFaults n) s = .next (readFaultsOwner n s) :=
  serve_asked h

theorem exec_readTotals (h : s.asked (.readTotals n)) : exec (.readTotals n) s = .next (readTotalsOwner n s) :=
  serve_asked h

theorem readJournalOwner_reads {k : Nat} (hn : n.toNat ≤ 127) (hnewest : 1 ≤ s.lbl.newest)
    (hk : ringBack 128 s.lbl.newest n.toNat = k) :
    readJournalOwner n s = awaitRead ((List.range 4).map (addrJournal k)) (.journal s.lbl.newest k) s := by
  simp [readJournalOwner, Nat.not_lt.mpr hn, Nat.ne_of_gt hnewest, hk]

theorem readDayRecordOwner_reads {k : Nat} (hn : n.toNat ≤ 7) (hnewest : 1 ≤ s.day.newestSlot)
    (hk : ringBack 8 s.day.newestSlot n.toNat = k) :
    readDayRecordOwner n s = awaitRead ((List.range 96).map (addrRecord k)) (.dayRecord k) s := by
  simp [readDayRecordOwner, Nat.not_lt.mpr hn, Nat.ne_of_gt hnewest, hk]

theorem readFaultsOwner_reads {k : Nat} (hn : n.toNat ≤ 5) (hnewest : 1 ≤ s.hlm.newestFault)
    (hk : ringBack 6 s.hlm.newestFault n.toNat = k) :
    readFaultsOwner n s
      = awaitRead ((List.range 8).map (addrFaultEntry k)) (.fault s.hlm.faultCount s.hlm.newestFault k) s := by
  simp [readFaultsOwner, Nat.not_lt.mpr hn, Nat.ne_of_gt hnewest, hk]

end

/-! ### The answer at the end of a read -/

/-- The answer to the host stays while the store scrubs. -/
@[simp] theorem scrubStep_slot (s : State) : (scrubStep s).hpt.slot = s.hpt.slot := by
  unfold scrubStep
  dsimp only
  split <;> simp

@[simp] theorem scrubSteps_slot (n : Nat) (s : State) : (scrubSteps n s).hpt.slot = s.hpt.slot := by
  induction n generalizing s with
  | zero => rfl
  | succ n ih => exact (ih _).trans (scrubStep_slot s)

@[simp] theorem scrubAfterOp_slot (s : State) : (scrubAfterOp s).hpt.slot = s.hpt.slot := by
  unfold scrubAfterOp runPending
  dsimp only
  split
  · split <;> simp
  · rfl

/-- Without a pending step an operation is no more than store activity (R151). -/
theorem scrubAfterOp_idle {s : State} (h : s.tst.scrubPending = 0) :
    scrubAfterOp s = { s with tst.activity := true } := by
  simp [scrubAfterOp, runPending, h]

@[simp] theorem handleFinds_slot (finds : List Find) (s : State) : (handleFinds finds s).hpt.slot = s.hpt.slot :=
  foldl_keeps (·.hpt.slot) (fun acc f => handleFind f acc) (by simp) finds s

@[simp] theorem handleFinds_mem (finds : List Find) (s : State) : (handleFinds finds s).tst.mem = s.tst.mem :=
  foldl_keeps (·.tst.mem) (fun acc f => handleFind f acc) (by simp) finds s

@[simp] theorem handleFinds_scrubPending (finds : List Find) (s : State) :
    (handleFinds finds s).tst.scrubPending = s.tst.scrubPending :=
  foldl_keeps (·.tst.scrubPending) (fun acc f => handleFind f acc) (by simp) finds s

/-- The state in which a read ends: its finds are handled and it is off the list. -/
def State.readEnded (s : State) (words : List JudgedWord) (rest : List Op) : State :=
  handleFinds (readFinds words) { s with tst.ops := rest }

/-- A request that still waits is answered at the end of its read. -/
theorem answerAwaited_awaiting {s : State} (h : s.hpt.slot = .awaiting) (answered : State → State) :
    answerAwaited answered s = answered s := by
  simp [answerAwaited, h]

/-! ### The words read, as response fields -/

section
variable (words : List JudgedWord)

/-- The data of the word read in place `k`. -/
def readData (k : Nat) : Nat := (words[k]?.map JudgedWord.data).getD 0

/-- The judgement flag of the word read in place `k`. -/
def readFlag (k : Nat) : Field := .flag (decide (words[k]?.map JudgedWord.judge = some .uncorrectable))

theorem take_judgedFields {n : Nat} (h : n ≤ words.length) : (words.take n).flatMap (judgedField 4)
    = (List.range n).flatMap fun k => [.num 4 (readData words k), readFlag words k] := by
  induction n with
  | zero => rfl
  | succ n ih =>
    have hword : words[n]? = some words[n] := List.getElem?_eq_getElem h
    rw [List.take_add_one, List.range_succ, List.flatMap_append, List.flatMap_append, ih (by omega)]
    simp [readData, readFlag, judgedField, hword]

variable (s : State)

/-- The answer of READ_JOURNAL (R138). -/
theorem journalAnswer_eq (newest slot : Nat) : journalAnswer newest slot words s = { s with hpt.slot := .ready (
    let w := readData words
    if w 0 % 1048576 = 0 then { result := .empty, data := [] }
    else { result := .ok
           data := [.num 1 newest, .num 1 slot, .num 3 (w 0 % 1048576), .num 1 (w 0 / 1048576 % 4),
             .num 2 (w 1 % 65536), .num 3 (w 2 % 131072), .num 1 (w 0 / 8388608 % 32),
             .num 3 (w 0 / 268435456 % 2 * 65536 + w 1 / 65536), .num 4 (w 3), .num 2 (w 2 / 131072),
             .flag (decide (w 0 / 4194304 % 2 = 1)),
             .flag (words.any fun j => decide (j.judge = .uncorrectable))] }) } := by
  unfold journalAnswer
  dsimp only
  split
  · next h =>
    have h' : readData words 0 % 1048576 = 0 := h
    rw [if_pos h', refuse_eq]
  · next h =>
    have h' : ¬readData words 0 % 1048576 = 0 := h
    rw [if_neg h', answer_eq]
    rfl

/-- The answer of READ_TOTALS for the station group (R157). -/
theorem stationAnswer_eq (h : 12 ≤ words.length) : totalsAnswer .station words s = { s with hpt.slot := .ready (
    let w := readData words
    { result := .ok
      data := ((List.range 12).flatMap fun k => [.num 4 (w k), readFlag words k])
        ++ [.flag (decide (w 12 % 2 = 1)), .flag (decide (w 12 / 2 % 2 = 1)),
            .flag (decide (w 12 / 4 % 2 = 1))] }) } := by
  have hone (n : Nat) : hasFlag n flagTotalsLost = decide (n % 2 = 1) := by rw [hasFlag, flagTotalsLost, Nat.div_one]
  simp only [totalsAnswer, take_judgedFields words h, answer_eq, hone]
  rfl

/-- The answer of READ_TOTALS for the group STORE, which reads no word (R157). -/
theorem storeAnswer_eq : totalsAnswer .store words s = { s with hpt.slot := .ready (
     { result := .ok
       data := (match s.tst.latch with
           | .empty => [.num 1 0, .opt false [(2, 0)]]
           | .corrected a => [.num 1 1, .opt true [(2, (a : Nat))]]
           | .uncorrectable a => [.num 1 2, .opt true [(2, (a : Nat))]])
         ++ [.num 2 s.tst.scrubPointer, .num 1 s.tst.scrubPending, .num 1 s.tst.walkResult.kind.number,
             .num 4 s.tst.walkResult.corrected, .num 4 s.tst.walkResult.uncorrectable] } : Response) } := by
  cases h : s.tst.latch <;> simp [totalsAnswer, answer_eq, ErrorLatch.fields, Field.optional, walkResultFields, h]

/-- The answer of READ_FAULTS (R184). -/
theorem faultAnswer_eq (count newest slot : Nat) : faultAnswer count newest slot words s = { s with hpt.slot := .ready (
    let w := readData words
    if w 0 % 256 = 0 then { result := .empty, data := [] }
    else { result := .ok
           data := [.num 2 count, .num 1 newest, .num 1 slot, .num 1 (w 0 % 256), .num 3 (w 1), .num 2 (w 2),
             .num 1 (w 0 / 256 % 256), .num 1 (w 0 / 65536 % 256),
             .opt (decide (w 3 % 256 ≠ 0)) [(1, (w 3 % 256 : Nat)), (4, w 4)],
             .opt (decide (w 3 / 256 % 256 ≠ 0)) [(1, (w 3 / 256 % 256 : Nat)), (4, w 5)],
             .opt (decide (w 3 / 65536 % 256 ≠ 0)) [(1, (w 3 / 65536 % 256 : Nat)), (4, w 6)],
             .flag (words.any fun j => decide (j.judge = .uncorrectable))] }) } := by
  unfold faultAnswer
  dsimp only
  split
  · next h =>
    have h' : readData words 0 % 256 = 0 := h
    rw [if_pos h', refuse_eq]
  · next h =>
    have h' : ¬readData words 0 % 256 = 0 := h
    rw [if_neg h', answer_eq]
    simp only [precedingField, pow_zero, Nat.div_one]
    rfl

/-- The answer of READ_DAY_RECORD (R171). -/
theorem dayRecordAnswer_eq (slot : Nat) (h : words.length = 96) : dayRecordAnswer slot words s
    = { s with hpt.slot := .ready (
    let w := readData words
    let bad := readFlag words
    if w 85 = 0 then { result := .empty, data := [] }
    else { result := .ok
           data := [.num 1 slot, .num 2 (w 85), bad 85, .num 3 (w 86), bad 86,
               .flag (decide (w 84 / 8 % 2 = 1)), .flag (decide (w 84 / 16 % 2 = 1)),
               .flag (decide (w 84 % 2 = 1)), .flag (decide (w 84 / 2 % 2 = 1)),
               .flag (decide (w 84 / 4 % 2 = 1)), bad 84]
             ++ ((List.range 84).flatMap fun o => [.num 4 (w o), bad o])
             ++ [.num 2 (w 87 % 65536 : Nat), bad 87, .num 2 (w 88 % 65536 : Nat),
                 .flag (decide (w 88 / 65536 % 2 = 1)), bad 88, .num 4 (w 89), bad 89, .num 4 (w 90), bad 90,
                 .num 4 (w 91), bad 91, .num 4 (w 92), bad 92] }) } := by
  have hdata (k : Nat) : (words[k]?.getD { address := 0, judge := .sound, data := 0 }).data = readData words k := by
    cases hk : words[k]? <;> simp [readData, hk]
  have hflag (k : Nat) : Field.flag (decide
      ((words[k]?.getD { address := 0, judge := .sound, data := 0 }).judge = .uncorrectable)) = readFlag words k := by
    cases hk : words[k]? <;> simp [readFlag, hk]
  have hone (n : Nat) : hasFlag n flagTotalsLost = decide (n % 2 = 1) := by rw [hasFlag, flagTotalsLost, Nat.div_one]
  unfold dayRecordAnswer
  simp only [hdata, hflag, judgedField, take_judgedFields words (show 84 ≤ words.length by omega)]
  split
  · next h' =>
    have h' : readData words 85 = 0 := h'
    simp only [if_pos h']
    rw [refuse_eq]
  · next h' =>
    have h' : ¬readData words 85 = 0 := h'
    simp only [if_neg h']
    rw [answer_eq]
    simp only [hone, List.append_assoc]
    generalize (List.range 84).flatMap _ = counters
    rfl

end

/-- STORE_READ at the read of a request that waits answers it with the words read. -/
theorem exec_storeRead_answers {s : State} {addresses : List Nat} {purpose : ReadPurpose} {rest : List Op}
    (hp : s.power = .on) (hrun : s.hpt.runState ≠ .storePrep) (hslot : s.hpt.slot = .awaiting)
    (hops : s.tst.ops = .read addresses purpose :: rest) {answered : List JudgedWord → State → State}
    {answer : Response}
    (hread : finishRead purpose (addresses.map (Memory.read s.tst.mem))
      = answerAwaited (answered (addresses.map (Memory.read s.tst.mem))))
    (hanswer : answered (addresses.map (Memory.read s.tst.mem))
        (s.readEnded (addresses.map (Memory.read s.tst.mem)) rest)
      = { s.readEnded (addresses.map (Memory.read s.tst.mem)) rest with hpt.slot := .ready answer }) :
    ∃ t, exec .storeRead s = .next t ∧ t.hpt.slot = .ready answer
      ∧ (s.tst.scrubPending = 0 → t.tst.mem = s.tst.mem) := by
  have hserves : s.storeServes = true := by simp [State.storeServes, State.working, hp, hrun]
  have hexec : exec .storeRead s = .next (scrubAfterOp
      (finishRead purpose (addresses.map (Memory.read s.tst.mem))
        (s.readEnded (addresses.map (Memory.read s.tst.mem)) rest))) := by
    refine (performHead_cons hops _).trans ?_
    simp only [hserves, Bool.and_true, if_true]
    rfl
  rw [hread, answerAwaited_awaiting (by simp [State.readEnded, hslot]), hanswer] at hexec
  refine ⟨_, hexec, by simp, fun hpending => ?_⟩
  rw [scrubAfterOp_idle (by simp [State.readEnded, hpending])]
  simp [State.readEnded]

/-- Settles O40: the owners hand the read of the slot counted back, and its end answers by the purpose of the read. -/
theorem storeReadingRequestsWait : Obligations.StoreReadingRequestsWait := by
  refine ⟨fun s => ⟨?_, ?_, ?_, ?_⟩, ?_⟩
  · refine fun n ha => ⟨fun hn => ?_, fun hn hnone => ?_, fun hn hlow _ k hk => ?_⟩ <;> rw [exec_readJournal ha]
    · simp [readJournalOwner, hn]
    · simp [readJournalOwner, Nat.not_lt.mpr hn, hnone]
    · rw [readJournalOwner_reads hn hlow (ringBack_eq hlow (Nat.lt_succ_of_le hn) hk)]
      rfl
  · refine fun n ha => ⟨fun hn => ?_, fun hn hnone => ?_, fun hn hlow _ k hk => ?_⟩ <;> rw [exec_readDayRecord ha]
    · simp [readDayRecordOwner, hn]
    · simp [readDayRecordOwner, Nat.not_lt.mpr hn, hnone]
    · rw [readDayRecordOwner_reads hn hlow (ringBack_eq hlow (Nat.lt_succ_of_le hn) hk)]
      rfl
  · refine fun n ha => ⟨fun hn => ?_, fun hn hnone => ?_, fun hn hlow _ k hk => ?_⟩ <;> rw [exec_readFaults ha]
    · simp [readFaultsOwner, hn]
    · simp [readFaultsOwner, Nat.not_lt.mpr hn, hnone]
    · rw [readFaultsOwner_reads hn hlow (ringBack_eq hlow (Nat.lt_succ_of_le hn) hk)]
      rfl
  · refine fun n ha => ⟨fun hn => ?_, fun g addresses hgroup => ?_⟩ <;> rw [exec_readTotals ha]
    · have hnone : totalsGroup n = none := by
        unfold totalsGroup
        split <;> simp_all
      simp [readTotalsOwner, hnone]
    · obtain ⟨hn, rfl, rfl⟩ | ⟨hn, rfl, rfl⟩ | ⟨hn, rfl, rfl⟩ | ⟨hn, rfl, rfl⟩ := hgroup <;>
        simp only [readTotalsOwner, totalsGroup, hn] <;> rfl
  · rintro s addresses purpose rest words w bad answer hp hrun hslot hops rfl rfl rfl hpurpose
    obtain ⟨newest, k, rfl, rfl⟩ | ⟨rfl | rfl, rfl⟩ | ⟨rfl, rfl, rfl⟩ | ⟨rfl, rfl, rfl⟩ | ⟨k, rfl, rfl, rfl⟩
      | ⟨count, newest, k, rfl, rfl⟩ := hpurpose
    · exact exec_storeRead_answers hp hrun hslot hops rfl (journalAnswer_eq ..)
    · exact exec_storeRead_answers hp hrun hslot hops rfl (answer_eq ..)
    · exact exec_storeRead_answers hp hrun hslot hops rfl (answer_eq ..)
    · exact exec_storeRead_answers hp hrun hslot hops rfl (stationAnswer_eq _ _ (by simp))
    · exact exec_storeRead_answers hp hrun hslot hops rfl (storeAnswer_eq ..)
    · exact exec_storeRead_answers hp hrun hslot hops rfl (dayRecordAnswer_eq _ _ _ (by simp))
    · exact exec_storeRead_answers hp hrun hslot hops rfl (faultAnswer_eq ..)

end Sys2Proof.Machine
end

section
/-! SUPPORT about the words that an operation reads and writes: one rule for each step of an operation under way. -/

namespace Sys2Proof.Machine

/-! ### Words -/

/-- A reading returns 32 data bits (R141). -/
theorem Memory.read_data_lt (m : Memory) (a : Nat) : (Memory.read m a).data < 2 ^ 32 := by
  unfold Memory.read StoreWord.data
  dsimp only
  split
  · exact BitVec.isLt _
  · split <;> exact BitVec.isLt _
  · exact BitVec.isLt _

/-- A sum of R143 fits a word. -/
theorem satAdd_lt (a b : Nat) : satAdd a b < 2 ^ 32 := by
  unfold satAdd bucketMax
  omega

/-- A word written with data that fits it reads SOUND with that data (R141). -/
theorem Memory.read_written (m : Memory) {a : Nat} (ha : a < 2048) {data : Nat} (hd : data < 2 ^ 32) :
    Memory.read (Memory.write m a data) a = { address := a, judge := .sound, data := data } := by
  rw [Memory.read_write_same m ha, Nat.mod_eq_of_lt hd]

/-- Words written whole leave every word that is not named. -/
theorem read_writeWords_other {words : List (Nat × Word)} {a : Nat} (h : ∀ p ∈ words, p.1 ≠ a) (m : Memory) :
    Memory.read (writeWords m words) a = Memory.read m a := by
  induction words generalizing m with
  | nil => rfl
  | cons p rest ih =>
    have hrest : ∀ q ∈ rest, q.1 ≠ a := fun q hq => h q (List.mem_cons_of_mem _ hq)
    have hp : a ≠ p.1 := (h p List.mem_cons_self).symm
    exact (ih hrest _).trans (Memory.read_write_other m hp _)

/-- An address that heads a list without repeats is not met again. -/
theorem address_ne {α : Type} {rest : List (Nat × α)} {a : Nat} (h : a ∉ rest.map Prod.fst) {p : Nat × α}
    (hp : p ∈ rest) : p.1 ≠ a := by
  rintro rfl
  exact h (List.mem_map_of_mem hp)

/-- A word written whole reads SOUND with its data, when no later word is written at its address. -/
theorem read_writeWords_mem {words : List (Nat × Word)} (hnodup : (words.map Prod.fst).Nodup) {p : Nat × Word}
    (hp : p ∈ words) (ha : p.1 < 2048) (m : Memory) :
    Memory.read (writeWords m words) p.1 = { address := p.1, judge := .sound, data := p.2.toNat } := by
  induction words generalizing m with
  | nil => exact nomatch hp
  | cons q rest ih =>
    obtain ⟨hq, hrest⟩ := List.nodup_cons.mp hnodup
    rcases List.mem_cons.mp hp with rfl | hmem
    · exact (read_writeWords_other (fun _ => address_ne hq) _).trans (Memory.read_written m ha p.2.isLt)
    · exact ih hrest hmem _

/-! ### One step of an operation -/

@[simp] theorem Work.note_bad (w : Work) (a : Nat) (j : Judgement) (k : FindKind) (r : Bool) :
    (w.note a j k r).bad = (w.bad || decide (j = .uncorrectable)) := by
  cases j <;> simp [Work.note]

theorem Work.note_finds (w : Work) (a : Nat) (j : Judgement) (k : FindKind) (r : Bool) :
    (w.note a j k r).finds = w.finds ++ if j = .sound then [] else [⟨a, j, k, r⟩] := by
  cases j <;> simp [Work.note]

/-- An update step leaves a word that it finds UNCORRECTABLE (R145). -/
theorem Work.change_left {w : Work} {a : Nat} (h : (Memory.read w.mem a).judge = .uncorrectable) (f : Nat → Nat) :
    (w.change a f).mem = w.mem := by
  simp [Work.change, h]

/-- An update step writes a word that it can read (R145). -/
theorem Work.change_mem {w : Work} {a : Nat} (h : (Memory.read w.mem a).judge ≠ .uncorrectable) (f : Nat → Nat) :
    (w.change a f).mem = Memory.write w.mem a (f (Memory.read w.mem a).data) := by
  simp [Work.change, h]

/-- The word of an update step reads SOUND with the changed data. -/
theorem Work.read_change_same {w : Work} {a : Nat} (ha : a < 2048)
    (h : (Memory.read w.mem a).judge ≠ .uncorrectable) {f : Nat → Nat} (hf : f (Memory.read w.mem a).data < 2 ^ 32) :
    Memory.read (w.change a f).mem a
      = { address := a, judge := .sound, data := f (Memory.read w.mem a).data } := by
  rw [Work.change_mem h, Memory.read_written _ ha hf]

/-- An update step leaves every other word. -/
theorem Work.read_change_other (w : Work) {a b : Nat} (h : b ≠ a) (f : Nat → Nat) :
    Memory.read (w.change a f).mem b = Memory.read w.mem b := by
  by_cases hj : (Memory.read w.mem a).judge = .uncorrectable
  · rw [Work.change_left hj]
  · rw [Work.change_mem hj, Memory.read_write_other _ h]

/-- An update step remembers a word found UNCORRECTABLE. -/
theorem Work.change_bad (w : Work) (a : Nat) (f : Nat → Nat) :
    (w.change a f).bad = (w.bad || decide ((Memory.read w.mem a).judge = .uncorrectable)) := by
  unfold Work.change
  dsimp only
  split <;> exact Work.note_bad ..

theorem Work.change_finds (w : Work) (a : Nat) (f : Nat → Nat) :
    (w.change a f).finds = (w.note a (Memory.read w.mem a).judge .update true).finds := by
  unfold Work.change
  dsimp only
  split <;> rfl

/-! ### The last step of an update -/

/-- Without an uncorrectable word and without a flag of its own the last step does nothing (R145). -/
theorem Work.flagged_sound {w : Work} (h : w.bad = false) (a : Nat) : w.flagged a 0 = w := by
  simp [Work.flagged, h]

/-- After an uncorrectable word the last step sets the flag uncorrectable seen (R145). -/
theorem Work.flagged_bad {w : Work} (h : w.bad = true) (a : Nat) :
    w.flagged a 0 = w.change a fun d => setFlag d flagUncorrectableSeen := by
  have hset : setFlag 0 flagUncorrectableSeen = 2 := by decide
  have hseen : hasFlag 2 flagUncorrectableSeen = true := by decide
  have hlimit : hasFlag 2 flagAmountLimit = false := by decide
  simp [Work.flagged, h, hset, hseen, hlimit]

/-- The last step touches its own word alone. -/
theorem Work.read_flagged_other (w : Work) {a b : Nat} (h : b ≠ a) :
    Memory.read (w.flagged a 0).mem b = Memory.read w.mem b := by
  cases hb : w.bad with
  | false => rw [Work.flagged_sound hb]
  | true => rw [Work.flagged_bad hb, Work.read_change_other w h]

/-- The flag uncorrectable seen fits the word that it is set in. -/
theorem setSeen_lt {data : Nat} (h : data < 2 ^ 32) : setFlag data flagUncorrectableSeen < 2 ^ 32 := by
  unfold setFlag hasFlag flagUncorrectableSeen
  split
  · exact h
  · simp_all
    omega

/-- The taken flag fits the word that it is set in. -/
theorem setTaken_lt {data : Nat} (h : data < 2 ^ 32) : setFlag data flagTaken < 2 ^ 32 := by
  unfold setFlag hasFlag flagTaken
  split
  · exact h
  · simp_all
    omega

theorem hasFlag_iff {data flag : Nat} : hasFlag data flag = true ↔ data / flag % 2 = 1 := decide_eq_true_iff

theorem setFlag_eq (data flag : Nat) : setFlag data flag = if data / flag % 2 = 1 then data else data + flag := by
  simp [setFlag, hasFlag]

theorem setSeen_eq (data : Nat) :
    setFlag data flagUncorrectableSeen = if data / 2 % 2 = 1 then data else data + 2 := setFlag_eq data 2

theorem setTaken_eq (data : Nat) :
    setFlag data flagTaken = if data / 4194304 % 2 = 1 then data else data + 4194304 := setFlag_eq data 4194304

/-! ### Finds -/

/-- Every find is one of R149, and of one kind. -/
def Work.FindsOf (w : Work) (kind : FindKind) : Prop := ∀ f ∈ w.finds, f.judge ≠ .sound ∧ f.kind = kind

theorem Work.FindsOf.of_mem {w : Work} {kind : FindKind} (h : w.FindsOf kind) {f : Find} (hf : f ∈ w.finds) :
    f.judge ≠ .sound ∧ f.kind = kind := h f hf

theorem Work.findsOf_begin (m : Memory) (kind : FindKind) : (Work.begin m).FindsOf kind := fun _ h => nomatch h

theorem Work.FindsOf.note {w : Work} {kind : FindKind} (h : w.FindsOf kind) (a : Nat) (j : Judgement) (r : Bool) :
    (w.note a j kind r).FindsOf kind := by
  intro f hf
  rw [Work.note_finds, List.mem_append] at hf
  rcases hf with hf | hf
  · exact h f hf
  · split at hf
    · exact nomatch hf
    · next hj =>
      obtain rfl := List.mem_singleton.mp hf
      exact ⟨hj, rfl⟩

theorem Work.FindsOf.change {w : Work} (h : w.FindsOf .update) (a : Nat) (f : Nat → Nat) :
    (w.change a f).FindsOf .update := by
  unfold Work.FindsOf
  rw [Work.change_finds]
  exact h.note _ _ _

theorem Work.FindsOf.flagged {w : Work} (h : w.FindsOf .update) (a flags : Nat) :
    (w.flagged a flags).FindsOf .update := by
  unfold Work.flagged
  extract_lets all
  split
  · exact h
  · exact h.change _ _

/-- A fold of steps that each find that kind alone finds that kind alone. -/
theorem Work.FindsOf.foldl {β : Type} {kind : FindKind} {step : Work → β → Work}
    (hstep : ∀ w b, w.FindsOf kind → (step w b).FindsOf kind) (l : List β) {w : Work} (h : w.FindsOf kind) :
    (l.foldl step w).FindsOf kind := by
  induction l generalizing w with
  | nil => exact h
  | cons b rest ih => exact ih (hstep w b h)

theorem runUpdate_findsOf (m : Memory) (additions : List (Nat × Nat)) : (runUpdate m additions).FindsOf .update :=
  .flagged (.foldl (fun _ _ h => h.change _ _) additions (Work.findsOf_begin m _)) _ _

theorem runItemPosting_findsOf (m : Memory) (dept price : Nat) (weight : Option Nat) :
    (runItemPosting m dept price weight).FindsOf .update := by
  unfold runItemPosting
  extract_lets total first limit w0 w1 w2 w3 w4 w5
  have h0 : w0.FindsOf .update := (Work.findsOf_begin m _).note _ _ _
  have h1 : w1.FindsOf .update := by
    unfold w1
    split
    · exact h0
    · exact h0.change _ _
  have h3 : w3.FindsOf .update := by
    unfold w3
    split
    · exact h1.change _ _
    · exact (h1.change _ _).change _ _
  have h4 : w4.FindsOf .update := by
    unfold w4
    split <;> exact h3
  exact (h4.change _ _).flagged _ _

theorem runJournalAppend_findsOf (m : Memory) (slot : Nat) (entry : List Word) (label : Word) :
    (runJournalAppend m slot entry label).FindsOf .update := ((Work.findsOf_begin _ _).change _ _).flagged _ _

theorem runTakenFlag_findsOf (m : Memory) (slot serial day : Nat) :
    (runTakenFlag m slot serial day).FindsOf .update := by
  unfold runTakenFlag
  extract_lets a0 a1 j0 j1 sound isEntry w
  have hw : w.FindsOf .update := ((Work.findsOf_begin _ _).note _ _ _).note _ _ _
  split <;> exact hw

theorem runCounterUpdate_findsOf (m : Memory) (slot station : Nat) (f : DayFigures) :
    (runCounterUpdate m slot station f).1.FindsOf .update := by
  unfold runCounterUpdate
  extract_lets reads datum bad contributors adds w
  have hw : w.FindsOf .update := .foldl (fun _ _ h => h.note _ _ _) reads (Work.findsOf_begin m _)
  split
  · exact hw.flagged _ _
  · split <;> exact hw

theorem Work.FindsOf.copyWord {w : Work} (h : w.FindsOf .copy) (slot offset : Nat) :
    (w.copyWord slot offset).FindsOf .copy := by
  unfold Work.copyWord
  extract_lets j w'
  have hw : w'.FindsOf .copy := h.note _ _ _
  split <;> exact hw

theorem runCloseCopy_findsOf (m : Memory) (c : CopyOrder) : (runCloseCopy m c).FindsOf .copy := by
  unfold runCloseCopy
  extract_lets control w
  have hw : w.FindsOf .copy := .foldl (fun _ _ h => h.copyWord _ _) (List.range 85) (Work.findsOf_begin m _)
  exact fun f hf => hw.of_mem hf

/-- The finds of a read, one for each word that is not SOUND (R145, R149). -/
theorem readFinds_eq (words : List JudgedWord) : readFinds words
    = (words.filter fun j => decide (j.judge ≠ .sound)).map fun j => ⟨j.address, j.judge, .read, false⟩ := by
  have hfold : ∀ w : Work, (words.foldl (fun w j => w.note j.address j.judge .read false) w).finds
      = w.finds ++ (words.filter fun j => decide (j.judge ≠ .sound)).map
        fun j => ⟨j.address, j.judge, .read, false⟩ := by
    induction words with
    | nil => simp
    | cons j rest ih =>
      intro w
      rw [List.foldl_cons, ih, Work.note_finds, List.filter_cons]
      by_cases hj : j.judge = .sound <;> simp [hj]
  simpa [readFinds, Work.begin] using hfold (Work.begin [])

end Sys2Proof.Machine
end

section
/-! SUPPORT about each store operation: the words that it writes and the words that it leaves (R137, R143, R145, R173). -/

namespace Sys2Proof.Machine

/-! ### What operations find -/

/-- The kind of find that an operation makes (R149). -/
def Op.findKind (op : Op) : FindKind :=
  match op with
  | .read .. => .read
  | .closeCopy _ => .copy
  | .update _ | .itemPosting .. | .journalAppend .. | .takenFlag .. | .counterUpdate .. | .recordWrite _ => .update

theorem runOp_closeCopy_finds (m : Memory) (c : CopyOrder) :
    (runOp m (.closeCopy c)).finds = (runCloseCopy m c).finds := by
  simp only [runOp, OpEffect.ofWork]

theorem runOp_findsOf (m : Memory) (op : Op) : ∀ f ∈ (runOp m op).finds, f.judge ≠ .sound ∧ f.kind = op.findKind := by
  cases op with
  | read addresses purpose =>
    intro f hf
    change f ∈ readFinds (addresses.map (Memory.read m)) at hf
    rw [readFinds_eq] at hf
    obtain ⟨j, hj, rfl⟩ := List.mem_map.mp hf
    exact ⟨by simpa using (List.mem_filter.mp hj).2, rfl⟩
  | update additions => exact runUpdate_findsOf m additions
  | itemPosting dept price weight => exact runItemPosting_findsOf m dept price weight
  | journalAppend slot entry label => exact runJournalAppend_findsOf m slot entry label
  | takenFlag slot serial day => exact runTakenFlag_findsOf m slot serial day
  | counterUpdate slot day station figures => exact runCounterUpdate_findsOf m slot station figures
  | recordWrite words => exact fun _ hf => nomatch hf
  | closeCopy c =>
    intro f hf
    rw [runOp_closeCopy_finds] at hf
    exact (runCloseCopy_findsOf m c).of_mem hf

theorem runOp_read_finds (m : Memory) (addresses : List Nat) (purpose : ReadPurpose) :
    (runOp m (.read addresses purpose)).finds = (addresses.filter fun a => decide ((Memory.read m a).judge ≠ .sound)).map
      fun a => ⟨a, (Memory.read m a).judge, .read, false⟩ := by
  change readFinds (addresses.map (Memory.read m)) = _
  rw [readFinds_eq, List.filter_map, List.map_map]
  rfl

/-! ### An update of running buckets -/

/-- The additions of an update, each at its word. -/
def Work.adds (w : Work) (additions : List (Nat × Nat)) : Work :=
  additions.foldl (fun w p => w.change p.1 fun d => satAdd d p.2) w

theorem runUpdate_eq (m : Memory) (additions : List (Nat × Nat)) :
    runUpdate m additions = ((Work.begin m).adds additions).flagged 92 0 := rfl

/-- An update step on a word depends on that word alone. -/
theorem Work.read_change_congr {w v : Work} {a : Nat} (ha : a < 2048) (h : Memory.read w.mem a = Memory.read v.mem a)
    (f : Nat → Nat) : Memory.read (w.change a f).mem a = Memory.read (v.change a f).mem a := by
  by_cases hj : (Memory.read w.mem a).judge = .uncorrectable
  · rw [Work.change_left hj, Work.change_left (by rwa [← h]), h]
  · rw [Work.change_mem hj, Work.change_mem (by rwa [← h]), Memory.read_write_same _ ha, Memory.read_write_same _ ha, h]

theorem Work.read_adds_other {additions : List (Nat × Nat)} {a : Nat} (h : ∀ p ∈ additions, p.1 ≠ a) (w : Work) :
    Memory.read (w.adds additions).mem a = Memory.read w.mem a := by
  induction additions generalizing w with
  | nil => rfl
  | cons p rest ih =>
    have hrest : ∀ q ∈ rest, q.1 ≠ a := fun q hq => h q (List.mem_cons_of_mem _ hq)
    exact (ih hrest _).trans (w.read_change_other (h p List.mem_cons_self).symm _)

/-- Of additions at different words each is one update step at its word. -/
theorem Work.read_adds_mem {additions : List (Nat × Nat)} (hnodup : (additions.map Prod.fst).Nodup) {p : Nat × Nat}
    (hp : p ∈ additions) (ha : p.1 < 2048) (w : Work) :
    Memory.read (w.adds additions).mem p.1 = Memory.read (w.change p.1 fun d => satAdd d p.2).mem p.1 := by
  induction additions generalizing w with
  | nil => exact nomatch hp
  | cons q rest ih =>
    obtain ⟨hq, hrest⟩ := List.nodup_cons.mp hnodup
    rcases List.mem_cons.mp hp with rfl | hmem
    · exact Work.read_adds_other (fun _ => address_ne hq) _
    · exact (ih hrest hmem _).trans (Work.read_change_congr ha (w.read_change_other (address_ne hq hmem) _) _)

/-- The additions meet an uncorrectable word when one of their words is (R145). -/
theorem Work.adds_bad {additions : List (Nat × Nat)} (hnodup : (additions.map Prod.fst).Nodup) (w : Work) :
    (w.adds additions).bad = true
      ↔ w.bad = true ∨ ∃ p ∈ additions, (Memory.read w.mem p.1).judge = .uncorrectable := by
  induction additions generalizing w with
  | nil => simp [Work.adds]
  | cons q rest ih =>
    obtain ⟨hq, hrest⟩ := List.nodup_cons.mp hnodup
    have hsame : ∀ p ∈ rest, Memory.read (w.change q.1 fun d => satAdd d q.2).mem p.1 = Memory.read w.mem p.1 :=
      fun p hp => w.read_change_other (address_ne hq hp) _
    refine (ih hrest _).trans ?_
    rw [Work.change_bad]
    constructor
    · rintro (hbad | ⟨p, hp, hj⟩)
      · simp only [Bool.or_eq_true, decide_eq_true_eq] at hbad
        exact hbad.imp_right fun hj => ⟨q, List.mem_cons_self, hj⟩
      · exact .inr ⟨p, List.mem_cons_of_mem _ hp, by rwa [← hsame p hp]⟩
    · rintro (hbad | ⟨p, hp, hj⟩)
      · exact .inl (by simp [hbad])
      · rcases List.mem_cons.mp hp with rfl | hmem
        · exact .inl (by simp [hj])
        · exact .inr ⟨p, hmem, by rwa [hsame p hmem]⟩

section
variable {m : Memory} {additions : List (Nat × Nat)}

/-- An update adds to a word that it can read, up to the bucket limit (R143, R145). -/
theorem read_runUpdate_added (hnodup : (additions.map Prod.fst).Nodup) {p : Nat × Nat} (hp : p ∈ additions)
    (ha : p.1 < 2048) (hflags : p.1 ≠ 92) (hj : (Memory.read m p.1).judge ≠ .uncorrectable) :
    Memory.read (runUpdate m additions).mem p.1
      = { address := p.1, judge := .sound, data := satAdd (Memory.read m p.1).data p.2 } := by
  rw [runUpdate_eq, Work.read_flagged_other _ hflags, Work.read_adds_mem hnodup hp ha]
  exact Work.read_change_same (w := Work.begin m) ha hj (satAdd_lt _ _)

/-- An update leaves a word that it finds UNCORRECTABLE (R145). -/
theorem read_runUpdate_left (hnodup : (additions.map Prod.fst).Nodup) {p : Nat × Nat} (hp : p ∈ additions)
    (ha : p.1 < 2048) (hflags : p.1 ≠ 92) (hj : (Memory.read m p.1).judge = .uncorrectable) :
    Memory.read (runUpdate m additions).mem p.1 = Memory.read m p.1 := by
  rw [runUpdate_eq, Work.read_flagged_other _ hflags, Work.read_adds_mem hnodup hp ha]
  rw [Work.change_left (w := Work.begin m) hj]
  rfl

theorem read_runUpdate_other {a : Nat} (hflags : a ≠ 92) (h : ∀ p ∈ additions, p.1 ≠ a) :
    Memory.read (runUpdate m additions).mem a = Memory.read m a := by
  rw [runUpdate_eq, Work.read_flagged_other _ hflags]
  exact Work.read_adds_other h _

/-- The flag word stays when every word could be read (R145). -/
theorem read_runUpdate_flags_left (hnodup : (additions.map Prod.fst).Nodup) (h92 : ∀ p ∈ additions, p.1 ≠ 92)
    (hall : ∀ p ∈ additions, (Memory.read m p.1).judge ≠ .uncorrectable) :
    Memory.read (runUpdate m additions).mem 92 = Memory.read m 92 := by
  have hbad : ((Work.begin m).adds additions).bad = false := by
    rw [Bool.eq_false_iff]
    rintro hbad
    rcases (Work.adds_bad hnodup _).mp hbad with h | ⟨p, hp, hj⟩
    · exact nomatch h
    · exact hall p hp hj
  rw [runUpdate_eq, Work.flagged_sound hbad]
  exact Work.read_adds_other h92 _

/-- The flag uncorrectable seen is set when a word could not be read (R145). -/
theorem read_runUpdate_flags_set (hnodup : (additions.map Prod.fst).Nodup) (h92 : ∀ p ∈ additions, p.1 ≠ 92)
    (hsome : ∃ p ∈ additions, (Memory.read m p.1).judge = .uncorrectable)
    (hj : (Memory.read m 92).judge ≠ .uncorrectable) :
    Memory.read (runUpdate m additions).mem 92
      = { address := 92, judge := .sound, data := setFlag (Memory.read m 92).data flagUncorrectableSeen } := by
  have hsame : Memory.read ((Work.begin m).adds additions).mem 92 = Memory.read m 92 := Work.read_adds_other h92 _
  have hbad : ((Work.begin m).adds additions).bad = true := (Work.adds_bad hnodup (Work.begin m)).mpr (.inr hsome)
  rw [runUpdate_eq, Work.flagged_bad hbad]
  rw [← hsame] at hj ⊢
  exact Work.read_change_same (by decide) hj (setSeen_lt (Memory.read_data_lt _ _))

end

/-! ### A journal append -/

section
variable {m : Memory} {slot : Nat} {w0 w1 w2 w3 label : Word}

/-- The words that a journal append writes whole: those of the entry and the label word (R135, R136). -/
def journalWords (slot : Nat) (w0 w1 w2 w3 label : Word) : List (Nat × Word) :=
  [(872 + 4 * (slot - 1), w0), (872 + 4 * (slot - 1) + 1, w1), (872 + 4 * (slot - 1) + 2, w2),
   (872 + 4 * (slot - 1) + 3, w3), (1, label)]

theorem runJournalAppend_eq (m : Memory) (slot : Nat) (w0 w1 w2 w3 label : Word) :
    runJournalAppend m slot [w0, w1, w2, w3] label
      = ((Work.begin (writeWords m (journalWords slot w0 w1 w2 w3 label))).change 90 fun d => satAdd d 1).flagged 92 0 :=
  rfl

theorem journalWords_nodup : ((journalWords slot w0 w1 w2 w3 label).map Prod.fst).Nodup := by
  simp [journalWords]
  omega

theorem journalWords_address {p : Nat × Word} (hp : p ∈ journalWords slot w0 w1 w2 w3 label) :
    p.1 = 1 ∨ 872 + 4 * (slot - 1) ≤ p.1 ∧ p.1 < 872 + 4 * (slot - 1) + 4 := by
  simp only [journalWords, List.mem_cons, List.not_mem_nil, or_false] at hp
  rcases hp with rfl | rfl | rfl | rfl | rfl <;> simp

/-- A word of the entry, and the label word, is written whole (R135, R136). -/
theorem read_runJournalAppend_written (hslot : slot ≤ 128) {p : Nat × Word}
    (hp : p ∈ journalWords slot w0 w1 w2 w3 label) :
    Memory.read (runJournalAppend m slot [w0, w1, w2, w3] label).mem p.1
      = { address := p.1, judge := .sound, data := p.2.toNat } := by
  have haddress := journalWords_address hp
  rw [runJournalAppend_eq, Work.read_flagged_other _ (by omega), Work.read_change_other _ (by omega)]
  exact read_writeWords_mem journalWords_nodup hp (by omega) m

/-- A word that no word of the append stands at, with the count and the flag word left aside, stays. -/
theorem read_journalWords_other {a : Nat} (h1 : a ≠ 1)
    (hentry : a < 872 + 4 * (slot - 1) ∨ 872 + 4 * (slot - 1) + 4 ≤ a) :
    Memory.read (writeWords m (journalWords slot w0 w1 w2 w3 label)) a = Memory.read m a :=
  read_writeWords_other (fun p hp => by have := journalWords_address hp; omega) m

theorem read_runJournalAppend_other {a : Nat} (h1 : a ≠ 1) (h90 : a ≠ 90) (h92 : a ≠ 92)
    (hentry : a < 872 + 4 * (slot - 1) ∨ 872 + 4 * (slot - 1) + 4 ≤ a) :
    Memory.read (runJournalAppend m slot [w0, w1, w2, w3] label).mem a = Memory.read m a := by
  rw [runJournalAppend_eq, Work.read_flagged_other _ h92, Work.read_change_other _ h90]
  exact read_journalWords_other h1 hentry

/-- A label count that can be read rises by one, and no flag is set (R143, R145). -/
theorem read_runJournalAppend_counted (hj : (Memory.read m 90).judge ≠ .uncorrectable) :
    Memory.read (runJournalAppend m slot [w0, w1, w2, w3] label).mem 90
        = { address := 90, judge := .sound, data := satAdd (Memory.read m 90).data 1 }
      ∧ Memory.read (runJournalAppend m slot [w0, w1, w2, w3] label).mem 92 = Memory.read m 92 := by
  have h90 : Memory.read (Work.begin (writeWords m (journalWords slot w0 w1 w2 w3 label))).mem 90 = Memory.read m 90 :=
    read_journalWords_other (by decide) (by omega)
  rw [← h90] at hj
  refine ⟨?_, ?_⟩
  · rw [runJournalAppend_eq, Work.read_flagged_other _ (by decide), ← h90]
    exact Work.read_change_same (by decide) hj (satAdd_lt _ _)
  · have hbad := Work.change_bad (Work.begin (writeWords m (journalWords slot w0 w1 w2 w3 label))) 90 fun d => satAdd d 1
    rw [decide_eq_false hj] at hbad
    rw [runJournalAppend_eq, Work.flagged_sound hbad, Work.read_change_other _ (by decide)]
    exact read_journalWords_other (by decide) (by omega)

/-- A label count that cannot be read stays (R145). -/
theorem read_runJournalAppend_uncounted (hj : (Memory.read m 90).judge = .uncorrectable) :
    Memory.read (runJournalAppend m slot [w0, w1, w2, w3] label).mem 90 = Memory.read m 90 := by
  have h90 : Memory.read (Work.begin (writeWords m (journalWords slot w0 w1 w2 w3 label))).mem 90 = Memory.read m 90 :=
    read_journalWords_other (by decide) (by omega)
  rw [runJournalAppend_eq, Work.read_flagged_other _ (by decide), Work.change_left (by rwa [h90]), h90]

end

/-! ### A taken-flag update -/

section
variable {m : Memory} {slot serial day : Nat}

/-- The taken flag of the entry that is named (R137). -/
theorem runTakenFlag_sets (h0 : (Memory.read m (addrJournal slot 0)).judge ≠ .uncorrectable)
    (h1 : (Memory.read m (addrJournal slot 1)).judge ≠ .uncorrectable)
    (hserial : (Memory.read m (addrJournal slot 0)).data % 1048576 = serial)
    (hday : (Memory.read m (addrJournal slot 1)).data % 65536 = day) :
    (runTakenFlag m slot serial day).mem
      = Memory.write m (addrJournal slot 0) (setFlag (Memory.read m (addrJournal slot 0)).data flagTaken) := by
  simp [runTakenFlag, entrySerial, entryDay, h0, h1, hserial, hday]

/-- Another entry, and one of which a word cannot be read, stays (R137). -/
theorem runTakenFlag_leaves (h : (Memory.read m (addrJournal slot 0)).judge = .uncorrectable
      ∨ (Memory.read m (addrJournal slot 1)).judge = .uncorrectable
      ∨ (Memory.read m (addrJournal slot 0)).data % 1048576 ≠ serial
      ∨ (Memory.read m (addrJournal slot 1)).data % 65536 ≠ day) : (runTakenFlag m slot serial day).mem = m := by
  unfold runTakenFlag
  extract_lets a0 a1 j0 j1 sound isEntry w
  have hnot : ¬(sound && isEntry) = true := by
    have hand : (sound && isEntry) = true ↔ (j0.judge ≠ .uncorrectable ∧ j1.judge ≠ .uncorrectable)
        ∧ entrySerial j0.data = serial ∧ entryDay j1.data = day := by
      simp [sound, isEntry]
    rw [hand]
    rintro ⟨⟨h0, h1⟩, hserial, hday⟩
    rcases h with h | h | h | h
    exacts [h0 h, h1 h, h hserial, h hday]
  rw [if_neg hnot]
  simp [w, Work.begin]

end

/-! ### A counter update -/

/-- The bit of a set of stations is read from its 16 bits. -/
theorem hasStation_mod (set : Nat) {k : Nat} (hk : k < 16) : hasStation (set % 65536) k = hasStation set k := by
  have hsplit : (65536 : Nat) = 2 ^ k * 2 ^ (16 - k) := by
    rw [← Nat.pow_add, Nat.add_sub_cancel' hk.le]
  have htwo : 2 ∣ 2 ^ (16 - k) := dvd_pow_self 2 (by omega)
  unfold hasStation
  rw [hsplit, Nat.mod_mul_right_div_self, Nat.mod_mod_of_dvd _ htwo]

theorem stationsWithin_iff (snapshot contributors : Nat) : stationsWithin (snapshot % 65536) contributors = true
    ↔ ∀ k < 16, snapshot / 2 ^ k % 2 = 1 → contributors / 2 ^ k % 2 = 1 := by
  simp only [stationsWithin, List.all_eq_true, List.mem_range]
  refine forall₂_congr fun k hk => ?_
  rw [hasStation_mod _ hk]
  simp only [hasStation, Bool.or_eq_true, Bool.not_eq_true', decide_eq_false_iff_not, decide_eq_true_eq]
  tauto

section
variable {m : Memory} {slot station : Nat} {figures : DayFigures}

/-- A counter section with an uncorrectable word is left, and not completed (R173). -/
theorem runCounterUpdate_left {o : Nat} (ho : 87 ≤ o ∧ o ≤ 92)
    (hj : (Memory.read m (addrRecord slot o)).judge = .uncorrectable) :
    (runCounterUpdate m slot station figures).2 = false
      ∧ ∀ a, a ≠ addrRecord slot 84 →
        Memory.read (runCounterUpdate m slot station figures).1.mem a = Memory.read m a := by
  unfold runCounterUpdate
  extract_lets reads datum bad contributors adds w
  have hmem : w.mem = m := Work.foldl_mem _ (fun _ _ => Work.note_mem ..) _ _
  have hoffset : o ∈ counterOffsets := by
    change o ∈ [87, 88, 89, 90, 91, 92]
    simp only [List.mem_cons, List.not_mem_nil, or_false]
    omega
  have hbad : bad = true :=
    List.any_eq_true.mpr ⟨_, List.mem_map_of_mem hoffset, by simpa using hj⟩
  rw [if_pos hbad]
  exact ⟨rfl, fun a ha => (w.read_flagged_other ha).trans (by rw [hmem])⟩

/-- The five words that a counter update writes when it adds a station's figures (R173). -/
def counterWords (m : Memory) (slot station : Nat) (figures : DayFigures) (flagged : Bool) : List (Nat × Word) :=
  let r (o : Nat) : Nat := (Memory.read m (addrRecord slot o)).data
  [(addrRecord slot 88, BitVec.ofNat 32 (r 88 % 65536 + 2 ^ station + flagIf flagged flagCompletion)),
   (addrRecord slot 89, BitVec.ofNat 32 (satAdd (r 89) figures.itemAmount)),
   (addrRecord slot 90, BitVec.ofNat 32 (satAdd (r 90) figures.itemCount)),
   (addrRecord slot 91, BitVec.ofNat 32 (satAdd (r 91) figures.customers)),
   (addrRecord slot 92, BitVec.ofNat 32 (satAdd (r 92) figures.voidAmount))]

/-- Whether a counter update that adds a station's figures completes the section (R173). -/
def completesSection (m : Memory) (slot station : Nat) : Bool :=
  stationsWithin ((Memory.read m (addrRecord slot 87)).data % 65536)
      ((Memory.read m (addrRecord slot 88)).data % 65536 + 2 ^ station)
    && !hasFlag (Memory.read m (addrRecord slot 88)).data flagCompletion

/-- A counter section that can be read takes the figures of a station that has not contributed, once (R173). -/
theorem runCounterUpdate_readable
    (hall : ∀ o, 87 ≤ o → o ≤ 92 → (Memory.read m (addrRecord slot o)).judge ≠ .uncorrectable) :
    let contributed := hasStation ((Memory.read m (addrRecord slot 88)).data % 65536) station
    let flagged := hasFlag (Memory.read m (addrRecord slot 88)).data flagCompletion || completesSection m slot station
    (runCounterUpdate m slot station figures).1.mem
        = (if contributed then m else writeWords m (counterWords m slot station figures flagged))
      ∧ (runCounterUpdate m slot station figures).2 = (!contributed && completesSection m slot station) := by
  intro contributed flagged
  unfold runCounterUpdate
  extract_lets reads datum bad contributors adds w
  have hmem : w.mem = m := Work.foldl_mem _ (fun _ _ => Work.note_mem ..) _ _
  have hbad : ¬bad = true := by
    simp only [bad, reads, List.any_map, List.any_eq_true, Function.comp_apply, decide_eq_true_eq, not_exists, not_and]
    intro o ho
    have hrange : 87 ≤ o ∧ o ≤ 92 := by
      change o ∈ [87, 88, 89, 90, 91, 92] at ho
      simp only [List.mem_cons, List.not_mem_nil, or_false] at ho
      omega
    exact hall o hrange.1 hrange.2
  rw [if_neg hbad]
  by_cases hc : contributed = true
  · rw [if_pos (show hasStation contributors station = true from hc), if_pos hc, hc]
    exact ⟨hmem, rfl⟩
  · rw [if_neg (show ¬hasStation contributors station = true from hc), if_neg hc]
    rw [Bool.not_eq_true] at hc
    rw [hc]
    exact ⟨rfl, rfl⟩

end

end Sys2Proof.Machine
end

section
/-! SUPPORT about the performing of an operation: what it leaves, what its finds report, and what its end does. -/

namespace Sys2Proof.Machine

/-! ### The command of an operation -/

/-- The command of an operation's kind is the store's turn for that kind and no other (Table 8-4). -/
theorem exec_command (op : Op) (s : State) :
    ∃ isKind : Op → Bool, exec op.command s = performHead isKind s
      ∧ ∀ other, isKind other = true ↔ other.command = op.command := by
  cases op <;> exact ⟨_, rfl, fun other => by cases other <;> simp [Op.command]⟩

section
variable {s : State} {op : Op} {rest : List Op}

/-- The head of the list is performed by the command of its kind once preparation has ended (R144). -/
theorem exec_command_performs (hp : s.power = .on) (hrun : s.hpt.runState ≠ .storePrep)
    (hops : s.tst.ops = op :: rest) : exec op.command s = .next (performOp op rest s) := by
  obtain ⟨isKind, hexec, hkind⟩ := exec_command op s
  have hserves : s.storeServes = true := by simp [State.storeServes, State.working, hp, hrun]
  rw [hexec, performHead_cons hops, hserves, (hkind op).mpr rfl]
  rfl

/-- The command of another kind does nothing (assumption 9). -/
theorem exec_command_waits {other : Op} (hops : s.tst.ops = op :: rest) (h : other.command ≠ op.command) :
    exec other.command s = .next s := by
  obtain ⟨isKind, hexec, hkind⟩ := exec_command other s
  have hnot : isKind op = false := Bool.eq_false_iff.mpr fun hop => h ((hkind op).mp hop).symm
  rw [hexec, performHead_cons hops, hnot, Bool.and_false]
  rfl

end

/-! ### What the store's work leaves -/

/-- Weighing, capture, tickets and the supply are the same, and what was handed to the store stays in front. -/
@[simp] abbrev State.KeepsUnits (t s : State) : Prop :=
  t.wch = s.wch ∧ t.cap = s.cap ∧ t.tkt = s.tkt ∧ t.power = s.power ∧ s.tst.ops <+: t.tst.ops

theorem State.KeepsUnits.trans {s t u : State} (h : t.KeepsUnits s) (g : u.KeepsUnits t) : u.KeepsUnits s := by
  obtain ⟨hwch, hcap, htkt, hpower, hops⟩ := h
  obtain ⟨hwch', hcap', htkt', hpower', hops'⟩ := g
  exact ⟨hwch'.trans hwch, hcap'.trans hcap, htkt'.trans htkt, hpower'.trans hpower, hops.trans hops'⟩

theorem foldl_keepsUnits {α : Type} (f : State → α → State) (hf : ∀ s a, (f s a).KeepsUnits s) (l : List α)
    (s : State) : (l.foldl f s).KeepsUnits s := by
  induction l generalizing s with
  | nil => simp
  | cons a l ih => exact (hf s a).trans (ih (f s a))

theorem handleFind_keepsUnits (f : Find) (s : State) : (handleFind f s).KeepsUnits s := by
  have hops : s.tst.ops <+: (handleFind f s).tst.ops := by
    unfold handleFind
    split
    · simp
    · dsimp only
      split <;> simp [raiseAttribute]
    · split
      · simp
      · have hqueued := isPrefix_queueEvent (List.prefix_refl s.tst.ops) (.storeError f.address f.kind)
        dsimp only [raiseAttribute]
        exact isPrefix_recordFault (isPrefix_moveAttribute hqueued _ _) _
  simp [hops]

theorem handleFinds_keepsUnits (finds : List Find) (s : State) : (handleFinds finds s).KeepsUnits s :=
  foldl_keepsUnits (fun acc f => handleFind f acc) (fun s f => handleFind_keepsUnits f s) finds s

theorem endFrame_keepsUnits (f : TxFrame) (e : FrameEnd) (s : State) : (endFrame f e s).KeepsUnits s := by
  obtain ⟨-, -, -, -, -, hops⟩ := endFrame_addsTo f e s
  simp [hops]

theorem State.MovesUp.keepsUnits {s t : State} (h : s.MovesUp t) : t.KeepsUnits s := by
  obtain ⟨moved, reads, backlog, rfl, -⟩ := h
  simp

theorem formHeads_keepsUnits (n : Nat) (s : State) : (formHeads n s).KeepsUnits s := by
  induction n generalizing s with
  | zero => simp [formHeads]
  | succ n ih =>
    unfold formHeads
    split
    · simp
    · next f _ _ =>
      split
      · simp
      · next e _ =>
        have hend := endFrame_keepsUnits f e (dropHead s)
        exact (hend.trans (moveBacklog_movesUp _).keepsUnits).trans (ih _)
      · exact (moveBacklog_movesUp (dropHead s)).keepsUnits.trans (ih _)
      · simp

theorem makeDaysumDue_keepsUnits (day : Nat) (s : State) : (makeDaysumDue day s).KeepsUnits s := by
  rw [makeDaysumDue_eq]
  split
  · simp
  · split
    · simp
    · exact (moveBacklog_movesUp _).keepsUnits

/-- The read of a request changes the answer alone. -/
theorem finishRead_answers {purpose : ReadPurpose} (h : ∀ n, purpose ≠ .daysum n) (words : List JudgedWord) (s : State) :
    ∃ slot, finishRead purpose words s = { s with hpt.slot := slot } := by
  have hawaited {answered : State → State} (h : ∃ slot, answered s = { s with hpt.slot := slot }) :
      ∃ slot, answerAwaited answered s = { s with hpt.slot := slot } := by
    unfold answerAwaited
    split
    · exact h
    · exact ⟨s.hpt.slot, rfl⟩
  cases purpose with
  | journal newest slot =>
    refine hawaited ?_
    unfold journalAnswer
    dsimp only
    split <;> exact ⟨_, rfl⟩
  | totals g => exact hawaited (by cases g <;> exact ⟨_, rfl⟩)
  | dayRecord slot =>
    refine hawaited ?_
    unfold dayRecordAnswer
    dsimp only
    split <;> exact ⟨_, rfl⟩
  | fault count newest slot =>
    refine hawaited ?_
    unfold faultAnswer
    dsimp only
    split <;> exact ⟨_, rfl⟩
  | daysum n => exact absurd rfl (h n)

/-- The end of a DAYSUM's read fills its frame, and forms heads when one waited for it. -/
theorem finishRead_daysum (n : Nat) (words : List JudgedWord) (s : State) :
    finishRead (.daysum n) words s = if s.lnk.formWaiting && s.lnk.attempt.isNone && s.maySend then
        beginAttempt { fillDaysum n (daysumFigures words) s with lnk.formWaiting := false }
      else fillDaysum n (daysumFigures words) s := rfl

theorem finishOp_keepsUnits (op : Op) (e : OpEffect) (s : State) : (finishOp op e s).KeepsUnits s := by
  cases op with
  | read addresses purpose =>
    change (finishRead purpose e.words s).KeepsUnits s
    by_cases h : ∃ n, purpose = .daysum n
    · obtain ⟨n, rfl⟩ := h
      rw [finishRead_daysum]
      split
      · exact .trans (by simp [fillDaysum]) (formHeads_keepsUnits _ _)
      · simp [fillDaysum]
    · obtain ⟨slot, hslot⟩ := finishRead_answers (fun n hn => h ⟨n, hn⟩) e.words s
      simp [hslot]
  | counterUpdate slot day station figures =>
    unfold finishOp
    dsimp only
    split <;> simp
  | closeCopy c => exact .trans (by simp) (makeDaysumDue_keepsUnits _ _)
  | _ => simp [finishOp]

theorem scrubStep_keepsUnits (s : State) : (scrubStep s).KeepsUnits s := by
  unfold scrubStep
  dsimp only
  split
  · simp
  · exact .trans (by simp) (handleFind_keepsUnits _ _)
  · exact .trans (by simp) (handleFind_keepsUnits _ _)

theorem scrubSteps_keepsUnits (n : Nat) (s : State) : (scrubSteps n s).KeepsUnits s := by
  induction n generalizing s with
  | zero => simp [scrubSteps]
  | succ n ih => exact (scrubStep_keepsUnits s).trans (ih _)

theorem scrubAfterOp_keepsUnits (s : State) : (scrubAfterOp s).KeepsUnits s := by
  unfold scrubAfterOp runPending
  dsimp only
  split
  · split
    · simp
    · exact .trans (by simp) (scrubSteps_keepsUnits _ _)
  · simp

/-! ### One operation -/

/-- The state in which an operation ends: its words are written, it is off the list and its finds are handled. -/
def State.opEnded (s : State) (op : Op) (rest : List Op) : State :=
  handleFinds (runOp s.tst.mem op).finds { s with tst.mem := (runOp s.tst.mem op).mem, tst.ops := rest }

section
variable {s : State} {op : Op} {rest : List Op}

theorem performOp_eq : performOp op rest s
    = scrubAfterOp (finishOp op (runOp s.tst.mem op) (s.opEnded op rest)) := rfl

/-- An operation takes itself off the list and hands at the end alone; four units and the supply are left (R144). -/
theorem performOp_keepsUnits : (performOp op rest s).KeepsUnits { s with tst.ops := rest } := by
  have hbegun : ({ s with tst.mem := (runOp s.tst.mem op).mem, tst.ops := rest } : State).KeepsUnits
    { s with tst.ops := rest } := by simp
  have hended := hbegun.trans (handleFinds_keepsUnits (runOp s.tst.mem op).finds _)
  exact (hended.trans (finishOp_keepsUnits op _ _)).trans (scrubAfterOp_keepsUnits _)

/-! ### What the end of an operation leaves of the store -/

@[simp] theorem moveBacklog_withoutOps (s : State) : (moveBacklog s).tst.withoutOps = s.tst.withoutOps := by
  simp [Store.withoutOps]

theorem formHeads_withoutOps (n : Nat) (s : State) : (formHeads n s).tst.withoutOps = s.tst.withoutOps := by
  induction n generalizing s with
  | zero => rfl
  | succ n ih =>
    unfold formHeads
    split
    · rfl
    · split
      · rfl
      · exact (ih _).trans (by simp [dropHead])
      · exact (ih _).trans (by simp [dropHead])
      · rfl

theorem finishOp_withoutOps (op : Op) (e : OpEffect) (s : State) :
    (finishOp op e s).tst.withoutOps = s.tst.withoutOps := by
  cases op with
  | read addresses purpose =>
    change (finishRead purpose e.words s).tst.withoutOps = _
    by_cases h : ∃ n, purpose = .daysum n
    · obtain ⟨n, rfl⟩ := h
      rw [finishRead_daysum]
      split
      · exact formHeads_withoutOps _ _
      · rfl
    · obtain ⟨slot, hslot⟩ := finishRead_answers (fun n hn => h ⟨n, hn⟩) e.words s
      rw [hslot]
  | counterUpdate slot day station figures =>
    unfold finishOp
    dsimp only
    split <;> simp [Store.withoutOps]
  | closeCopy c => simp [finishOp, Store.withoutOps]
  | _ => rfl

/-- The end of an operation leaves the store but for its list. -/
theorem finishOp_store (op : Op) (e : OpEffect) (s : State) :
    (finishOp op e s).tst.mem = s.tst.mem ∧ (finishOp op e s).tst.latch = s.tst.latch
      ∧ (finishOp op e s).tst.scrubPending = s.tst.scrubPending := by
  have h := finishOp_withoutOps op e s
  have hmem := congrArg Store.mem h
  have hlatch := congrArg Store.latch h
  have hpending := congrArg Store.scrubPending h
  exact ⟨hmem, hlatch, hpending⟩

/-- Without a pending scrub step the work ends with the operation (R151). -/
theorem performOp_idle (h : s.tst.scrubPending = 0) : performOp op rest s
    = { finishOp op (runOp s.tst.mem op) (s.opEnded op rest) with tst.activity := true } := by
  obtain ⟨-, -, hpending⟩ := finishOp_store op (runOp s.tst.mem op) (s.opEnded op rest)
  rw [performOp_eq, scrubAfterOp_idle (by rw [hpending]; simp [State.opEnded, h])]

/-- Without a find the operation ends in the state with its words written. -/
theorem opEnded_quiet (h : (runOp s.tst.mem op).finds = []) :
    s.opEnded op rest = { s with tst.mem := (runOp s.tst.mem op).mem, tst.ops := rest } := by
  rw [State.opEnded, h]
  rfl

theorem performOp_mem (h : s.tst.scrubPending = 0) : (performOp op rest s).tst.mem = (runOp s.tst.mem op).mem := by
  obtain ⟨hmem, -, -⟩ := finishOp_store op (runOp s.tst.mem op) (s.opEnded op rest)
  rw [performOp_idle h]
  exact hmem.trans (by simp [State.opEnded])

/-! ### What finds report -/

/-- A find goes to the error latch (R148). -/
theorem handleFind_latch (f : Find) (s : State) : (handleFind f s).tst.latch = s.tst.latch.take f.address f.judge := by
  unfold handleFind
  cases hj : f.judge with
  | sound => cases s.tst.latch <;> rfl
  | corrected =>
    dsimp only
    split <;> simp
  | uncorrectable =>
    dsimp only
    split
    · next h => rw [h]; rfl
    · simp

theorem handleFinds_latch (finds : List Find) (s : State) :
    (handleFinds finds s).tst.latch = finds.foldl (fun l f => l.take f.address f.judge) s.tst.latch := by
  induction finds generalizing s with
  | nil => rfl
  | cons f rest ih => exact (ih _).trans (by rw [handleFind_latch]; rfl)

theorem performOp_latch (h : s.tst.scrubPending = 0) : (performOp op rest s).tst.latch
    = (runOp s.tst.mem op).finds.foldl (fun l f => l.take f.address f.judge) s.tst.latch := by
  obtain ⟨-, hlatch, -⟩ := finishOp_store op (runOp s.tst.mem op) (s.opEnded op rest)
  rw [performOp_idle h]
  exact hlatch.trans (handleFinds_latch _ _)

/-- A find takes at most two places for events. -/
theorem handleFind_length (f : Find) (s : State) :
    (handleFind f s).hpt.events.length ≤ s.hpt.events.length + 2 := by
  unfold handleFind raiseAttribute
  split
  · omega
  · dsimp only
    split
    · refine (moveAttribute_length _ _ _).trans ?_
      simp
    · simp
  · split
    · omega
    · have hqueued := queueEvent_length (.storeError f.address f.kind) s
      simp only [recordFault_keeps]
      exact (moveAttribute_length _ _ _).trans (Nat.succ_le_succ hqueued)

/-- With room the end of an operation reports nothing to the health monitor, unless a head that waited is formed. -/
theorem finishOp_hlm (hquiet : (∀ addresses d, op ≠ .read addresses (.daysum d)) ∨ s.lnk.formWaiting = false)
    (hroom : s.hpt.events.length < 32) (e : OpEffect) : (finishOp op e s).hlm = s.hlm := by
  cases op with
  | read addresses purpose =>
    change (finishRead purpose e.words s).hlm = _
    by_cases h : ∃ n, purpose = .daysum n
    · obtain ⟨n, rfl⟩ := h
      have hwaiting : s.lnk.formWaiting = false := hquiet.resolve_left fun hne => hne _ _ rfl
      rw [finishRead_daysum, hwaiting]
      rfl
    · obtain ⟨slot, hslot⟩ := finishRead_answers (fun n hn => h ⟨n, hn⟩) e.words s
      rw [hslot]
  | counterUpdate slot day station figures =>
    unfold finishOp
    dsimp only
    split
    · rw [queueEvent_room hroom]
    · rfl
  | closeCopy c =>
    simp only [finishOp, makeDaysumDue_keeps]
    rw [queueEvent_room (by exact hroom)]
  | _ => rfl

section
variable {f : Find}

/-- A CORRECTED find reports one corrected error when its word was rewritten, and no fault (R149). -/
theorem handleFind_corrected (hroom : s.hpt.events.length < 32) (hj : f.judge = .corrected) :
    (handleFind f s).hlm.attributes.storeErrors.raw
        = (if f.repaired = true then min (s.hlm.attributes.storeErrors.raw + 1) 65535
           else s.hlm.attributes.storeErrors.raw)
      ∧ (handleFind f s).hlm.faultCount = s.hlm.faultCount := by
  simp only [handleFind, hj]
  split
  · refine ⟨moveAttribute_raw .storeErrors _ _, ?_⟩
    obtain ⟨-, -, -, -, -, hfaults⟩ := moveAttribute_reportsOnly
      (s := { s with tst.latch := s.tst.latch.take f.address .corrected }) hroom .storeErrors
      (s.hlm.attributes.storeErrors.raw + 1)
    exact hfaults
  · exact ⟨rfl, rfl⟩

/-- An UNCORRECTABLE find that the latch holds already reports nothing (R149). -/
theorem handleFind_known (hj : f.judge = .uncorrectable) (hlatch : s.tst.latch = .uncorrectable f.address) :
    handleFind f s = s := by
  simp [handleFind, hj, hlatch]

/-- A new UNCORRECTABLE find queues STORE_ERROR, counts 25 and records one STORE fault (R149). -/
theorem handleFind_new (hroom : s.hpt.events.length < 31) (hj : f.judge = .uncorrectable)
    (hlatch : s.tst.latch ≠ .uncorrectable f.address) :
    s.record (.storeError f.address f.kind) ∈ (handleFind f s).hpt.events
      ∧ (handleFind f s).hlm.attributes.storeErrors.raw = min (s.hlm.attributes.storeErrors.raw + 25) 65535
      ∧ (handleFind f s).hlm.faultCount = min (s.hlm.faultCount + 1) 65535 := by
  have hqueued := queueEvent_room (s := s) (by omega) (.storeError f.address f.kind)
  have hlt : (queueEvent (.storeError f.address f.kind) s).hpt.events.length < 32 := by
    simp only [hqueued, List.length_append, List.length_singleton]
    omega
  have hraw := moveAttribute_raw .storeErrors (s.hlm.attributes.storeErrors.raw + 25)
    (queueEvent (.storeError f.address f.kind) s)
  obtain ⟨-, -, -, -, -, hfaults⟩ := moveAttribute_reportsOnly hlt .storeErrors
    (s.hlm.attributes.storeErrors.raw + 25)
  have hraised : raiseAttribute .storeErrors 25 (queueEvent (.storeError f.address f.kind) s)
      = moveAttribute .storeErrors (s.hlm.attributes.storeErrors.raw + 25)
        (queueEvent (.storeError f.address f.kind) s) := by
    simp [raiseAttribute, Attributes.get]
  simp only [handleFind, hj, if_neg hlatch, hraised]
  refine ⟨mem_moveAttribute (by simp [hqueued, State.record]) _ _, hraw, ?_⟩
  rw [recordFault_hlm]
  simp only [hfaults]
  rw [hqueued]

end

end

end Sys2Proof.Machine
end

section
/-! SUPPORT and the proof about the head of the operation list: the ends of a close copy, of a DAYSUM's read and of a counter
update, and the words of each operation (R135, R137, R143 to R145, R148, R149, R168, R172, R173). -/

namespace Sys2Proof.Machine

/-! ### The finds of the head -/

section
variable {s : State} {op : Op} {rest : List Op}

/-- The health monitor after an operation is that after its finds, while the end of the operation finds room. -/
theorem performOp_hlm (hpending : s.tst.scrubPending = 0)
    (hquiet : (∀ addresses d, op ≠ .read addresses (.daysum d)) ∨ s.lnk.formWaiting = false)
    (hroom : (s.opEnded op rest).hpt.events.length < 32) :
    (performOp op rest s).hlm = (s.opEnded op rest).hlm := by
  have hquiet' : (∀ addresses d, op ≠ .read addresses (.daysum d)) ∨ (s.opEnded op rest).lnk.formWaiting = false :=
    hquiet.imp_right fun h => by rw [State.opEnded, handleFinds_lnk]; exact h
  rw [performOp_idle hpending]
  exact finishOp_hlm hquiet' hroom _

theorem performOp_events {r : EventRecord} (hpending : s.tst.scrubPending = 0)
    (h : r ∈ (s.opEnded op rest).hpt.events) : r ∈ (performOp op rest s).hpt.events := by
  obtain ⟨-, -, hkept⟩ := finishOp_keepsRecords op (runOp s.tst.mem op) (s.opEnded op rest)
  rw [performOp_idle hpending]
  exact hkept r h

/-- An operation without a find reports nothing to the health monitor (R149). -/
theorem performOp_quiet (hpending : s.tst.scrubPending = 0)
    (hquiet : (∀ addresses d, op ≠ .read addresses (.daysum d)) ∨ s.lnk.formWaiting = false)
    (hfinds : (runOp s.tst.mem op).finds = []) (hroom : s.hpt.events.length < 32) :
    (performOp op rest s).hlm = s.hlm := by
  have hended := opEnded_quiet (rest := rest) hfinds
  rw [performOp_hlm hpending hquiet (by rw [hended]; exact hroom), hended]

/-- What an operation that makes one find reports (R149). -/
theorem performOp_oneFind {f : Find} (hpending : s.tst.scrubPending = 0)
    (hquiet : (∀ addresses d, op ≠ .read addresses (.daysum d)) ∨ s.lnk.formWaiting = false)
    (hfinds : (runOp s.tst.mem op).finds = [f]) (hroom : s.hpt.events.length < 29) :
    (f.judge = .corrected →
        (performOp op rest s).hlm.attributes.storeErrors.raw
            = (if f.repaired = true then min (s.hlm.attributes.storeErrors.raw + 1) 65535
               else s.hlm.attributes.storeErrors.raw)
          ∧ (performOp op rest s).hlm.faultCount = s.hlm.faultCount)
      ∧ (f.judge = .uncorrectable → s.tst.latch = .uncorrectable f.address → (performOp op rest s).hlm = s.hlm)
      ∧ (f.judge = .uncorrectable → s.tst.latch ≠ .uncorrectable f.address →
        s.record (.storeError f.address f.kind) ∈ (performOp op rest s).hpt.events
          ∧ (performOp op rest s).hlm.attributes.storeErrors.raw = min (s.hlm.attributes.storeErrors.raw + 25) 65535
          ∧ (performOp op rest s).hlm.faultCount = min (s.hlm.faultCount + 1) 65535) := by
  generalize hu : ({ s with tst.mem := (runOp s.tst.mem op).mem, tst.ops := rest } : State) = u
  have hended : s.opEnded op rest = handleFind f u := by
    rw [State.opEnded, hfinds, hu]
    rfl
  have hlength : u.hpt.events.length < 29 := by rw [← hu]; exact hroom
  have hlatch : u.tst.latch = s.tst.latch := by rw [← hu]
  have hhlm : u.hlm = s.hlm := by rw [← hu]
  have hrecord (e : Event) : u.record e = s.record e := by rw [← hu]; rfl
  have hfound := handleFind_length f u
  have hkept := performOp_hlm (rest := rest) hpending hquiet (by rw [hended]; omega)
  rw [hkept, hended]
  refine ⟨fun hj => ?_, fun hj hl => ?_, fun hj hl => ?_⟩
  · rw [← hhlm]
    exact handleFind_corrected (by omega) hj
  · rw [handleFind_known hj (hlatch.trans hl), hhlm]
  · obtain ⟨hevent, hraw, hcount⟩ := handleFind_new (s := u) (by omega) hj (by rwa [hlatch])
    rw [hhlm] at hraw hcount
    exact ⟨performOp_events hpending (by rw [hended, ← hrecord]; exact hevent), hraw, hcount⟩

end

/-! ### The end of a close copy (R168) -/

/-- With an empty backlog and a free place a DAYSUM made due is placed at once (R50, R172). -/
theorem makeDaysumDue_places {s : State} {day : Nat} (hlink : s.lnk.state = .live ∨ s.lnk.state = .joining)
    (hqueue : ∀ n figures, .daysum day n figures ∉ s.lnk.queue) (hb : s.lnk.backlog = Backlog.none)
    (hfree : s.lnk.stationFrames < 4) : makeDaysumDue day s = placeDaysum day s := by
  have hone : makeDaysumDue day s = fillStationPlaces (0 + 1)
      { s with lnk.backlog := { replyDue := false, clerks := [], days := [day] } } := by
    rw [makeDaysumDue_due hlink hqueue (by simp [hb, Backlog.none])]
    simp [hb, Backlog.none, moveBacklog, Backlog.size]
  rw [hone, fillStationPlaces_succ (by exact hfree) (by simp [Backlog.size]), fillStationPlaces]
  rw [Backlog.none] at hb
  simp [moveBacklogItem, ← hb]

/-- A DAYSUM joins the queue, with the read of its figures when its day is held (R172). -/
theorem placeDaysum_places (day : Nat) (s : State) :
    ∃ n, (placeDaysum day s).lnk = { s.lnk with queue := s.lnk.queue ++ [.daysum day n none] }
      ∧ ∀ slot, s.recordSlot day = some slot → FreshRead n s.tst.ops
        ∧ (placeDaysum day s).tst.ops = s.tst.ops ++ [.read (figureAddresses slot) (.daysum n)] := by
  cases hslot : s.recordSlot day with
  | none =>
    refine ⟨0, ?_, fun slot h => nomatch h⟩
    simp [placeDaysum, hslot, enqueue]
  | some slot =>
    rw [placeDaysum_held hslot]
    refine ⟨s.nextDaysumRead, rfl, fun slot' h => ?_⟩
    obtain rfl := Option.some.inj h
    exact ⟨nextDaysumRead_fresh s, rfl⟩

section
variable {s : State} {c : CopyOrder} {rest : List Op}

/-- A close copy lowers the copies pending (R168). -/
theorem performOp_closeCopy_day : (performOp (.closeCopy c) rest s).day
    = { s.day with copiesPending := s.day.copiesPending - 1 } := by
  rw [performOp_eq]
  simp [finishOp, State.opEnded]

/-- The state in which a close copy is reported: its words are written and it is off the list, the copies pending are
lowered and DAY_CLOSED is queued. -/
def State.copyReported (s : State) (c : CopyOrder) (rest : List Op) : State :=
  { s with
    tst.mem := (runOp s.tst.mem (.closeCopy c)).mem
    tst.ops := rest
    day.copiesPending := s.day.copiesPending - 1
    hpt.events := s.hpt.events ++ [s.record (.dayClosed c.day c.late)] }

theorem performOp_closeCopy (hpending : s.tst.scrubPending = 0) (hfinds : (runOp s.tst.mem (.closeCopy c)).finds = [])
    (hroom : s.hpt.events.length < 32) : performOp (.closeCopy c) rest s
      = { makeDaysumDue c.day (s.copyReported c rest) with tst.activity := true } := by
  rw [performOp_idle hpending, opEnded_quiet hfinds]
  simp only [finishOp]
  rw [queueEvent_room (by exact hroom)]
  rfl

end

/-! ### The end of a DAYSUM's read (R172) -/

/-- A DAYSUM of a held day is formed with its figures (R172). -/
theorem formDaysum_formed {s : State} {day slot : Nat} (hslot : s.recordSlot day = some slot) (f : DayFigures) :
    formDaysum day (some f) s = .formed (.daysum ⟨saturated 16 day, saturated 32 f.itemAmount,
      saturated 24 f.itemCount, saturated 16 f.customers, saturated 32 f.voidAmount⟩) := by
  simp [formDaysum, hslot]

/-- Without its figures it waits (R172). -/
theorem formDaysum_waiting {s : State} {day slot : Nat} (hslot : s.recordSlot day = some slot) :
    formDaysum day none s = .waiting := by
  simp [formDaysum, hslot]

section
variable {s : State} {number : Nat} {words : List JudgedWord}

theorem finishRead_daysum_notWaiting (hwaiting : s.lnk.formWaiting = false) :
    finishRead (.daysum number) words s = fillDaysum number (daysumFigures words) s := by
  rw [finishRead_daysum, hwaiting]
  rfl

/-- A head that waited is tried again at the end of a DAYSUM's read (R172, assumption 53). -/
theorem finishRead_daysum_waiting (hp : s.power = .on) (hwaiting : s.lnk.formWaiting = true)
    (hattempt : s.lnk.attempt = none) (hlink : s.lnk.state = .live ∨ s.lnk.state = .joining) :
    finishRead (.daysum number) words s
      = beginAttempt { fillDaysum number (daysumFigures words) s with lnk.formWaiting := false } := by
  have hsend : s.maySend = true := by simp [State.maySend, State.working, hp, hlink.symm]
  rw [finishRead_daysum, hwaiting, hattempt, hsend]
  rfl

variable {day slot : Nat} {tail : List TxFrame}

/-- The head that waited for this read is sent (R51, R172). -/
theorem finishRead_daysum_sends (hp : s.power = .on) (hwaiting : s.lnk.formWaiting = true)
    (hattempt : s.lnk.attempt = none) (hlink : s.lnk.state = .live ∨ s.lnk.state = .joining)
    (hqueue : s.lnk.queue = .daysum day number none :: tail) (hslot : s.recordSlot day = some slot) :
    (finishRead (.daysum number) words s).lnk = { s.lnk with
      queue := s.lnk.queue.map (TxFrame.filled number (daysumFigures words))
      formWaiting := false
      drive := .sending
      attempt := some ⟨s.hpt.straps.station, .daysum ⟨saturated 16 day, saturated 32 (daysumFigures words).itemAmount,
        saturated 24 (daysumFigures words).itemCount, saturated 16 (daysumFigures words).customers,
        saturated 32 (daysumFigures words).voidAmount⟩⟩ } := by
  rw [finishRead_daysum_waiting hp hwaiting hattempt hlink,
    beginAttempt_formed (f := .daysum day number (some (daysumFigures words)))
      (rest := tail.map (TxFrame.filled number (daysumFigures words))) (by simp [fillDaysum, hqueue])
      (formDaysum_formed (by exact hslot) _)]
  rfl

/-- A head that waits for another read waits on (R172). -/
theorem finishRead_daysum_waits {n : Nat} (hp : s.power = .on) (hwaiting : s.lnk.formWaiting = true)
    (hattempt : s.lnk.attempt = none) (hlink : s.lnk.state = .live ∨ s.lnk.state = .joining)
    (hqueue : s.lnk.queue = .daysum day n none :: tail) (hslot : s.recordSlot day = some slot) (hn : n ≠ number) :
    (finishRead (.daysum number) words s).lnk
      = { s.lnk with queue := s.lnk.queue.map (TxFrame.filled number (daysumFigures words)) } := by
  rw [finishRead_daysum_waiting hp hwaiting hattempt hlink,
    beginAttempt_waiting (f := .daysum day n none)
      (rest := tail.map (TxFrame.filled number (daysumFigures words)))
      (by simp [fillDaysum, hqueue, TxFrame.filled_other hn]) (formDaysum_waiting (by exact hslot))]
  simp [fillDaysum, ← hwaiting]

end

/-- The link after a read is that at the end of the read, on the link as it was. -/
theorem performOp_read_lnk {s : State} (addresses : List Nat) (purpose : ReadPurpose) (rest : List Op) :
    ∃ u : State, (performOp (.read addresses purpose) rest s).lnk
        = (finishRead purpose (addresses.map (Memory.read s.tst.mem)) u).lnk
      ∧ u.lnk = s.lnk ∧ u.power = s.power ∧ u.hpt.straps = s.hpt.straps ∧ u.day = s.day := by
  obtain ⟨-, -, -, hpower, -⟩ := handleFinds_keepsUnits (runOp s.tst.mem (.read addresses purpose)).finds
    { s with tst.mem := (runOp s.tst.mem (.read addresses purpose)).mem, tst.ops := rest }
  refine ⟨s.opEnded (.read addresses purpose) rest, ?_, ?_, hpower, ?_, ?_⟩
  · rw [performOp_eq, scrubAfterOp_lnk]
    rfl
  · rw [State.opEnded, handleFinds_lnk]
  · exact foldl_keeps (·.hpt.straps) (fun acc f => handleFind f acc) (by simp) _ _
  · rw [State.opEnded, handleFinds_day]

end Sys2Proof.Machine
end

section
/-! The head of the operation list, performed whole by the command of its kind. -/

namespace Sys2Proof.Machine

/-! ### The clauses of the head -/

section
variable {s : State} {op : Op} {rest : List Op}

theorem performOp_closeCopy_reported {c : CopyOrder} (hpending : s.tst.scrubPending = 0)
    (hfinds : (runOp s.tst.mem (.closeCopy c)).finds = []) (hroom : s.hpt.events.length < 32) :
    (performOp (.closeCopy c) rest s).hpt.events = s.hpt.events ++ [s.record (.dayClosed c.day c.late)]
      ∧ (s.lnk.state = .silent ∨ s.lnk.state = .off → (performOp (.closeCopy c) rest s).lnk = s.lnk)
      ∧ (s.lnk.state = .live ∨ s.lnk.state = .joining → (∀ n figures, .daysum c.day n figures ∉ s.lnk.queue) →
          s.lnk.backlog = { replyDue := false, clerks := [], days := [] } → s.lnk.stationFrames < 4 →
        ∃ n, (performOp (.closeCopy c) rest s).lnk = { s.lnk with queue := s.lnk.queue ++ [.daysum c.day n none] }
          ∧ ∀ slot, s.recordSlot c.day = some slot → FreshRead n rest
            ∧ (performOp (.closeCopy c) rest s).tst.ops = rest ++ [.read (figureAddresses slot) (.daysum n)]) := by
  rw [performOp_closeCopy hpending hfinds hroom]
  refine ⟨by simp [State.copyReported], fun hlink => ?_, fun hlink hqueue hbacklog hfree => ?_⟩
  · rw [makeDaysumDue_eq, if_pos (by exact hlink)]
    rfl
  · rw [makeDaysumDue_places (by exact hlink) (by exact hqueue) (by exact hbacklog) (by exact hfree)]
    exact placeDaysum_places c.day (s.copyReported c rest)

theorem performOp_counterUpdate_events {slot day station : Nat} {figures : DayFigures}
    (hpending : s.tst.scrubPending = 0) (hfinds : (runOp s.tst.mem (.counterUpdate slot day station figures)).finds = [])
    (hroom : s.hpt.events.length < 32) :
    (performOp (.counterUpdate slot day station figures) rest s).hpt.events = s.hpt.events
      ++ (if (runOp s.tst.mem (.counterUpdate slot day station figures)).complete = true
          then [s.record (.counterComplete day)] else []) := by
  rw [performOp_idle hpending, opEnded_quiet hfinds]
  simp only [finishOp]
  split
  · rw [queueEvent_room (by exact hroom)]
    rfl
  · simp

/-- The read of a DAYSUM fills its frame, and sends the head that waited for it (R172). -/
theorem performOp_daysum_lnk (hp : s.power = .on) {a0 a1 a2 a3 number : Nat} {w : Nat → Nat} {figures : DayFigures}
    (hw : w = fun a => if (Memory.read s.tst.mem a).judge = .uncorrectable then 0 else (Memory.read s.tst.mem a).data)
    (hfigures : figures = { itemAmount := w a0, itemCount := w a1, customers := w a2, voidAmount := w a3 }) :
    (s.lnk.formWaiting = false → (performOp (.read [a0, a1, a2, a3] (.daysum number)) rest s).lnk
        = { s.lnk with queue := s.lnk.queue.map (TxFrame.filled number figures) })
      ∧ (∀ tail day slot n, s.lnk.formWaiting = true → s.lnk.attempt = none →
          s.lnk.state = .live ∨ s.lnk.state = .joining → s.lnk.queue = .daysum day n none :: tail →
          s.recordSlot day = some slot →
        (n = number → (performOp (.read [a0, a1, a2, a3] (.daysum number)) rest s).lnk = { s.lnk with
            queue := s.lnk.queue.map (TxFrame.filled number figures)
            formWaiting := false
            drive := .sending
            attempt := some ⟨s.hpt.straps.station, .daysum ⟨saturated 16 day, saturated 32 (w a0), saturated 24 (w a1),
              saturated 16 (w a2), saturated 32 (w a3)⟩⟩ })
          ∧ (n ≠ number → (performOp (.read [a0, a1, a2, a3] (.daysum number)) rest s).lnk
            = { s.lnk with queue := s.lnk.queue.map (TxFrame.filled number figures) })) := by
  have hread : daysumFigures ([a0, a1, a2, a3].map (Memory.read s.tst.mem)) = figures := by
    rw [hfigures, hw]
    rfl
  obtain ⟨u, hu, hlnk, hpower, hstraps, hday⟩ := performOp_read_lnk (s := s) [a0, a1, a2, a3] (.daysum number) rest
  rw [← hlnk, ← hstraps, hu]
  refine ⟨fun hwaiting => ?_, fun tail day slot n hwaiting hattempt hlink hqueue hslot => ?_⟩
  · rw [finishRead_daysum_notWaiting hwaiting, hread]
    rfl
  · have hp' : u.power = .on := hpower.trans hp
    have hslot' : u.recordSlot day = some slot := by
      rw [← hslot]
      simp only [State.recordSlot, State.slotsNewestFirst, hday]
    refine ⟨?_, fun hn => ?_⟩
    · rintro rfl
      rw [finishRead_daysum_sends hp' hwaiting hattempt hlink hqueue hslot', hread, hfigures]
    · rw [finishRead_daysum_waits hp' hwaiting hattempt hlink hqueue hslot' hn, hread]

end

/-! ### The words of a counter update -/

section
variable {m : Memory} {slot station : Nat} {figures : DayFigures}

/-- The words of the counter section are those of a record in the store. -/
theorem counterWords_nodup (flagged : Bool) : ((counterWords m slot station figures flagged).map Prod.fst).Nodup := by
  simp [counterWords, addrRecord]

/-- The five words after a counter update that adds a station's figures (R173). -/
theorem read_counterWords (hslot : slot ≤ 8) (hstation : station < 16) (flagged : Bool) :
    let e := writeWords m (counterWords m slot station figures flagged)
    let r (o : Nat) : Nat := (Memory.read m (addrRecord slot o)).data
    (Memory.read e (addrRecord slot 88)).data = r 88 % 65536 + 2 ^ station + flagIf flagged flagCompletion
      ∧ (Memory.read e (addrRecord slot 89)).data = satAdd (r 89) figures.itemAmount
      ∧ (Memory.read e (addrRecord slot 90)).data = satAdd (r 90) figures.itemCount
      ∧ (Memory.read e (addrRecord slot 91)).data = satAdd (r 91) figures.customers
      ∧ (Memory.read e (addrRecord slot 92)).data = satAdd (r 92) figures.voidAmount := by
  intro e r
  have hpow : 2 ^ station ≤ 2 ^ 15 := Nat.pow_le_pow_right (by decide) (by omega)
  have hcontributors : r 88 % 65536 + 2 ^ station + flagIf flagged flagCompletion < 2 ^ 32 := by
    unfold flagIf flagCompletion
    split <;> omega
  have hwritten {o data : Nat} (ho : o ≤ 92) (hdata : data < 2 ^ 32)
      (hmem : (addrRecord slot o, BitVec.ofNat 32 data) ∈ counterWords m slot station figures flagged) :
      (Memory.read e (addrRecord slot o)).data = data := by
    have haddress : addrRecord slot o < 2048 := by
      unfold addrRecord
      omega
    have hread := read_writeWords_mem (counterWords_nodup flagged) hmem haddress m
    rw [hread]
    exact Nat.mod_eq_of_lt hdata
  exact ⟨hwritten (by decide) hcontributors (by simp [counterWords, r]),
    hwritten (by decide) (satAdd_lt _ _) (by simp [counterWords, r]),
    hwritten (by decide) (satAdd_lt _ _) (by simp [counterWords, r]),
    hwritten (by decide) (satAdd_lt _ _) (by simp [counterWords, r]),
    hwritten (by decide) (satAdd_lt _ _) (by simp [counterWords, r])⟩

/-- A counter section that can be read: a station is added once, with its figures, and the completion is reported once
(R173). -/
theorem runOp_counterUpdate_readable {day : Nat} (hslot : slot ≤ 8) (hstation : station < 16)
    (hall : ∀ o, 87 ≤ o → o ≤ 92 → (Memory.read m (addrRecord slot o)).judge ≠ .uncorrectable) :
    let e := runOp m (.counterUpdate slot day station figures)
    let r (o : Nat) : JudgedWord := Memory.read m (addrRecord slot o)
    let set := (r 88).data % 65536
    (set / 2 ^ station % 2 = 1 → e.complete = false ∧ e.mem = m)
      ∧ (set / 2 ^ station % 2 = 0 →
        (e.complete = true ↔ (r 88).data / 65536 % 2 = 0
            ∧ ∀ k < 16, (r 87).data / 2 ^ k % 2 = 1 → (set + 2 ^ station) / 2 ^ k % 2 = 1)
        ∧ (Memory.read e.mem (addrRecord slot 88)).data
            = set + 2 ^ station + (if e.complete = true ∨ (r 88).data / 65536 % 2 = 1 then 65536 else 0)
        ∧ (Memory.read e.mem (addrRecord slot 89)).data = min ((r 89).data + figures.itemAmount) 4294967295
        ∧ (Memory.read e.mem (addrRecord slot 90)).data = min ((r 90).data + figures.itemCount) 4294967295
        ∧ (Memory.read e.mem (addrRecord slot 91)).data = min ((r 91).data + figures.customers) 4294967295
        ∧ (Memory.read e.mem (addrRecord slot 92)).data = min ((r 92).data + figures.voidAmount) 4294967295
        ∧ ∀ a, (∀ o, 88 ≤ o → o ≤ 92 → a ≠ addrRecord slot o) → Memory.read e.mem a = Memory.read m a) := by
  intro e r set
  obtain ⟨hmem, hcomplete⟩ := runCounterUpdate_readable (station := station) (figures := figures) hall
  have hemem : e.mem = (runCounterUpdate m slot station figures).1.mem := rfl
  have hecomplete : e.complete = (runCounterUpdate m slot station figures).2 := rfl
  refine ⟨fun hset => ?_, fun hset => ?_⟩
  · have hcontributed : hasStation set station = true := decide_eq_true hset
    rw [hemem, hecomplete, hmem, hcomplete, hcontributed]
    exact ⟨rfl, rfl⟩
  · have hnew : hasStation set station = false := decide_eq_false (by omega)
    rw [hnew] at hmem hcomplete
    have hcompletes : e.complete = completesSection m slot station := hecomplete.trans hcomplete
    have hwords : e.mem = writeWords m (counterWords m slot station figures
        (hasFlag (r 88).data flagCompletion || completesSection m slot station)) := hemem.trans hmem
    obtain ⟨h88, h89, h90, h91, h92⟩ := read_counterWords (m := m) (figures := figures) hslot hstation
      (hasFlag (r 88).data flagCompletion || completesSection m slot station)
    rw [← hwords] at h88 h89 h90 h91 h92
    refine ⟨?_, h88.trans ?_, h89, h90, h91, h92, fun a ha => ?_⟩
    · rw [hcompletes, completesSection, Bool.and_eq_true, stationsWithin_iff, Bool.not_eq_true', and_comm]
      refine and_congr_left' ?_
      rw [Bool.eq_false_iff, ne_eq, hasFlag_iff]
      exact Nat.mod_two_ne_one
    · simp only [hcompletes, flagIf, Bool.or_eq_true, hasFlag_iff, or_comm]
      rfl
    · rw [hwords]
      refine read_writeWords_other (fun p hp => ?_) m
      simp only [counterWords, List.mem_cons, List.not_mem_nil, or_false] at hp
      rcases hp with rfl | rfl | rfl | rfl | rfl <;> exact (ha _ (by decide) (by decide)).symm

end

/-- Settles O56: the head is performed by its command alone, and each operation does to the words what its rule says. -/
theorem storePerformsTheHeadOfTheList : Obligations.StorePerformsTheHeadOfTheList := by
  refine ⟨fun s op rest hp hrun hops => ⟨?_, ?_⟩, ?_, ?_, ?_, ?_, ?_, ?_, ?_⟩
  · obtain ⟨hwch, hcap, htkt, hpower, more, hmore⟩ := performOp_keepsUnits (s := s) (op := op) (rest := rest)
    refine ⟨performOp op rest s, more, exec_command_performs hp hrun hops, hmore.symm, performOp_mem, ?_, ?_, ?_, ?_,
      hwch, hcap, htkt, hpower⟩
    · rintro hpending finds rfl hquiet
      exact ⟨performOp_latch hpending, performOp_quiet hpending hquiet, fun f => performOp_oneFind hpending hquiet⟩
    · rintro c rfl
      exact ⟨performOp_closeCopy_day, performOp_closeCopy_reported⟩
    · rintro a0 a1 a2 a3 number w figures filled rfl hw hfigures hfilled -
      obtain rfl : filled = s.lnk.queue.map (TxFrame.filled number figures) := by
        refine hfilled.trans (List.map_congr_left fun f _ => ?_)
        cases f with
        | daysum day n held => cases held <;> rfl
        | _ => rfl
      exact performOp_daysum_lnk hp hw hfigures
    · rintro slot day station figures rfl
      exact performOp_counterUpdate_events
  · rintro i ⟨other, rfl⟩ hne
    exact exec_command_waits hops hne
  · exact runOp_findsOf
  · intro m addresses purpose
    rw [runOp_read_finds]
    refine ⟨by simp [Function.comp_def], fun f hf => ?_⟩
    obtain ⟨a, -, rfl⟩ := List.mem_map.mp hf
    exact ⟨rfl, rfl⟩
  · rintro m slot day station figures r e set hlow hslot hstation rfl rfl rfl
    refine ⟨?_, fun hall => ?_⟩
    · rintro ⟨o, hlow, hhigh, hj⟩
      obtain ⟨hcomplete, hleft⟩ := runCounterUpdate_left (station := station) (figures := figures) ⟨hlow, hhigh⟩ hj
      exact ⟨hcomplete, fun k hk _ => hleft _ (by unfold addrRecord; omega)⟩
    · exact runOp_counterUpdate_readable hslot hstation hall
  · rintro m e additions rfl hnodup haddress
    have h92 : ∀ p ∈ additions, p.1 ≠ 92 := fun p hp => (haddress p hp).2
    refine ⟨fun p hp => read_runUpdate_added hnodup hp (haddress p hp).1 (h92 p hp),
      fun p hp => read_runUpdate_left hnodup hp (haddress p hp).1 (h92 p hp),
      fun a ha h => read_runUpdate_other ha h, read_runUpdate_flags_left hnodup h92, fun hsome hj => ?_⟩
    rw [← setSeen_eq]
    exact read_runUpdate_flags_set hnodup h92 hsome hj
  · rintro m e slot w0 w1 w2 w3 label hlow hslot rfl
    have hwritten {p : Nat × Word} := read_runJournalAppend_written (m := m) (label := label) (w0 := w0) (w1 := w1)
      (w2 := w2) (w3 := w3) (p := p) hslot
    refine ⟨fun k w hk => hwritten (p := (872 + 4 * (slot - 1) + k, w)) ?_, hwritten (p := (1, label)) ?_,
      read_runJournalAppend_counted, read_runJournalAppend_uncounted, fun a h1 h90 h92 hentry => ?_⟩
    · simp only [List.mem_cons, Prod.mk.injEq, List.not_mem_nil, or_false] at hk
      rcases hk with ⟨rfl, rfl⟩ | ⟨rfl, rfl⟩ | ⟨rfl, rfl⟩ | ⟨rfl, rfl⟩ <;> simp [journalWords]
    · simp [journalWords]
    · exact read_runJournalAppend_other h1 h90 h92 (by omega)
  · rintro m e slot serial day r hlow hslot rfl rfl
    have haddress : 872 + 4 * (slot - 1) < 2048 := by omega
    refine ⟨fun h0 h1 hserial hday => ?_, runTakenFlag_leaves⟩
    have hmem : (runOp m (.takenFlag slot serial day)).mem = _ := runTakenFlag_sets h0 h1 hserial hday
    rw [hmem, ← setTaken_eq]
    exact ⟨Memory.read_written m haddress (setTaken_lt (Memory.read_data_lt _ _)),
      fun a ha => Memory.read_write_other m ha _⟩
  · rintro m e words rfl hnodup
    exact ⟨fun p hp ha => read_writeWords_mem hnodup hp ha m, fun a h => read_writeWords_other h m⟩

end Sys2Proof.Machine
end
